-- ==== Sys2Proof/Word.lean ====
section
/-! DEFINITION. The words of the Rostabel 1610: bytes, text, the 24-bit field word of R3 and R190, and the readings a frame
brings to the track input port (R4), and the levels of the cart link line (R83). -/

namespace Sys2Proof

/-- One byte of a message, a link frame or a card block. -/
abbrev Byte := BitVec 8

/-- Text as R189 carries it: one byte a character. -/
abbrev Text := List Byte

/-- The stored field word (R3): sign, exponent 0 to 31, fraction 0 to 262,143. -/
structure FieldWord where
  sign : Bool
  exponent : BitVec 5
  fraction : BitVec 18
  deriving DecidableEq, Repr

/-- Exact zero: e = 0, s = 0 (R3). -/
def FieldWord.zero : FieldWord := ⟨false, 0, 0⟩

/-- The absent code: e = 0, s = 1 (R3, R8). -/
def FieldWord.absent : FieldWord := ⟨true, 0, 0⟩

/-- What the track input port delivers for one track in one frame (R4). `h` and `l` are the readings of a DUAL
track, `x` the reading of a SINGLE or RECEIVER track, `valid` the validity flag of a RECEIVER track. A field that the
track's kind does not deliver is not examined. -/
structure Reading where
  h : BitVec 24
  l : BitVec 24
  x : BitVec 24
  valid : Bool
  deriving DecidableEq, Repr

/-- One arriving sample frame: the readings of tracks 1 to 16, track n at index n - 1. -/
abbrev FrameIn := Vector Reading 16

/-- A complete frame heard on the cart link, less its preamble and its kind byte, which the command's row gives (R85,
R191). The length byte of a complete frame is the number of its payload bytes (R96). -/
structure HeardFrame where
  sender : Byte
  payload : List Byte
  check : BitVec 16
  deriving DecidableEq, Repr

/-- A level of the cart link line: dominant is a 0 bit, recessive a 1 bit or a line that nobody drives (R83). -/
inductive Level where
  | dominant | recessive
  deriving DecidableEq, Repr

end Sys2Proof
end

