-- ==== Sys2Proof/Syntax.lean ====
section
/-! DEFINITION. The commands of the block: one constructor for each row of spec/opcode_table.json, with the row's operands. -/

namespace Sys2Proof

/-- The commands and events the engine takes. Each is one indivisible event (R177, and 95_what_each_step_holds.md).

* `powerOn`, `reset`: the station number on the strap pins (R188).
* the frame events: the sample frame that arrives. `frameArrival` is any arrival; `returnToHigh` (with its track),
  `cueFire`, `awaitedStop`, `postRollComplete`, `halfDayStop` and `blockEnd` are the arrival of a frame at which that
  condition comes about.
* the link events: `lineBusy` carries the byte its start bit begins; the four frame events carry the frame as heard.
* the host's commands: the argument bytes of the command message (R193, R194), so that a message of a wrong length is a
  term too.
* `selectionReleased`: the bytes of the command message received before the release (R177). -/
inductive Instr where
  | powerOn (strap : Fin 8)
  | reset (strap : Fin 8)
  | frameArrival (f : FrameIn)
  | returnToHigh (track : Nat) (f : FrameIn)
  | cueFire (f : FrameIn)
  | awaitedStop (f : FrameIn)
  | postRollComplete (f : FrameIn)
  | halfDayStop (f : FrameIn)
  | pendingStartPromotion
  | blockEnd (f : FrameIn)
  | clockLost
  | referencePulse
  | recordKey
  | successfulCompletion
  | failedCompletion
  | writeIssue
  | lineIdle
  | deferralExpiry
  | successfulSend
  | collision
  | announceTimerExpiry
  | peerAbsent (peer : Fin 8)
  | statusFrame (f : HeardFrame)
  | noteFrame (f : HeardFrame)
  | noteRequestFrame (f : HeardFrame)
  | noteGoneFrame (f : HeardFrame)
  | configureClock (args : List Byte)
  | configureTrack (args : List Byte)
  | configureCapture (args : List Byte)
  | configureMedia (args : List Byte)
  | setRunNumber (args : List Byte)
  | commit (args : List Byte)
  | setTrim (args : List Byte)
  | setGate (args : List Byte)
  | setScene (args : List Byte)
  | setNextTake (args : List Byte)
  | jamTimecode (args : List Byte)
  | start (args : List Byte)
  | stop (args : List Byte)
  | addNote (args : List Byte)
  | setCue (args : List Byte)
  | cancelCue (args : List Byte)
  | clearClip (args : List Byte)
  | mediaRetry (args : List Byte)
  | captureRestart (args : List Byte)
  | readStatus (args : List Byte)
  | readSlot (args : List Byte)
  | readPeer (args : List Byte)
  | readNote (args : List Byte)
  | readClip (args : List Byte)
  | readNotices (args : List Byte)
  | setNoticeMask (args : List Byte)
  | ackNotices (args : List Byte)
  | unknownCommand (code : Byte) (args : List Byte)
  | responseRead
  | lineBusy (byte : Byte)
  | selectionReleased (received : List Byte)
  deriving DecidableEq, Repr

end Sys2Proof
end

