-- ==== Sys2Proof/Decode.lean ====
section
/-! DEFINITION. The command a table word spells, and the command a command message spells. spec/opcode_table.json gives no row of
this block any bits ("fields" is empty for all 57 rows and no row has "fixed"), so no word spells a command; the host's
commands come as the byte messages of R193, with the codes of R194. -/

namespace Sys2Proof

/-- No row of the table gives bits, so no word spells a command. -/
def decodeTableWord (_nbits _w : Nat) : Option Instr := none

/-- The command of a code, with its argument bytes, by the table of R194; none for a code that names no command (R193). -/
def commandOf (code : Nat) (args : List Byte) : Option Instr :=
  match code with
  | 0x01 => some (.configureClock args)
  | 0x02 => some (.configureTrack args)
  | 0x03 => some (.configureCapture args)
  | 0x04 => some (.configureMedia args)
  | 0x05 => some (.setRunNumber args)
  | 0x06 => some (.commit args)
  | 0x10 => some (.setTrim args)
  | 0x11 => some (.setGate args)
  | 0x12 => some (.setScene args)
  | 0x13 => some (.setNextTake args)
  | 0x14 => some (.jamTimecode args)
  | 0x20 => some (.start args)
  | 0x21 => some (.stop args)
  | 0x22 => some (.addNote args)
  | 0x23 => some (.setCue args)
  | 0x24 => some (.cancelCue args)
  | 0x25 => some (.clearClip args)
  | 0x26 => some (.mediaRetry args)
  | 0x27 => some (.captureRestart args)
  | 0x30 => some (.readStatus args)
  | 0x31 => some (.readSlot args)
  | 0x32 => some (.readPeer args)
  | 0x33 => some (.readNote args)
  | 0x34 => some (.readClip args)
  | 0x35 => some (.readNotices args)
  | 0x36 => some (.setNoticeMask args)
  | 0x37 => some (.ackNotices args)
  | _ => none

/-- A complete command message of this code and these argument bytes (R193). -/
def commandMessage (code : Byte) (args : List Byte) : List Byte := code :: BitVec.ofNat 8 args.length :: args

/-- What the bytes of one selection are to the port, once the selection ends: a response read when the first byte is 0x00;
otherwise the command of the code with the announced number of argument bytes, or UNKNOWN for a code that names none; and a
release when the selection ended before the message was complete. Bytes after a complete message belong to no command
(R177, R193). -/
def readMessage (bytes : List Byte) : Instr :=
  match bytes with
  | [] => .selectionReleased []
  | code :: rest =>
    if code = 0#8 then .responseRead
    else
      match rest with
      | [] => .selectionReleased [code]
      | len :: body =>
        if body.length < len.toNat then .selectionReleased (code :: len :: body)
        else
          let args := body.take len.toNat
          (commandOf code.toNat args).getD (.unknownCommand code args)

end Sys2Proof
end

