-- ==== Sys2Proof/Config.lean ====
section
/-! DEFINITION. The fixed figures of the engine. Every value is stated by the spec; the rule stands beside it. No figure here is
chosen by the model. The one free value, the order of R46 that the spec leaves open, stands last, without a body. -/

namespace Sys2Proof.Config

/-- Ring capacity R in frames (R44). -/
def ringCapacity : Nat := 1048576

/-- Three quarters of R, the protected count at which audio goes first (R50, R165). -/
def protectedThreshold : Nat := 786432

/-- Greatest pre-roll P (R53). -/
def maxPreRoll : Nat := 524288

/-- Greatest post-roll Q (R68). -/
def maxPostRoll : Nat := 262144

/-- Entries of a gap list (R56, R75). -/
def maxGapEntries : Nat := 16

/-- Note references of a take (R56, R133). -/
def maxNoteRefs : Nat := 32

/-- Identities in the closed-identity list (R110). -/
def maxClosed : Nat := 4

/-- Frames in the transmit queue (R93). -/
def maxQueue : Nat := 8

/-- Attempts after which a frame leaves the queue (R92). -/
def maxAttempts : Nat := 3

/-- Notes in the note store (R129). -/
def maxNotes : Nat := 256

/-- Notes in one note block (R162). -/
def notesPerBlock : Nat := 32

/-- Addresses in the skipped list (R163). -/
def maxSkipped : Nat := 16

/-- Fewest blocks of a card range at COMMIT (R180). -/
def minBlocks : Nat := 128

/-- Remaining count at and below which the card is NEAR FULL (R158). -/
def nearFullBlocks : Nat := 2048

/-- Remaining count at and below which the card is FULL (R158). -/
def fullBlocks : Nat := 64

/-- Payload bytes of an audio block (R192). -/
def audioPayload : Nat := 4080

/-- Bytes of a card block (R192). -/
def blockBytes : Nat := 4096

/-- Greatest link payload (R85). -/
def maxPayload : Nat := 200

/-- The preamble byte of a link frame (R85). -/
def preamble : Nat := 165

/-- The frames of a mix block (R144). -/
def mixBlock : Nat := 64

/-- Full gain of an envelope (R151). -/
def fullGain : Nat := 4096

/-- A 32-bit count stays at this value once reached (R21, R45, R155). -/
def max32 : Nat := 4294967295

/-- A 16-bit count stays at this value once reached (R34, R105, R142, R163, R168). -/
def max16 : Nat := 65535

/-- Switch-down level of a DUAL track's high path (R9). -/
def switchDown : Nat := 7340032

/-- Level below which a DUAL track's high reading is quiet (R9). -/
def quietLevel : Nat := 4194304

/-- Quiet frames in succession that return a DUAL track to HIGH (R9). -/
def quietFrames : Nat := 64

/-- The loss timer in bit times of 1 microsecond (R31: 4 ms). -/
def lossTime : Nat := 4000

/-- The announce interval in bit times (R95: 100 ms). -/
def announceTime : Nat := 100000

/-- The age at which a peer becomes ABSENT, in bit times (R101: 300 ms). -/
def absentTime : Nat := 300000

/-- The least time between two NOTE REQUEST frames to one peer, in bit times (R139: 100 ms). -/
def requestTime : Nat := 100000

/-- Bit times of rest after which the line is IDLE (R84). -/
def idleTime : Nat := 16

/-- Bit times of one byte on the line (R83). -/
def byteTime : Nat := 10

/-- The order in which the ring and a promotion that the arrival causes are taken, at the n-th such arrival: true when the ring
takes the arrival first. R46 calls both orders correct, so this is a free value with no body. DESIGN CHOICE,
notes/assumptions/18.md. -/
opaque ringTakesFirst : Nat → Bool

end Sys2Proof.Config
end

