-- ==== Sys2Proof/Machine/State.lean ====
section
/-! DEFINITION. The whole state of the Rostabel 1610, block by block as 00_scope.md lists its nine blocks, and the state after
power-on and the RESET line (R188). Positions, counts and times are natural numbers; the values the manual treats as bits
(field words, readings, bytes, masks, notice sets) are bit vectors. Times are in bit times of 1 microsecond. -/

namespace Sys2Proof.Machine

open Sys2Proof

/-- What stops the machine. The spec gives this block no fault that stops it: a failed card write, a link error or an
overrun is a state and a notice. So the type has no constructor, and no command faults. Safe. -/
inductive Fault where
  deriving DecidableEq, Repr

/-- Why a command has no meaning in the model. -/
inductive Refusal where
  /-- An arm of exec whose command is not modelled yet, by its mnemonic. Raised by exec alone; no arm raises it now. Safe:
  the model stops where the engine goes on. -/
  | notModelled (mnemonic : String)
  deriving DecidableEq, Repr

/-! ## Take labels, identities and takes (R2, R56, R59, R109) -/

/-- A take label: scene and take number (R2). -/
structure Label where
  scene : Text
  number : Nat
  deriving DecidableEq, Repr

/-- A take identity: origin station, label, requested start (R2). -/
structure Identity where
  origin : Nat
  label : Label
  start : Nat
  deriving DecidableEq, Repr

/-- A note identity: originator, its run number, sequence (R125). -/
structure NoteId where
  originator : Nat
  run : Nat
  seq : Nat
  deriving DecidableEq, Repr

/-- The states of a non-EMPTY slot (R55). -/
inductive TakePhase where
  | rolling | post | closing
  deriving DecidableEq, Repr

/-- A gap list entry: first position and count (R75). -/
structure GapEntry where
  first : Nat
  count : Nat
  deriving DecidableEq, Repr

/-- The flags of a take record (R56). -/
structure TakeFlags where
  follower : Bool := false
  merged : Bool := false
  lateJoin : Bool := false
  originLost : Bool := false
  forcedStop : Bool := false
  circled : Bool := false
  falseStart : Bool := false
  wild : Bool := false
  deriving DecidableEq, Repr

/-- The per-track entry of a take record (R21, R56). -/
structure TrackTally where
  clips : Nat := 0
  firstClip : Option Nat := none
  dropouts : Nat := 0
  name : Option Text := none
  deriving DecidableEq, Repr

/-- The take record of a non-EMPTY slot (R56), with the slot's state and its index-issued mark (R161). `gapsMerged` is the
merged flag of the last gap entry (R75). `tracks` has an entry for each enabled track and none for an OFF track. -/
structure Take where
  phase : TakePhase
  serial : Nat
  label : Label
  former : List Label
  origin : Nat
  sr : Nat
  e : Option Nat
  z : Option Nat
  postRoll : Nat
  h : Nat
  next : Nat
  watch : Nat
  w : Nat
  g : Nat
  gaps : List GapEntry
  gapsMerged : Bool
  flags : TakeFlags
  tracks : Vector (Option TrackTally) 16
  noteRefs : List NoteId
  firstBlock : Option Nat
  blocks : Nat
  indexIssued : Bool
  deriving DecidableEq, Repr

/-- Who asked for a start (R59). -/
inductive Source where
  | command | key | cue | peer
  deriving DecidableEq, Repr

/-- The pending start record (R59). -/
structure PendingStart where
  label : Label
  origin : Nat
  start : Nat
  source : Source
  reached : Bool
  deriving DecidableEq, Repr

/-- The engine phase, derived from the slots and the pending start (R58). -/
inductive EnginePhase where
  | idle | startPending | rolling | post
  deriving DecidableEq, Repr

/-- The take engine (chapters 4 and 6), with P, Q and the follow mask of CONFIGURE CAPTURE. -/
structure TakeEngine where
  slots : Vector (Option Take) 3
  pendingStart : Option PendingStart
  serial : Nat
  scene : Text
  nextTake : Nat
  closed : List Identity
  preRoll : Nat
  postRoll : Nat
  followMask : BitVec 8
  deriving DecidableEq, Repr

/-! ## The command port and the notices (chapter 10) -/

/-- The port phase (R176). -/
inductive PortPhase where
  | setup | run
  deriving DecidableEq, Repr

/-- The response codes (R177). -/
inductive ResponseCode where
  | ok | already | wrongPhase | badValue | busy | late | refused | incomplete | unknown
  deriving DecidableEq, Repr

/-- A response: its code and its data bytes (R177, R193). -/
structure Response where
  code : ResponseCode
  data : List Byte
  deriving DecidableEq, Repr

/-- What the port has of the selection it is in (R177). `released`: it is in none. `receiving`: the bytes of the message that is
being received. `spent`: the rest of the selection is no command, since its message is complete or was discarded (R188). -/
inductive Selection where
  | released
  | receiving (bytes : List Byte)
  | spent
  deriving DecidableEq, Repr

/-- The command port: the phase, the station number sampled from the strap pins, the held response, the bytes the port last
clocked out in a response read, and the message being received. -/
structure Port where
  phase : PortPhase
  station : Fin 8
  response : Option Response
  output : List Byte
  selection : Selection
  deriving DecidableEq, Repr

/-- The twenty notice kinds, in the order of R184. -/
inductive Notice where
  | takeStarted | takeClosed | startRefused | merged | originLost | peerChange | peerMismatch | stationClash
  | noteArrived | notesLost | clip | overrun | mediaFault | mediaHalted | nearFull | full | clockLost | clockBack
  | refDrift | takeAbandoned
  deriving DecidableEq, Repr

/-- The notice unit: the pending set and the mask, with the bit numbers of R193, and the attention line (R185 to R187). -/
structure NoticeUnit where
  pending : BitVec 20
  mask : BitVec 20
  attention : Bool
  deriving DecidableEq, Repr

/-! ## The position counter (chapter 2) -/

/-- The sample rates (R28). -/
inductive SampleRate where
  | r48 | r96
  deriving DecidableEq, Repr

/-- The timecode rates (R28). -/
inductive TcRate where
  | f24 | f25 | f30
  deriving DecidableEq, Repr

/-- The clock state (R31). -/
inductive ClockState where
  | running | lost
  deriving DecidableEq, Repr

/-- What a cue asks for (R38). -/
inductive CueKind where
  | start | stop
  deriving DecidableEq, Repr

/-- The cue entry (R38). -/
structure Cue where
  kind : CueKind
  pos : Nat
  deriving DecidableEq, Repr

/-- The position counter block. `lossTimer` is the time at which the loss timer was last started, none once it has run out
(R31). `frameSeen` says that a frame has arrived since the last power-on, RESET line, change of sample rate or jam
(R33). -/
structure Counter where
  newest : Nat
  sampleRate : SampleRate
  tcRate : TcRate
  refCheck : Bool
  refTolerance : Nat
  clock : ClockState
  lossTimer : Option Nat
  refOffset : Nat
  drift : Nat
  frameSeen : Bool
  cue : Option Cue
  deriving DecidableEq, Repr

/-! ## The track front end (chapter 1) -/

/-- The channel kinds (R4). -/
inductive ChannelKind where
  | off | dual | single | receiver
  deriving DecidableEq, Repr

/-- The path state of a DUAL track (R9). -/
inductive PathState where
  | high | low
  deriving DecidableEq, Repr

/-- The rounding mode (R14). -/
inductive Rounding where
  | chop | round
  deriving DecidableEq, Repr

/-- One track of the front end: the settings of CONFIGURE TRACK (R5), the trim (R11), path state and quiet count (R9). The
partner is a track number 1 to 16. -/
structure Track where
  kind : ChannelKind
  k : Nat
  mixEnable : Bool
  partner : Option Nat
  trim : Nat
  path : PathState
  quiet : Nat
  deriving DecidableEq, Repr

/-- The source of a clip: a track number, or the mix (R22). -/
inductive ClipSource where
  | track (n : Nat)
  | mix
  deriving DecidableEq, Repr

/-- The first-clip record (R22). -/
structure FirstClip where
  source : ClipSource
  serial : Option Nat
  pos : Nat
  deriving DecidableEq, Repr

/-- The front end block: tracks, rounding mode, station clip flag and first-clip record. -/
structure FrontEnd where
  tracks : Vector Track 16
  rounding : Rounding
  clipFlag : Bool
  firstClip : Option FirstClip
  deriving DecidableEq, Repr

/-! ## The dialogue mix unit (chapter 8) -/

/-- The gate settings of a track (R153). -/
structure GateSettings where
  openThreshold : Nat
  closeThreshold : Nat
  closeHold : Nat
  attack : Nat
  decay : Nat
  release : Nat
  sustain : Nat
  duck : Nat
  deriving DecidableEq, Repr

/-- A gate (R149). -/
inductive Gate where
  | closed | opened
  deriving DecidableEq, Repr

/-- The envelope states (R151). -/
inductive Envelope where
  | closed | attack | decay | held | release
  deriving DecidableEq, Repr

/-- The mix unit's state for one track. `peak` is the running peak in units of 2^-45, of which every field word value is a
whole multiple (R146, R148). -/
structure MixTrack where
  settings : GateSettings
  gate : Gate
  hold : Nat
  envelope : Envelope
  gain : Nat
  peak : Nat
  deriving DecidableEq, Repr

/-- The mix unit: per-track state, block frame count (R144), station mix clip count (R155), and the 24-bit integer last sent
on the mix output port (R147, R190), none before the first frame. -/
structure Mixer where
  tracks : Vector MixTrack 16
  blockCount : Nat
  clips : Nat
  output : Option (BitVec 24)
  deriving DecidableEq, Repr

/-! ## The pre-roll ring (chapter 3) -/

/-- A ring frame (R41): position, the field words of the enabled tracks in track order, the mix word when the mix is
enabled, and the clip set as track numbers. -/
structure RingFrame where
  pos : Nat
  words : List FieldWord
  mix : Option Int
  clips : List Nat
  deriving DecidableEq, Repr

/-- The ring: the held frames, oldest first, and the discard count (R42, R45). -/
structure Ring where
  frames : List RingFrame
  discards : Nat
  deriving DecidableEq, Repr

/-! ## Notes (chapter 7) -/

/-- The note kinds (R125). -/
inductive NoteKind where
  | slate | circle | falseStart | wild | trackName | mark
  deriving DecidableEq, Repr

/-- A slate note (R125). -/
structure Note where
  id : NoteId
  kind : NoteKind
  ref : Option Label
  pos : Option Nat
  track : Option Nat
  text : Text
  deriving DecidableEq, Repr

/-- The write state of a stored note (R130). -/
inductive NoteWrite where
  | pending | writing | written
  deriving DecidableEq, Repr

/-- A note in the store with its write state (R129). -/
structure StoredNote where
  note : Note
  state : NoteWrite
  deriving DecidableEq, Repr

/-- The note store: notes oldest first, the own sequence counter (R126) and the four counts (R142). -/
structure NoteStore where
  notes : List StoredNote
  seq : Nat
  duplicates : Nat
  refused : Nat
  rejected : Nat
  lost : Nat
  deriving DecidableEq, Repr

/-! ## The cart link (chapter 5) -/

/-- The fields of a STATUS payload (R87, R191). Codes that the engine may receive unassigned (rates, capture state, engine
phase) are kept as their byte values; take number 0 marks no take (R88). -/
structure StatusFields where
  run : Nat
  rateCode : Nat
  tcCode : Nat
  pos : Nat
  capture : Nat
  phase : Nat
  origin : Nat
  scene : Text
  number : Nat
  start : Nat
  stop : Nat
  nextTake : Nat
  highWater : Nat
  deriving DecidableEq, Repr

/-- The compatibility of a peer (R103). -/
inductive Compatibility where
  | ok | rateMismatch | tcOff
  deriving DecidableEq, Repr

/-- A peer entry (R100). `heardAt` is the time of the last valid frame, from which the age runs while PRESENT; it is none
while ABSENT. The entry of the own station number is not used: the SELF entry is derived (R100). -/
structure Peer where
  present : Bool
  heardAt : Option Nat
  run : Option Nat
  status : Option StatusFields
  compat : Option Compatibility
  offset : Option Int
  heardUpTo : Nat
  lastRequest : Option Nat
  deriving DecidableEq, Repr

/-- The line state (R84): not kept in SETUP. -/
inductive LineState where
  | notKept | busy | idle
  deriving DecidableEq, Repr

/-- The transmitter states (R89). -/
inductive TxState where
  | standby | waitIdle | defer | send
  deriving DecidableEq, Repr

/-- A frame of the transmit queue. The payload of a STATUS is assembled at each attempt; the others are fixed when
queued (R93). -/
inductive TxFrame where
  | status
  | note (n : Note)
  | noteRequest (target run first : Nat)
  | noteGone (run first last : Nat)
  deriving DecidableEq, Repr

/-- An entry of the transmit queue (R93). -/
structure TxEntry where
  frame : TxFrame
  attempts : Nat
  deriving DecidableEq, Repr

/-- The receiver (R96). `waiting`: it takes no bytes until the line is next IDLE. `ready`: the next start bit begins a frame.
`taking`: the arrival position and the bytes taken so far, the preamble among them. `within`: the same after a collision, the
byte after them being under way, with its value yet to be heard (R91). `echo`: the bytes of the frame whose
successful send has just ended (R98). -/
inductive Receiver where
  | waiting
  | ready
  | taking (arrival : Nat) (bytes : List Byte)
  | within (arrival : Nat) (bytes : List Byte)
  | echo (bytes : List Byte)
  deriving DecidableEq, Repr

/-- The seven link counts (R105). -/
structure LinkCounts where
  sent : Nat
  collisions : Nat
  dropped : Nat
  refused : Nat
  received : Nat
  errors : Nat
  clashes : Nat
  deriving DecidableEq, Repr

/-- The cart link controller. `restFrom` is the time at which the last stop bit heard ends, from which the 16 bit times of
rest are counted, and `idleFrom` the time at which the line last became IDLE, from which the deferral is counted (R84,
R89). `sending` holds the bytes being driven in SEND, the first of which began at `attemptFrom` (R83, R91). `announce` is the
time at which the announce timer was last started, none while it is stopped (R95). -/
structure Link where
  run : Nat
  line : LineState
  restFrom : Nat
  idleFrom : Nat
  tx : TxState
  sending : List Byte
  attemptFrom : Nat
  queue : List TxEntry
  owed : Bool
  penalty : Bool
  announce : Option Nat
  listenOnly : Bool
  receiver : Receiver
  peers : Vector Peer 8
  tolerance : Nat
  counts : LinkCounts
  deriving DecidableEq, Repr

/-! ## The media writer (chapter 9) -/

/-- The space state (R158). -/
inductive Space where
  | ample | nearFull | full | exhausted
  deriving DecidableEq, Repr

/-- The capture state (section 9.5). -/
inductive Capture where
  | normal | mediaFault | halted
  deriving DecidableEq, Repr

/-- The content of a write, fixed at issue (R159 to R163). `audio`: slot, word count, serial, block sequence, and the frames
with their clip sets; its first position is that of its first frame. `index`: slot, word count, the take record as it
stood. `notes`: the notes as stored. `fault`: the listed addresses and the unlisted count. -/
inductive Content where
  | audio (slot : Fin 3) (words serial first seq : Nat) (frames : List RingFrame)
  | index (slot : Fin 3) (words : Nat) (take : Take)
  | notes (notes : List Note)
  | fault (addrs : List Nat) (unlisted : Nat)
  deriving DecidableEq, Repr

/-- The attempt mark of a write (R164). -/
inductive Attempt where
  | first | retry
  deriving DecidableEq, Repr

/-- A write in flight (R164). `ofRetryCommand` marks the fault record of MEDIA RETRY (R171). -/
structure Write where
  addr : Nat
  content : Content
  attempt : Attempt
  stale : Bool
  ofRetryCommand : Bool
  deriving DecidableEq, Repr

/-- The media writer. The range is unset until CONFIGURE MEDIA; cursor and space state are unset until COMMIT (R157,
R158). -/
structure Writer where
  range : Option (Nat × Nat)
  cursor : Option Nat
  space : Option Space
  capture : Capture
  inFlight : Option Write
  held : Option Content
  skipped : List Nat
  unlisted : Nat
  failed : Nat
  deriving DecidableEq, Repr

/-! ## The machine -/

/-- The whole block. `time` is the internal oscillator's count of bit times since power-on. `pending` is the queue of the
commands that wait, first in, first out, and `orders` counts the arrivals at which R46 left the order of ring and promotion open
(notes/assumptions/18.md); these two are the model's, not the spec's. -/
structure State where
  time : Nat
  port : Port
  notices : NoticeUnit
  counter : Counter
  front : FrontEnd
  mixer : Mixer
  ring : Ring
  takes : TakeEngine
  link : Link
  store : NoteStore
  writer : Writer
  orders : Nat
  pending : List Instr
  deriving DecidableEq, Repr

/-- A track after power-on: SINGLE, k 4, mix disabled, no partner, unity trim, HIGH (R5, R10, R11). -/
def Track.reset : Track :=
  { kind := .single, k := 4, mixEnable := false, partner := none, trim := 4096, path := .high, quiet := 0 }

/-- The gate settings after power-on (R154). -/
def GateSettings.reset : GateSettings :=
  { openThreshold := 207, closeThreshold := 164, closeHold := 8, attack := 256, decay := 256, release := 256,
    sustain := 4096, duck := 2048 }

/-- A mix track after power-on: gate and envelope CLOSED, gain 0, running peak 0 (R149, R151, R154, R156). -/
def MixTrack.reset : MixTrack :=
  { settings := GateSettings.reset, gate := .closed, hold := 0, envelope := .closed, gain := 0, peak := 0 }

/-- A peer entry after power-on: ABSENT, heard-up-to 0, all else absent (R100). -/
def Peer.reset : Peer :=
  { present := false, heardAt := none, run := none, status := none, compat := none, offset := none, heardUpTo := 0,
    lastRequest := none }

/-- The state after power-on or the RESET line with this number on the strap pins (R188, and the reset value each chapter
states with its state). The commands still waiting are the model's queue, empty here. -/
def State.resetAt (station : Fin 8) : State :=
  { time := 0
    port := { phase := .setup, station := station, response := none, output := [], selection := .released }
    notices := { pending := 0, mask := 0, attention := false }
    counter :=
      { newest := 0, sampleRate := .r48, tcRate := .f25, refCheck := false, refTolerance := 1, clock := .running,
        lossTimer := some 0, refOffset := 0, drift := 0, frameSeen := false, cue := none }
    front := { tracks := Vector.replicate 16 Track.reset, rounding := .round, clipFlag := false, firstClip := none }
    mixer := { tracks := Vector.replicate 16 MixTrack.reset, blockCount := 0, clips := 0, output := none }
    ring := { frames := [], discards := 0 }
    takes :=
      { slots := Vector.replicate 3 none, pendingStart := none, serial := 0, scene := [65#8], nextTake := 1, closed := [],
        preRoll := 96000, postRoll := 24000, followMask := 255#8 }
    link :=
      { run := 0, line := .notKept, restFrom := 0, idleFrom := 0, tx := .standby, sending := [], attemptFrom := 0, queue := [],
        owed := false, penalty := false, announce := none, listenOnly := false, receiver := .waiting,
        peers := Vector.replicate 8 Peer.reset, tolerance := 2,
        counts := { sent := 0, collisions := 0, dropped := 0, refused := 0, received := 0, errors := 0, clashes := 0 } }
    store := { notes := [], seq := 0, duplicates := 0, refused := 0, rejected := 0, lost := 0 }
    writer :=
      { range := none, cursor := none, space := none, capture := .normal, inFlight := none, held := none, skipped := [],
        unlisted := 0, failed := 0 }
    orders := 0
    pending := [] }

/-- The machine right after reset, strapped as station 0. The spec gives the station number no reset value: it is
whatever the strap pins say. DESIGN CHOICE, notes/assumptions/1.md. -/
def State.reset : State := State.resetAt 0

end Sys2Proof.Machine
end

