-- ==== Sys2Proof/Machine/Positions.lean ====
section
/-! DEFINITION. Positions modulo the day: day length, signed difference, earlier and later, counting, timecode (R1, R29, R30). -/

namespace Sys2Proof.Machine

/-- Frames per second (R28). -/
def SampleRate.hz : SampleRate → Nat
  | .r48 => 48000
  | .r96 => 96000

/-- Timecode frames per second (R28). -/
def TcRate.fps : TcRate → Nat
  | .f24 => 24
  | .f25 => 25
  | .f30 => 30

/-- Samples per timecode frame (R29). -/
def samplesPerFrame (r : SampleRate) (t : TcRate) : Nat := r.hz / t.fps

/-- The day length D in positions (section 2.2). -/
def dayLength (r : SampleRate) : Nat := 86400 * r.hz

/-- The day length in force. -/
def State.day (s : State) : Nat := dayLength s.counter.sampleRate

/-- The signed difference from a to b: (b - a) mod D taken into -D/2 < d ≤ D/2 (R1). -/
def signedDiff (D a b : Nat) : Int :=
  let m : Int := ((b : Int) - (a : Int)) % (D : Int)
  if 2 * m ≤ (D : Int) then m else m - (D : Int)

/-- Position b is later than a (R1). -/
def isLater (D b a : Nat) : Bool := 0 < signedDiff D a b

/-- Position b is earlier than a (R1). -/
def isEarlier (D b a : Nat) : Bool := signedDiff D a b < 0

/-- The later of two positions (R1). -/
def laterOf (D a b : Nat) : Nat := if isLater D a b then a else b

/-- The number of positions after a up to b, 0 when b is not later than a. -/
def countAfter (D a b : Nat) : Nat := (signedDiff D a b).toNat

/-- The number of positions from a to b inclusive (R1), 0 when b is before the position before a. -/
def countTo (D a b : Nat) : Nat := (signedDiff D a b + 1).toNat

/-- The position n after p, modulo D (R1). -/
def posAdd (D p n : Nat) : Nat := (p + n) % D

/-- The position n before p, modulo D (R1). -/
def posSub (D p n : Nat) : Nat := (p + (D - n % D)) % D

/-- The five timecode fields of a position: hours, minutes, seconds, frames, in-frame offset (R30). -/
def timecode (r : SampleRate) (t : TcRate) (p : Nat) : Nat × Nat × Nat × Nat × Nat :=
  (p / (3600 * r.hz), p / (60 * r.hz) % 60, p / r.hz % 60, p % r.hz / samplesPerFrame r t, p % samplesPerFrame r t)

/-- The position J whose timecode is hh:mm:ss:ff with an in-frame offset of 0 (R36). -/
def timecodePosition (r : SampleRate) (t : TcRate) (hh mm ss ff : Nat) : Nat :=
  ((hh * 60 + mm) * 60 + ss) * r.hz + ff * samplesPerFrame r t

/-- The position at which a take requested at S is stopped so that it is not carried past half a day: S + D/2 - Q (R60,
R68). -/
def halfDayLimit (D S Q : Nat) : Nat := posSub D (posAdd D S (D / 2)) Q

end Sys2Proof.Machine
end

