-- ==== Sys2Proof/Machine/Flags.lean ====
section
/-! DEFINITION. The flags the block computes: the pending notices and the attention line (R184 to R187), and the station clip
flag with its first-clip record (R22). -/

namespace Sys2Proof.Machine

/-- The bit number of a notice kind (R193). -/
def Notice.bit : Notice → Nat
  | .takeStarted => 0
  | .takeClosed => 1
  | .startRefused => 2
  | .merged => 3
  | .originLost => 4
  | .peerChange => 5
  | .peerMismatch => 6
  | .stationClash => 7
  | .noteArrived => 8
  | .notesLost => 9
  | .clip => 10
  | .overrun => 11
  | .mediaFault => 12
  | .mediaHalted => 13
  | .nearFull => 14
  | .full => 15
  | .clockLost => 16
  | .clockBack => 17
  | .refDrift => 18
  | .takeAbandoned => 19

/-- The attention line is asserted while the pending set holds a kind that is not in the mask (R187). -/
def attentionOf (pending mask : BitVec 20) : Bool := pending &&& ~~~mask != 0#20

/-- The notice unit with this pending set and mask, its attention line driven from them (R187). -/
def noticeUnit (pending mask : BitVec 20) : NoticeUnit :=
  { pending := pending, mask := mask, attention := attentionOf pending mask }

/-- A notice is raised: its kind joins the pending set and the attention line is re-driven (R185, R187). -/
def raise (k : Notice) (s : State) : State :=
  { s with notices := noticeUnit (s.notices.pending ||| BitVec.twoPow 20 k.bit) s.notices.mask }

/-- Raise a kind when a condition holds. -/
def raiseIf (c : Bool) (k : Notice) (s : State) : State := if c then raise k s else s

/-- The pending set holds the kind. -/
def isPending (k : Notice) (s : State) : Bool := s.notices.pending.getLsbD k.bit

/-- A clip is offered to the station clip flag: while the flag is clear it sets the flag, fills the first-clip record and
raises CLIP; otherwise nothing changes (R22). -/
def offerClip (src : ClipSource) (openSerial : Option Nat) (pos : Nat) (s : State) : State :=
  if s.front.clipFlag then s
  else
    raise .clip
      { s with
        front := { s.front with clipFlag := true, firstClip := some { source := src, serial := openSerial, pos := pos } } }

end Sys2Proof.Machine
end

