-- ==== Sys2Proof/Machine/Ops.lean ====
section
/-! DEFINITION. The named operations the blocks share: responses, counts that stop at their limit, the oscillator, the take
slots and the engine phase. -/

namespace Sys2Proof.Machine

open Sys2Proof

/-- A count raised by n that stays at its limit once reached. -/
def satAdd (limit count n : Nat) : Nat := min limit (count + n)

/-- The port holds this response, in place of any it held (R177). -/
def respond (code : ResponseCode) (data : List Byte) (s : State) : State :=
  { s with port := { s.port with response := some { code := code, data := data } } }

/-- The selection after power-on or the RESET line: a message being received is discarded, and the rest of it is no command
(R188). -/
def Selection.discard : Selection → Selection
  | .receiving (_ :: _) => .spent
  | x => x

/-- The engine is in RUN (R176). -/
def State.inRun (s : State) : Bool := s.port.phase == .run

/-- The oscillator stands at least at time t. DESIGN CHOICE, notes/assumptions/3.md. -/
def advanceTime (t : Nat) (s : State) : State := { s with time := max s.time t }

/-! ## Take slots -/

/-- The lowest-numbered slot that meets p. -/
def findSlot (p : Option Take → Bool) (s : State) : Option (Fin 3) :=
  if p s.takes.slots[0] then some 0
  else if p s.takes.slots[1] then some 1
  else if p s.takes.slots[2] then some 2
  else none

/-- The slot's contents replaced. -/
def setSlot (i : Fin 3) (t : Option Take) (s : State) : State :=
  { s with takes := { s.takes with slots := s.takes.slots.set i t } }

/-- The take in the slot, if there is one, changed by f. -/
def modifySlot (i : Fin 3) (f : Take → Take) (s : State) : State :=
  match s.takes.slots[i] with
  | none => s
  | some t => setSlot i (some (f t)) s

/-- A slot that holds the open take: ROLLING or POST (R55). -/
def isOpen : Option Take → Bool
  | some t => t.phase == .rolling || t.phase == .post
  | none => false

/-- The slot of the open take (R55). -/
def openSlot (s : State) : Option (Fin 3) := findSlot isOpen s

/-- The lowest-numbered EMPTY slot (R55). -/
def emptySlot (s : State) : Option (Fin 3) := findSlot Option.isNone s

/-- The open take. -/
def openTake (s : State) : Option Take :=
  match openSlot s with
  | some i => s.takes.slots[i]
  | none => none

/-- The engine phase (R58). -/
def enginePhase (s : State) : EnginePhase :=
  match openTake s with
  | some t => if t.phase == .rolling then .rolling else .post
  | none => if s.takes.pendingStart.isSome then .startPending else .idle

/-- How many slots have been started since this one, the one started last counting 0. Serials go from 4,294,967,295 to 1
(R57), so the difference is taken modulo 4,294,967,295. -/
def startAge (s : State) (t : Take) : Nat := (s.takes.serial + Config.max32 - t.serial) % Config.max32

/-- Of the slots that meet p, the one preferred by `better new old` over the ages at which they were started. -/
def bestSlot (better : Nat → Nat → Bool) (p : Fin 3 → Take → Bool) (s : State) : Option (Fin 3) :=
  let consider (best : Option (Fin 3 × Nat)) (i : Fin 3) : Option (Fin 3 × Nat) :=
    match s.takes.slots[i] with
    | none => best
    | some t =>
      if p i t then
        match best with
        | none => some (i, startAge s t)
        | some (j, a) => if better (startAge s t) a then some (i, startAge s t) else some (j, a)
      else best
  (consider (consider (consider none 0) 1) 2).map Prod.fst

/-- The slot started earliest among those that meet p (R165). -/
def earliestSlot (p : Fin 3 → Take → Bool) (s : State) : Option (Fin 3) := bestSlot (fun new old => old < new) p s

/-- The slot started most recently among those that meet p (R127, R133). -/
def latestSlot (p : Fin 3 → Take → Bool) (s : State) : Option (Fin 3) := bestSlot (fun new old => new < old) p s

/-- The card is FULL: the space state is FULL or EXHAUSTED (R158). -/
def cardFull (s : State) : Bool :=
  match s.writer.space with
  | some .full => true
  | some .exhausted => true
  | _ => false

/-- The tracks whose kind is not OFF, as numbers 0 to 15 (R4). -/
def enabledTracks (s : State) : List (Fin 16) :=
  (List.finRange 16).filter fun i => s.front.tracks[i].kind != .off

/-- A track is mix-enabled when it is enabled and its mix enable is on (R143). -/
def mixEnabled (s : State) (i : Fin 16) : Bool := s.front.tracks[i].kind != .off && s.front.tracks[i].mixEnable

/-- The mix is enabled for the station (R143). -/
def mixIsEnabled (s : State) : Bool := (List.finRange 16).any (mixEnabled s)

/-- The number w of words per frame (R4). -/
def wordCount (s : State) : Nat := (enabledTracks s).length + (if mixIsEnabled s then 1 else 0)

/-- The frames of an audio block: floor(4,080 / (3 w)) (R4). -/
def blockCapacity (s : State) : Nat := Config.audioPayload / (3 * wordCount s)

/-- The entry of this station number is a peer's and is ABSENT. A number that names no entry is not a peer's (R100, R121). -/
def peerIsAbsent (s : State) (origin : Nat) : Bool :=
  if h : origin < 8 then origin != s.port.station.val && !(s.link.peers[origin]'h).present else false

/-- A slot that takes a take whose origin is a peer's entry that is ABSENT has lost its origin (R121). -/
def markOriginLost (i : Fin 3) (s : State) : State :=
  raise .originLost (modifySlot i (fun t => { t with flags := { t.flags with originLost := true } }) s)

/-- The peer entry replaced. -/
def setPeer (p : Fin 8) (e : Peer) (s : State) : State :=
  { s with link := { s.link with peers := s.link.peers.set p e } }

/-- The identity of a take (R108). -/
def Take.identity (t : Take) : Identity := { origin := t.origin, label := t.label, start := t.sr }

/-- The identity of a pending start (R108). -/
def PendingStart.identity (p : PendingStart) : Identity := { origin := p.origin, label := p.label, start := p.start }

end Sys2Proof.Machine
end

