-- ==== Sys2Proof/WellFormed.lean ====
section
/-! DEFINITION. Which commands can reach the engine at all: the operand ranges that the ports themselves impose. -/

namespace Sys2Proof

/-- A selection carries an unknown command when its first byte names no command and is not the 0x00 of a response read
(R177). -/
def namesNoCommand (code : Byte) : Bool :=
  code.toNat != 0 && (commandOf code.toNat []).isNone

/-- Argument bytes that a one-byte argument length can announce (R193). -/
def argsFit (args : List Byte) : Bool := args.length ≤ 255

/-- Payload bytes that a receiver takes (R96). -/
def payloadFits (f : HeardFrame) : Bool := f.payload.length ≤ Config.maxPayload

/-- The bytes of a selection that does not yet hold a complete command message (R177, R193). -/
def isPartialMessage (bytes : List Byte) : Bool :=
  match bytes with
  | [] => true
  | [code] => code.toNat != 0
  | code :: len :: rest => code.toNat != 0 && rest.length < len.toNat

/-- The commands that the ports can deliver. -/
def WellFormed (i : Instr) : Bool :=
  match i with
  | .returnToHigh track _ => 1 ≤ track && track ≤ 16
  | .statusFrame f => payloadFits f
  | .noteFrame f => payloadFits f
  | .noteRequestFrame f => payloadFits f
  | .noteGoneFrame f => payloadFits f
  | .configureClock args => argsFit args
  | .configureTrack args => argsFit args
  | .configureCapture args => argsFit args
  | .configureMedia args => argsFit args
  | .setRunNumber args => argsFit args
  | .commit args => argsFit args
  | .setTrim args => argsFit args
  | .setGate args => argsFit args
  | .setScene args => argsFit args
  | .setNextTake args => argsFit args
  | .jamTimecode args => argsFit args
  | .start args => argsFit args
  | .stop args => argsFit args
  | .addNote args => argsFit args
  | .setCue args => argsFit args
  | .cancelCue args => argsFit args
  | .clearClip args => argsFit args
  | .mediaRetry args => argsFit args
  | .captureRestart args => argsFit args
  | .readStatus args => argsFit args
  | .readSlot args => argsFit args
  | .readPeer args => argsFit args
  | .readNote args => argsFit args
  | .readClip args => argsFit args
  | .readNotices args => argsFit args
  | .setNoticeMask args => argsFit args
  | .ackNotices args => argsFit args
  | .unknownCommand code args => namesNoCommand code && argsFit args
  | .selectionReleased received => isPartialMessage received
  | .powerOn _ => true
  | .reset _ => true
  | .frameArrival _ => true
  | .cueFire _ => true
  | .awaitedStop _ => true
  | .postRollComplete _ => true
  | .halfDayStop _ => true
  | .pendingStartPromotion => true
  | .blockEnd _ => true
  | .clockLost => true
  | .referencePulse => true
  | .recordKey => true
  | .successfulCompletion => true
  | .failedCompletion => true
  | .writeIssue => true
  | .lineIdle => true
  | .deferralExpiry => true
  | .successfulSend => true
  | .collision => true
  | .announceTimerExpiry => true
  | .peerAbsent _ => true
  | .responseRead => true
  | .lineBusy _ => true

end Sys2Proof
end

