-- ==== Sys2Proof/Machine/Formats.lean ====
section
/-! DEFINITION. Every byte layout of chapter 11, writing and reading: integers, text, the field word, link frames and their
check, card blocks, response messages (R86, R189 to R194). -/

namespace Sys2Proof.Machine

open Sys2Proof

/-! ## Integers and text (R189) -/

/-- An unsigned big-endian integer of `width` bytes (R189). -/
def be : Nat → Nat → List Byte
  | 0, _ => []
  | width + 1, v => BitVec.ofNat 8 (v / 256 ^ width) :: be width v

/-- The value of unsigned big-endian bytes (R189). -/
def ofBE (bytes : List Byte) : Nat := bytes.foldl (fun acc b => acc * 256 + b.toNat) 0

/-- The big-endian field of `width` bytes at an offset. -/
def field (bytes : List Byte) (offset width : Nat) : Nat := ofBE ((bytes.drop offset).take width)

/-- The bytes followed by 0x00 up to n bytes (R189). -/
def padTo (n : Nat) (bytes : List Byte) : List Byte := (bytes ++ List.replicate n 0#8).take n

/-- One byte of value v. -/
def byte (v : Nat) : Byte := BitVec.ofNat 8 v

/-- A yes-or-no value or a mark in one byte (R194). -/
def flagByte (b : Bool) : List Byte := [if b then 1#8 else 0#8]

/-- A value that may be absent: its presence byte, then the value, or zero bytes of its full width (R189, R193, R194). DEDUCED,
notes/assumptions/14.md. -/
def optional (width : Nat) (v : Option (List Byte)) : List Byte :=
  match v with
  | some bytes => 1#8 :: padTo width bytes
  | none => 0#8 :: List.replicate width 0#8

/-- A character outside 32 to 126 is replaced by '-' (R80). -/
def printable (ch : Byte) : Byte := if 32 ≤ ch.toNat && ch.toNat ≤ 126 then ch else 45#8

/-- A scene as it is stored: cut to twelve characters, unprintable ones replaced, a name of no characters becoming "-"
(R80). -/
def normalScene (chars : Text) : Text :=
  match (chars.take 12).map printable with
  | [] => [45#8]
  | l => l

/-- The scene read from the 12 bytes of a label or a STATUS: the bytes before the first 0x00, normalised (R127, R136, R189).
R189 states the cut at the first 0x00 for a STATUS; for the label of ADD NOTE and NOTE it is DESIGN CHOICE,
notes/assumptions/23.md. -/
def readScene (bytes : List Byte) : Text := normalScene (bytes.takeWhile (· != 0#8))

/-- A scene in its 12 bytes (R189). -/
def sceneBytes (scene : Text) : List Byte := padTo 12 scene

/-- A label in its 14 bytes (R189). -/
def labelBytes (l : Label) : List Byte := sceneBytes l.scene ++ be 2 l.number

/-- A label read from its 14 bytes (R189), its scene ending at the first 0x00: DESIGN CHOICE, notes/assumptions/23.md. -/
def readLabel (bytes : List Byte) : Label := { scene := readScene (bytes.take 12), number := field bytes 12 2 }

/-- An identity: origin, label, start (R194). -/
def identityBytes (x : Identity) : List Byte := be 1 x.origin ++ labelBytes x.label ++ be 5 x.start

/-! ## State codes (R191, R194) -/

/-- Sample rate code (R191). -/
def SampleRate.code : SampleRate → Nat
  | .r48 => 1
  | .r96 => 2

/-- Timecode rate code (R191). -/
def TcRate.code (t : TcRate) : Nat := t.fps

/-- Capture state code (R191). -/
def Capture.code : Capture → Nat
  | .normal => 0
  | .mediaFault => 1
  | .halted => 2

/-- Engine phase code (R191). -/
def EnginePhase.code : EnginePhase → Nat
  | .idle => 0
  | .startPending => 1
  | .rolling => 2
  | .post => 3

/-- Channel kind code (R194). -/
def ChannelKind.code : ChannelKind → Nat
  | .off => 0
  | .dual => 1
  | .single => 2
  | .receiver => 3

/-- Rounding mode code (R194). -/
def Rounding.code : Rounding → Nat
  | .chop => 0
  | .round => 1

/-- Cue kind code (R194). -/
def CueKind.code : CueKind → Nat
  | .start => 1
  | .stop => 2

/-- Pending start source code (R194). -/
def Source.code : Source → Nat
  | .command => 0
  | .key => 1
  | .cue => 2
  | .peer => 3

/-- Slot state code (R194). -/
def slotCode : Option Take → Nat
  | none => 0
  | some t =>
    match t.phase with
    | .rolling => 1
    | .post => 2
    | .closing => 3

/-- Envelope code (R194). -/
def Envelope.code : Envelope → Nat
  | .closed => 0
  | .attack => 1
  | .decay => 2
  | .held => 3
  | .release => 4

/-- Transmitter state code (R194). -/
def TxState.code : TxState → Nat
  | .standby => 0
  | .waitIdle => 1
  | .defer => 2
  | .send => 3

/-- Compatibility code (R194). -/
def Compatibility.code : Compatibility → Nat
  | .ok => 0
  | .rateMismatch => 1
  | .tcOff => 2

/-- Space state code (R194). -/
def Space.code : Space → Nat
  | .ample => 0
  | .nearFull => 1
  | .full => 2
  | .exhausted => 3

/-- Note kind code (R191). -/
def NoteKind.code : NoteKind → Nat
  | .slate => 1
  | .circle => 2
  | .falseStart => 3
  | .wild => 4
  | .trackName => 5
  | .mark => 6

/-- The note kind of a code, none for a code that names no kind (R136, R191). -/
def noteKindOf (code : Nat) : Option NoteKind :=
  match code with
  | 1 => some .slate
  | 2 => some .circle
  | 3 => some .falseStart
  | 4 => some .wild
  | 5 => some .trackName
  | 6 => some .mark
  | _ => none

/-- Note write state code (R194). -/
def NoteWrite.code : NoteWrite → Nat
  | .pending => 0
  | .writing => 1
  | .written => 2

/-- Card block kind code of a content (R192). -/
def Content.code : Content → Nat
  | .audio .. => 1
  | .notes .. => 2
  | .index .. => 3
  | .fault .. => 4

/-- Response code (R193). -/
def ResponseCode.code : ResponseCode → Nat
  | .ok => 0
  | .already => 1
  | .wrongPhase => 2
  | .badValue => 3
  | .busy => 4
  | .late => 5
  | .refused => 6
  | .incomplete => 7
  | .unknown => 8

/-! ## Field word and mix word (R190) -/

/-- A field word in 3 bytes (R190). -/
def wordBytes (v : FieldWord) : List Byte :=
  be 3 ((if v.sign then 8388608 else 0) + v.exponent.toNat * 262144 + v.fraction.toNat)

/-- A two's complement integer of `width` bytes (R190, R194). -/
def signedBytes (width : Nat) (v : Int) : List Byte := be width (v % (256 ^ width : Nat)).toNat

/-! ## Link frames (R85, R86, R191) -/

/-- One bit into the check register (R86). -/
def crcBit (reg : BitVec 16) (bit : Bool) : BitVec 16 :=
  if reg.msb != bit then (reg <<< 1) ^^^ 4129#16 else reg <<< 1

/-- The check register over these bytes from a start value, each byte most significant bit first (R86). -/
def crcFrom (reg : BitVec 16) (bytes : List Byte) : BitVec 16 :=
  bytes.foldl (fun r b => [7, 6, 5, 4, 3, 2, 1, 0].foldl (fun r i => crcBit r (b.getLsbD i)) r) reg

/-- The check of a frame, over its kind, sender, length and payload bytes (R86). -/
def crc (bytes : List Byte) : BitVec 16 := crcFrom 65535#16 bytes

/-- A STATUS payload of 40 bytes (R191). -/
def statusBytes (f : StatusFields) : List Byte :=
  be 2 f.run ++ be 1 f.rateCode ++ be 1 f.tcCode ++ be 5 f.pos ++ be 1 f.capture ++ be 1 f.phase ++ be 1 f.origin ++
    sceneBytes f.scene ++ be 2 f.number ++ be 5 f.start ++ be 5 f.stop ++ be 2 f.nextTake ++ be 2 f.highWater

/-- A STATUS payload read (R189, R191). -/
def readStatusPayload (p : List Byte) : StatusFields :=
  { run := field p 0 2, rateCode := field p 2 1, tcCode := field p 3 1, pos := field p 4 5, capture := field p 9 1,
    phase := field p 10 1, origin := field p 11 1, scene := readScene ((p.drop 12).take 12), number := field p 24 2,
    start := field p 26 5, stop := field p 31 5, nextTake := field p 36 2, highWater := field p 38 2 }

/-- The presence marks of a note (R191). -/
def noteMarks (n : Note) : Nat :=
  (if n.ref.isSome then 1 else 0) + (if n.pos.isSome then 2 else 0) + (if n.track.isSome then 4 else 0)

/-- A NOTE payload (R191). -/
def noteBytes (n : Note) : List Byte :=
  be 2 n.id.run ++ be 2 n.id.seq ++ be 1 n.kind.code ++ be 1 (noteMarks n) ++ (n.ref.map labelBytes).getD [] ++
    (n.pos.map (be 5)).getD [] ++ (n.track.map (be 1)).getD [] ++ be 1 n.text.length ++ n.text

/-- The optional fields and the text that follow presence marks, as NOTE payloads and ADD NOTE lay them out (R191, R194). -/
structure RawNote where
  ref : Option Label
  pos : Option Nat
  track : Option Nat
  text : Text
  deriving DecidableEq, Repr

/-- The bytes that the marked optional fields take (R191). -/
def markedWidth (marks : Byte) : Nat :=
  (if marks.getLsbD 0 then 14 else 0) + (if marks.getLsbD 1 then 5 else 0) + (if marks.getLsbD 2 then 1 else 0)

/-- Optional fields, text length and text read from the bytes after the presence marks; none when the bytes are not of the
length that the marks and the text length call for (R85, R191, R194). -/
def readMarked (marks : Byte) (rest : List Byte) : Option RawNote :=
  let opt := markedWidth marks
  let text := rest.drop (opt + 1)
  if opt < rest.length && text.length == field rest opt 1 then
    let posAt := if marks.getLsbD 0 then 14 else 0
    let trackAt := posAt + (if marks.getLsbD 1 then 5 else 0)
    some
      { ref := if marks.getLsbD 0 then some (readLabel (rest.take 14)) else none
        pos := if marks.getLsbD 1 then some (field rest posAt 5) else none
        track := if marks.getLsbD 2 then some (field rest trackAt 1) else none
        text := text }
  else none

/-- The optional fields and text of a NOTE payload (R191). -/
def readNotePayload (p : List Byte) : Option RawNote :=
  match p.drop 5 with
  | [] => none
  | marks :: rest => readMarked marks rest

/-- The kind byte of a link frame (R191). -/
def TxFrame.code : TxFrame → Nat
  | .status => 1
  | .note _ => 2
  | .noteRequest .. => 3
  | .noteGone .. => 4

/-- The whole frame as it is driven: preamble, kind, sender, length, payload, check (R85). -/
def frameBytes (kind sender : Byte) (payload : List Byte) : List Byte :=
  let body := kind :: sender :: byte payload.length :: payload
  byte Config.preamble :: body ++ be 2 (crc body).toNat

/-! ## Card blocks (R192) -/

/-- The 16 header bytes and the payload of a block, zero-filled to 4,096 bytes (R192). -/
def cardBlock (header payload : List Byte) : List Byte := padTo Config.blockBytes (padTo 16 header ++ payload)

/-- A frame of an audio block: its track words in track order, then its mix word (R192). -/
def ringFrameBytes (f : RingFrame) : List Byte :=
  f.words.flatMap wordBytes ++ (f.mix.map (signedBytes 3)).getD []

/-- The flags byte of a take index record (R192). -/
def flagsByte (f : TakeFlags) : Nat :=
  (if f.follower then 128 else 0) + (if f.merged then 64 else 0) + (if f.lateJoin then 32 else 0) +
    (if f.originLost then 16 else 0) + (if f.forcedStop then 8 else 0) + (if f.circled then 4 else 0) +
    (if f.falseStart then 2 else 0) + (if f.wild then 1 else 0)

/-- A per-track entry of a take index record, 31 bytes (R192). -/
def tallyBytes (t : TrackTally) : List Byte :=
  be 4 t.clips ++ optional 5 (t.firstClip.map (be 5)) ++ be 4 t.dropouts ++
    be 1 ((t.name.map List.length).getD 255) ++ padTo 16 (t.name.getD [])

/-- The enabled tracks as 2 bytes, bit 15 for track 1 (R192). -/
def enabledMask (t : Take) : Nat :=
  ((List.finRange 16).map fun i => if t.tracks[i].isSome then 2 ^ (15 - i.val) else 0).sum

/-- The 915 bytes of a take index record (R192), as READ SLOT returns them too, with E and Z written as zero when absent
(R193). -/
def indexBytes (words : Nat) (t : Take) : List Byte :=
  be 1 3 ++ be 1 words ++ be 4 t.serial ++ be 5 t.sr ++ be 5 (t.z.getD 0) ++ labelBytes t.label ++ be 1 t.origin ++
    be 1 (flagsByte t.flags) ++ be 1 t.former.length ++ padTo 28 (t.former.flatMap labelBytes) ++ be 5 (t.e.getD 0) ++
    be 4 t.postRoll ++ be 5 t.h ++ be 5 t.w ++ be 5 t.g ++ be 1 t.gaps.length ++ flagByte t.gapsMerged ++
    padTo 160 (t.gaps.flatMap fun x => be 5 x.first ++ be 5 x.count) ++ be 2 (enabledMask t) ++
    padTo 496 (((List.finRange 16).filterMap fun i => t.tracks[i]).flatMap tallyBytes) ++ be 1 t.noteRefs.length ++
    padTo 160 (t.noteRefs.flatMap fun n => be 1 n.originator ++ be 2 n.run ++ be 2 n.seq) ++
    optional 4 (t.firstBlock.map (be 4)) ++ be 4 t.blocks

/-- A note record of a note block: the originator, then the fields of a NOTE payload (R192). -/
def noteRecord (n : Note) : List Byte := be 1 n.id.originator ++ noteBytes n

/-- The 4,096 bytes a write puts on the media port (R192). -/
def Content.image : Content → List Byte
  | .audio _ words serial first seq frames =>
    cardBlock (be 1 1 ++ be 1 words ++ be 4 serial ++ be 5 first ++ be 2 frames.length ++ be 3 seq)
      (frames.flatMap ringFrameBytes)
  | .index _ words t => padTo Config.blockBytes (indexBytes words t)
  | .notes l => cardBlock (be 1 2 ++ be 1 l.length) (l.flatMap noteRecord)
  | .fault addrs unlisted => cardBlock (be 1 4 ++ be 1 addrs.length ++ be 2 unlisted) (addrs.flatMap (be 4))

/-- The media port while a write is in flight: the address and the 4,096 bytes (R164, R192). -/
def mediaPort (s : State) : Option (Nat × List Byte) := s.writer.inFlight.map fun w => (w.addr, w.content.image)

/-! ## Responses (R193) -/

/-- The response message a response read clocks out: the held response, or the empty response (R177, R193). -/
def responseBytes : Option Response → List Byte
  | some r => be 1 r.code.code ++ be 2 r.data.length ++ r.data
  | none => [255#8, 0#8, 0#8]

end Sys2Proof.Machine
end

