-- ==== Sys2Proof/Machine/FrontEnd.lean ====
section
/-! DEFINITION. The track front end: Stage 1 (reading selection), Stage 2 (trim, normalising, rounding), Stage 3 (conversion to
integer), clips, and the conversion of a whole frame (chapter 1). -/

namespace Sys2Proof.Machine

open Sys2Proof

/-- The value of a field word as a whole number of units of 2^-45 (R3, R146). Exact zero and the absent code count as 0, and
the fraction of a word with e = 0 is ignored. -/
def wordUnits (v : FieldWord) : Int :=
  if v.exponent = 0 then 0
  else
    let mag : Nat := (262144 + v.fraction.toNat) * 2 ^ (v.exponent.toNat - 1)
    if v.sign then -(mag : Int) else (mag : Int)

/-- A stored word is the absent code: e = 0 and s = 1 (R3). -/
def wordIsAbsent (v : FieldWord) : Bool := v.exponent == 0 && v.sign

/-- The field word with this sign, exponent and significand M, 262,144 ≤ M < 524,288 (R13). -/
def packWord (neg : Bool) (e m : Nat) : FieldWord :=
  { sign := neg, exponent := BitVec.ofNat 5 e, fraction := BitVec.ofNat 18 (m - 262144) }

/-- The significand of R13 for a nonzero N of b binary digits, rounded under the mode (R14). -/
def significand (mode : Rounding) (n b : Nat) : Nat :=
  if b ≤ 19 then n * 2 ^ (19 - b)
  else
    let m := n / 2 ^ (b - 19)
    if mode = .round ∧ 2 ^ (b - 20) ≤ n % 2 ^ (b - 19) then m + 1 else m

/-- Stage 2: the stored word for a product of magnitude N × 2^-(35 + path exponent) (R12 to R16). The exponent of R13 is kept
with 64 added so that it stays a natural number until the flush is decided. -/
def stage2 (mode : Rounding) (neg : Bool) (n pathExp : Nat) : FieldWord :=
  if n = 0 then FieldWord.zero
  else
    let b := Nat.log2 n + 1
    let m := significand mode n b
    let carried := m == 524288
    let e64 := 64 + 11 + b + (if carried then 1 else 0) - 19 - pathExp
    if e64 ≤ 64 then FieldWord.zero
    else packWord neg (e64 - 64) (if carried then 262144 else m)

/-- The magnitude of a reading, with |-8,388,608| = 8,388,608 (R9). -/
def readingMag (x : BitVec 24) : Nat := x.toInt.natAbs

/-- A reading at either end of its range is an input clip (R20). -/
def isClipReading (x : BitVec 24) : Bool := x.toInt == -8388608 || x.toInt == 8388607

/-- The reading Stage 1 uses for a DUAL track, its path exponent, and the path state and quiet count after the frame (R9). -/
def dualPath (t : Track) (r : Reading) : BitVec 24 × Nat × PathState × Nat :=
  match t.path with
  | .high =>
    if readingMag r.h < Config.switchDown then (r.h, t.k, .high, t.quiet) else (r.l, 0, .low, 0)
  | .low =>
    if readingMag r.h < Config.quietLevel then
      if t.quiet + 1 < Config.quietFrames then (r.l, 0, .low, t.quiet + 1) else (r.h, t.k, .high, 0)
    else (r.l, 0, .low, 0)

/-- What one track gives to a frame: the track after it, its stored word if it is enabled, and whether the reading used was
an input clip. -/
structure Converted where
  track : Track
  word : Option FieldWord
  clip : Bool
  deriving DecidableEq, Repr

/-- Stage 2 over the reading used (R12). -/
def trimmed (mode : Rounding) (t : Track) (x : BitVec 24) (pathExp : Nat) : FieldWord :=
  stage2 mode (decide (x.toInt < 0)) (readingMag x * t.trim) pathExp

/-- The conversion of one track for a frame in RUN (R4, R6 to R9, R20). -/
def convertTrack (mode : Rounding) (t : Track) (r : Reading) : Converted :=
  match t.kind with
  | .off => { track := t, word := none, clip := false }
  | .single => { track := t, word := some (trimmed mode t r.x 0), clip := isClipReading r.x }
  | .receiver =>
    if r.valid then { track := t, word := some (trimmed mode t r.x 0), clip := isClipReading r.x }
    else { track := t, word := some FieldWord.absent, clip := false }
  | .dual =>
    let (x, pathExp, path, quiet) := dualPath t r
    { track := { t with path := path, quiet := quiet }, word := some (trimmed mode t x pathExp), clip := isClipReading x }

/-- The conversions of all 16 tracks of a frame. -/
def convertAll (s : State) (f : FrameIn) : Vector Converted 16 :=
  Vector.ofFn fun i => convertTrack s.front.rounding s.front.tracks[i] f[i]

/-- The field words of the enabled tracks in track order (R6). -/
def frameWords (conv : Vector Converted 16) : List FieldWord :=
  (List.finRange 16).filterMap fun i => conv[i].word

/-- The clip set of the frame, as track numbers 1 to 16 in track order (R6, R20). -/
def frameClips (conv : Vector Converted 16) : List Nat :=
  ((List.finRange 16).filter fun i => conv[i].clip).map fun i => i.val + 1

/-- Stage 3 over an exact sum held in units of 2^-57: the integer, and whether its clamp changed it (R18, R19). -/
def stage3 (mode : Rounding) (sum : Int) : Int × Bool :=
  let mag := sum.natAbs
  let q := mag / 2 ^ 34
  let rounded : Nat := if mode = .round ∧ 2 ^ 33 ≤ mag % 2 ^ 34 then q + 1 else q
  let v : Int := if sum < 0 then -(rounded : Int) else (rounded : Int)
  if v > 8388607 then (8388607, true)
  else if v < -8388608 then (-8388608, true)
  else (v, false)

/-- The tracks after the frame's conversion, with its track clips offered to the station clip flag: the source is the
lowest-numbered track that clipped (R6, R22). -/
def convertFrame (conv : Vector Converted 16) (s : State) : State :=
  let s1 := { s with front := { s.front with tracks := Vector.ofFn fun i => conv[i].track } }
  match frameClips conv with
  | [] => s1
  | t :: _ => offerClip (.track t) ((openTake s).map Take.serial) s.counter.newest s1

end Sys2Proof.Machine
end

