-- ==== Sys2Proof/Machine/Mix.lean ====
section
/-! DEFINITION. The dialogue mix unit: the mix word, running peaks, the block end with gates, targets and envelopes (chapter 8). -/

namespace Sys2Proof.Machine

open Sys2Proof

/-- The exact sum of the mix in units of 2^-57: each mix-enabled track's word times its gain in force; the absent code and
exact zero count as 0 (R146). -/
def mixSum (s : State) (conv : Vector Converted 16) : Int :=
  ((List.finRange 16).map fun i =>
    if mixEnabled s i then ((conv[i].word.map wordUnits).getD 0) * (s.mixer.tracks[i].gain : Int) else 0).sum

/-- The magnitude of a track's word in this frame, in units of 2^-45 (R148). -/
def wordMag (conv : Vector Converted 16) (i : Fin 16) : Nat := ((conv[i].word.map wordUnits).getD 0).natAbs

/-- The running peaks raised by this frame, for the mix-enabled tracks (R145, R148). -/
def raisePeaks (conv : Vector Converted 16) (s : State) : State :=
  { s with
    mixer :=
      { s.mixer with
        tracks := Vector.ofFn fun i =>
          if mixEnabled s i then
            { s.mixer.tracks[i] with peak := max s.mixer.tracks[i].peak (wordMag conv i) }
          else s.mixer.tracks[i] } }

/-- A threshold code c stands for c × 2^-16, which is c × 2^29 units of 2^-45 (R148). -/
def thresholdUnits (code : Nat) : Nat := code * 2 ^ 29

/-- The gate and hold count of a track after a block end (R149). -/
def gateUpdate (m : MixTrack) : MixTrack :=
  match m.gate with
  | .closed =>
    if thresholdUnits m.settings.openThreshold ≤ m.peak then { m with gate := .opened, hold := 0 }
    else { m with gate := .closed, hold := 0 }
  | .opened =>
    if thresholdUnits m.settings.closeThreshold ≤ m.peak then { m with gate := .opened, hold := 0 }
    else if m.hold + 1 ≤ m.settings.closeHold then { m with gate := .opened, hold := m.hold + 1 }
    else { m with gate := .closed, hold := 0 }

/-- The envelope state chosen by the gate, before the gain move (R151, first table). -/
def envelopeByGate (m : MixTrack) : Envelope :=
  match m.envelope, m.gate with
  | .closed, .opened => .attack
  | .release, .opened => .attack
  | .attack, .closed => .release
  | .decay, .closed => .release
  | .held, .closed => .release
  | e, _ => e

/-- The gain move of the envelope's state toward the target (R151, second table). -/
def gainMove (target : Nat) (m : MixTrack) : MixTrack :=
  match m.envelope with
  | .closed => { m with gain := 0 }
  | .attack =>
    if Config.fullGain ≤ m.gain + m.settings.attack then { m with gain := Config.fullGain, envelope := .decay }
    else { m with gain := m.gain + m.settings.attack }
  | .decay =>
    if m.gain ≤ target + m.settings.decay then { m with gain := target, envelope := .held }
    else { m with gain := m.gain - m.settings.decay }
  | .held =>
    if m.gain < target then { m with gain := min target (m.gain + m.settings.attack) }
    else if target < m.gain then { m with gain := max target (m.gain - m.settings.decay) }
    else m
  | .release =>
    if m.gain ≤ m.settings.release then { m with gain := 0, envelope := .closed }
    else { m with gain := m.gain - m.settings.release }

/-- A track and its gate after the block end's change of state and gain move (R151). -/
def envelopeUpdate (target : Nat) (m : MixTrack) : MixTrack :=
  gainMove target { m with envelope := envelopeByGate m }

/-- A track number 1 to 16 as a track index. -/
def trackIndex (p : Nat) : Option (Fin 16) := if h : 1 ≤ p ∧ p ≤ 16 then some ⟨p - 1, by omega⟩ else none

/-- Track i is ducked at this block end, `gated` being the mix tracks with their gates already updated (R150). -/
def isDucked (s : State) (gated : Vector MixTrack 16) (i : Fin 16) : Bool :=
  match s.front.tracks[i].partner.bind trackIndex with
  | none => false
  | some p => mixEnabled s p && gated[p].gate == .opened && decide (gated[i].peak < gated[p].peak)

/-- The target level of track i (R150). -/
def targetLevel (s : State) (gated : Vector MixTrack 16) (i : Fin 16) : Nat :=
  if isDucked s gated i then gated[i].settings.duck else gated[i].settings.sustain

/-- The gates of all mix-enabled tracks updated from their block peaks (section 8.4). -/
def gateAll (s : State) : Vector MixTrack 16 :=
  Vector.ofFn fun i => if mixEnabled s i then gateUpdate s.mixer.tracks[i] else s.mixer.tracks[i]

/-- The block end: every gate first, then each track's target and envelope; the running peaks return to 0 (R148 to R151). -/
def blockEndUpdate (s : State) : State :=
  let gated := gateAll s
  { s with
    mixer :=
      { s.mixer with
        tracks := Vector.ofFn fun i =>
          if mixEnabled s i then { envelopeUpdate (targetLevel s gated i) gated[i] with peak := 0 } else gated[i] } }

/-- The block frame count raised by a frame that the mix counts; the block-end frame returns it to 0 and makes the block end
(R144, R145). -/
def countBlockFrame (s : State) : State :=
  if s.mixer.blockCount + 1 < Config.mixBlock then
    { s with mixer := { s.mixer with blockCount := s.mixer.blockCount + 1 } }
  else blockEndUpdate { s with mixer := { s.mixer with blockCount := 0 } }

/-- A frame's mix word is sent on the mix output port, as a 24-bit two's complement integer (R147, R190). -/
def sendMix (v : Int) (s : State) : State := { s with mixer := { s.mixer with output := some (BitVec.ofInt 24 v) } }

/-- The 24 bits that the mix output port carries for one frame, the most significant first (R190). -/
def portBits (v : BitVec 24) : List Bool := (List.range 24).map v.getMsbD

/-- The station mix clip count raised, and the clip offered to the station clip flag with source MIX (R19, R155). -/
def mixClip (s : State) : State :=
  offerClip .mix ((openTake s).map Take.serial) s.counter.newest
    { s with mixer := { s.mixer with clips := satAdd Config.max32 s.mixer.clips 1 } }

/-- The mix of one frame in RUN: the mix word with the gains in force, then the peaks, then the block count and the block end
(R145). With the mix disabled there is no mix word and the port sends 0 (R143, R147). -/
def mixFrame (conv : Vector Converted 16) (s : State) : State × Option Int :=
  if mixIsEnabled s then
    let r := stage3 s.front.rounding (mixSum s conv)
    let s1 := if r.2 then mixClip s else s
    (sendMix r.1 (countBlockFrame (raisePeaks conv s1)), some r.1)
  else (sendMix 0 s, none)

/-- CAPTURE RESTART in the mix unit (R156). -/
def restartMix (s : State) : State :=
  { s with
    mixer :=
      { s.mixer with
        blockCount := 0
        tracks := Vector.ofFn fun i =>
          { s.mixer.tracks[i] with gate := .closed, hold := 0, envelope := .closed, gain := 0, peak := 0 } } }

end Sys2Proof.Machine
end

