-- ==== Sys2Proof/Machine/Rings.lean ====
section
/-! DEFINITION. The pre-roll ring: protection, the answers about a position, the oldest-available lookup, appending and
discarding, emptying (chapter 3). -/

namespace Sys2Proof.Machine

open Sys2Proof

/-- The place of position p in a take, counted forward from its requested start Sr, which stands at 0. A range of half a day, the
longest that R68 leaves, holds its start and its end (R1). -/
def placeIn (D : Nat) (t : Take) (p : Nat) : Nat := posSub D p t.sr

/-- The range of a slot covers position p: from Sr to the range end of its state (R43). A position that R1 counts as earlier
than Sr is taken so whatever the take has run: DESIGN CHOICE, notes/assumptions/27.md. -/
def inRange (D postRoll : Nat) (t : Take) (p : Nat) : Bool :=
  !isEarlier D p t.sr &&
    match t.phase with
    | .rolling => true
    | .post => placeIn D t p ≤ placeIn D t (posAdd D (t.e.getD t.sr) postRoll)
    | .closing => placeIn D t p ≤ placeIn D t (t.z.getD t.sr)

/-- The range of a slot covers the arriving position p: always for a ROLLING slot, up to E + Q for a POST slot, from Sr to Z for a
CLOSING one (R45). -/
def coversArrival (D postRoll : Nat) (t : Take) (p : Nat) : Bool :=
  match t.phase with
  | .rolling => true
  | .post => !isLater D p (posAdd D (t.e.getD t.sr) postRoll)
  | .closing => inRange D postRoll t p

/-- The slot still needs the frame at p: p lies in its range and is not earlier than its next-to-write position (R43). -/
def slotNeeds (D postRoll : Nat) (t : Option Take) (p : Nat) : Bool :=
  match t with
  | none => false
  | some t => inRange D postRoll t p && decide (placeIn D t t.next ≤ placeIn D t p)

/-- A frame at position p is protected (R43). -/
def isProtected (s : State) (p : Nat) : Bool :=
  slotNeeds s.day s.takes.postRoll s.takes.slots[0] p || slotNeeds s.day s.takes.postRoll s.takes.slots[1] p ||
    slotNeeds s.day s.takes.postRoll s.takes.slots[2] p

/-- The protected count (R50). -/
def protectedCount (s : State) : Nat := s.ring.frames.countP fun f => isProtected s f.pos

/-- The ring's answers about one position (R47). -/
inductive RingAnswer where
  | held (f : RingFrame)
  | hole
  | gone
  | notArrived
  deriving DecidableEq, Repr

/-- The held frame that carries p. -/
def heldAt (s : State) (p : Nat) : Option RingFrame := s.ring.frames.find? fun f => f.pos == p

/-- The ring's answer about position p (R47). Where two rows of R47's table apply, HELD is answered before NOT ARRIVED, and NOT
ARRIVED before GONE and HOLE: DESIGN CHOICE, notes/assumptions/19.md. -/
def ringAnswer (s : State) (p : Nat) : RingAnswer :=
  match heldAt s p with
  | some f => .held f
  | none =>
    if isLater s.day p s.counter.newest then .notArrived
    else
      match s.ring.frames with
      | [] => .gone
      | o :: _ => if isEarlier s.day p o.pos then .gone else .hole

/-- The answers of the oldest-available lookup (R48). -/
inductive Lookup where
  | notArrived
  | held (o : Nat)
  | none (next : Nat)
  deriving DecidableEq, Repr

/-- Whether a lookup is taken after the ring has taken the newest frame, or inside its arrival, before the ring takes it (R49). -/
inductive RingView where
  | afterFrame | beforeFrame
  deriving DecidableEq, Repr

/-- The first position the ring could still supply: that of the frame that has yet to reach it (R48 step 3, R49). -/
def firstUnseen (v : RingView) (s : State) : Nat :=
  match v with
  | .afterFrame => posAdd s.day s.counter.newest 1
  | .beforeFrame => s.counter.newest

/-- Position q lies from p up to the newest position (R48 step 2). -/
def fromUpToNewest (s : State) (p q : Nat) : Bool := decide (posSub s.day q p ≤ posSub s.day s.counter.newest p)

/-- The oldest-available lookup for a requested position (R48, R49). -/
def lookup (v : RingView) (s : State) (p : Nat) : Lookup :=
  if isLater s.day p s.counter.newest then .notArrived
  else
    match s.ring.frames.find? fun f => fromUpToNewest s p f.pos with
    | some f => .held f.pos
    | none => .none (firstUnseen v s)

/-- The ring emptied; the discard count is kept (R51). -/
def emptyRing (s : State) : State := { s with ring := { s.ring with frames := [] } }

/-- What the ring does with an arriving frame (R44). -/
inductive RingAction where
  | append | replaceOldest | overrun
  deriving DecidableEq, Repr

/-- The ring's action on an arrival, by its held count and its oldest frame alone (R44). -/
def ringAction (s : State) : RingAction :=
  if s.ring.frames.length < Config.ringCapacity then .append
  else
    match s.ring.frames with
    | [] => .append
    | o :: _ => if isProtected s o.pos then .overrun else .replaceOldest

end Sys2Proof.Machine
end

