-- ==== Sys2Proof/Machine/Takes.lean ====
section
/-! DEFINITION. The take engine's shared operations: starting a slot, stops, cuts, closing, gaps and their list, the forced
stop, local requests, and what a frame's arrival does to the slots and the pending start (chapter 4). -/

namespace Sys2Proof.Machine

open Sys2Proof

/-! ## The gap list (R74, R75) -/

/-- A run joined to an entry, or to two, of a gap list whose entries carry no merged flag; none when it adjoins no entry
(R75 step 1). -/
def coalesce (D first count : Nat) : List GapEntry → Option (List GapEntry)
  | [] => none
  | x :: rest =>
    if posAdd D x.first x.count = first then
      match rest with
      | [] => some [{ first := x.first, count := x.count + count }]
      | y :: rest' =>
        if posAdd D first count = y.first then some ({ first := x.first, count := x.count + count + y.count } :: rest')
        else some ({ first := x.first, count := x.count + count } :: y :: rest')
    else if posAdd D first count = x.first then some ({ first := first, count := count + x.count } :: rest)
    else (coalesce D first count rest).map fun r => x :: r

/-- A run put at its place in position order as an entry of its own (R75 step 2). Of two positions exactly half a day apart each
is later than the other (R1), and the run put in stands first: DESIGN CHOICE, notes/assumptions/30.md. -/
def insertEntry (D first count : Nat) : List GapEntry → List GapEntry
  | [] => [{ first := first, count := count }]
  | x :: rest =>
    if isLater D x.first first then { first := first, count := count } :: x :: rest
    else x :: insertEntry D first count rest

/-- A run's count added to the last entry (R75 step 3). -/
def foldLast (count : Nat) : List GapEntry → List GapEntry
  | [] => []
  | [x] => [{ x with count := x.count + count }]
  | x :: rest => x :: foldLast count rest

/-- The entries that take a run by adjacency: all but a last entry that carries the merged flag (R75). -/
def joinable (gaps : List GapEntry) (merged : Bool) : List GapEntry := if merged then gaps.dropLast else gaps

/-- The merged entry, which stays last (R75). -/
def mergedTail (gaps : List GapEntry) (merged : Bool) : List GapEntry := if merged then gaps.drop (gaps.length - 1) else []

/-- A run of `count` positions from `first` inserted into a take's gap list (R75). -/
def insertRun (D first count : Nat) (t : Take) : Take :=
  if count = 0 then t
  else
    match coalesce D first count (joinable t.gaps t.gapsMerged) with
    | some l => { t with gaps := l ++ mergedTail t.gaps t.gapsMerged }
    | none =>
      if t.gaps.length < Config.maxGapEntries && !t.gapsMerged then { t with gaps := insertEntry D first count t.gaps }
      else { t with gaps := foldLast count t.gaps, gapsMerged := true }

/-- The gap report of R76 at the take's next-to-write position: G and the next-to-write position advance by n. For a run of
holes only the positions earlier than the watch position are inserted, for held frames not written all of them. -/
def gapReport (D : Nat) (holes : Bool) (n : Nat) (t : Take) : Take :=
  let inserted :=
    if holes then
      if isEarlier D t.next t.watch then min n (countAfter D t.next t.watch) else 0
    else n
  let t1 := insertRun D t.next inserted t
  { t1 with g := t.g + n, next := posAdd D t.next n }

/-! ## Closing (R72, R110) -/

/-- An identity appended to the closed-identity list, the oldest of 4 removed first (R110). -/
def appendClosed (x : Identity) (l : List Identity) : List Identity :=
  (if l.length < Config.maxClosed then l else l.drop (l.length + 1 - Config.maxClosed)) ++ [x]

/-- The take number after this one, 999 followed by 1 (R72). -/
def nextNumber (n : Nat) : Nat := if n < 999 then n + 1 else 1

/-- The slot's take replaced by t, which enters CLOSING: the next take number and the current scene follow its label, and its
identity joins the closed-identity list (R72, R110). -/
def closeSlot (i : Fin 3) (t : Take) (s : State) : State :=
  setSlot i (some { t with phase := .closing })
    { s with
      takes :=
        { s.takes with
          nextTake := nextNumber t.label.number
          scene := t.label.scene
          closed := appendClosed t.identity s.takes.closed } }

/-! ## Stops, post-roll and the cut (R68 to R71) -/

/-- A stop applied at position e to the ROLLING take t of slot i (R68). -/
def stopTake (i : Fin 3) (t : Take) (e : Nat) (s : State) : State :=
  let D := s.day
  let newest := s.counter.newest
  if isLater D e newest then setSlot i (some { t with e := some e }) s
  else
    let taken := countAfter D e newest
    if taken < s.takes.postRoll then setSlot i (some { t with e := some e, phase := .post, postRoll := taken }) s
    else
      let z := laterOf D (posAdd D e s.takes.postRoll) newest
      closeSlot i { t with e := some e, z := some z, postRoll := countAfter D e z } s

/-- A stop applied to a slot: it changes nothing unless the slot is ROLLING (R68). -/
def applyStop (i : Fin 3) (e : Nat) (s : State) : State :=
  match s.takes.slots[i] with
  | none => s
  | some t => if t.phase = .rolling then stopTake i t e s else s

/-- A POST slot's post-roll cut at position c (R71). -/
def cutPostRoll (i : Fin 3) (c : Nat) (s : State) : State :=
  match s.takes.slots[i] with
  | none => s
  | some t =>
    if t.phase = .post then
      let D := s.day
      let e := t.e.getD t.sr
      let last := posAdd D e s.takes.postRoll
      let cut := if isEarlier D c e then e else if isLater D c last then last else c
      let z := laterOf D cut s.counter.newest
      closeSlot i { t with z := some z, postRoll := countAfter D e z } s
    else s

/-- The forced stop of the open take as the card becomes FULL, and the removal of the pending start (R79). -/
def forcedStop (s : State) : State :=
  let s1 :=
    match openSlot s with
    | none => s
    | some i =>
      match s.takes.slots[i] with
      | none => s
      | some t =>
        let n := s.counter.newest
        let flags := { t.flags with forcedStop := true }
        if t.phase = TakePhase.rolling then closeSlot i { t with e := some n, z := some n, postRoll := 0, flags := flags } s
        else closeSlot i { t with z := some n, postRoll := countAfter s.day (t.e.getD t.sr) n, flags := flags } s
  { s1 with takes := { s1.takes with pendingStart := none } }

/-! ## Starting a slot (R57, R67) -/

/-- The serial after this one: from 4,294,967,295 the counter goes to 1 (R57). -/
def nextSerial (n : Nat) : Nat := if n < Config.max32 then n + 1 else 1

/-- Head shortfall and next-to-write position of a start at p, from the lookup (R67 step 2). -/
def headOf (v : RingView) (s : State) (p : Nat) : Nat × Nat :=
  match lookup v s p with
  | .held o => (countAfter s.day p o, o)
  | .none next => (countAfter s.day p next, next)
  | .notArrived => (0, p)

/-- The per-track entries of a new take: one for each enabled track (R67 step 6). -/
def freshTallies (s : State) : Vector (Option TrackTally) 16 :=
  Vector.ofFn fun i => if s.front.tracks[i].kind = .off then none else some {}

/-- The record of a take started at p (R67). Its watch position is the first whose frame has yet to reach the ring: the position
after the newest, and inside an arrival the arriving frame's (R49, R74): DEDUCED, notes/assumptions/18.md. -/
def freshTake (v : RingView) (label : Label) (origin p : Nat) (flags : TakeFlags) (s : State) : Take :=
  { phase := .rolling, serial := nextSerial s.takes.serial, label := label, former := [], origin := origin, sr := p,
    e := none, z := none, postRoll := 0, h := (headOf v s p).1, next := (headOf v s p).2,
    watch := firstUnseen v s, w := 0, g := 0, gaps := [], gapsMerged := false, flags := flags,
    tracks := freshTallies s, noteRefs := [], firstBlock := none, blocks := 0, indexIssued := false }

/-- A slot started with this label, origin, requested start and flags, in the lowest-numbered EMPTY slot; TAKE STARTED is
raised, and ORIGIN LOST when the origin is an ABSENT peer (R67, R121). Without an EMPTY slot nothing changes: the callers
make a pending start instead. -/
def startSlot (v : RingView) (label : Label) (origin p : Nat) (flags : TakeFlags) (s : State) : State :=
  match emptySlot s with
  | none => s
  | some i =>
    let s1 :=
      raise .takeStarted
        (setSlot i (some (freshTake v label origin p flags s))
          { s with takes := { s.takes with serial := nextSerial s.takes.serial } })
    if peerIsAbsent s origin then markOriginLost i s1 else s1

/-- The pending start record made (R59). -/
def makePending (p : PendingStart) (s : State) : State := { s with takes := { s.takes with pendingStart := some p } }

/-- The pending start removed (R59). -/
def dropPending (s : State) : State := { s with takes := { s.takes with pendingStart := none } }

/-- A pending start may be promoted: its Reached is yes and some slot is EMPTY (R60). -/
def promotionDue (s : State) : Bool :=
  match s.takes.pendingStart with
  | some p => p.reached && (emptySlot s).isSome
  | none => false

/-- The promotion test of R60: when it passes, the record is removed and a slot is started from it, a follower when its source
is PEER (R60, R120). -/
def promote (v : RingView) (s : State) : State :=
  match s.takes.pendingStart with
  | some p =>
    if p.reached && (emptySlot s).isSome then
      startSlot v p.label p.origin p.start { follower := p.source == .peer } (dropPending s)
    else s
  | none => s

/-! ## Local requests (R61 to R66) -/

/-- A local start in IDLE: the values of R62 step 2, and the slot or the pending start of step 3. -/
def startLocal (v : RingView) (src : Source) (s : State) : State :=
  let p := posSub s.day s.counter.newest s.takes.preRoll
  let label : Label := { scene := s.takes.scene, number := s.takes.nextTake }
  if (emptySlot s).isSome then startSlot v label s.port.station.val p {} s
  else makePending { label := label, origin := s.port.station.val, start := p, source := src, reached := true } s

/-- A local START: the response a command is given, and the state after it (R61 to R64). -/
def localStart (v : RingView) (src : Source) (s : State) : ResponseCode × State :=
  match enginePhase s with
  | .idle => if cardFull s then (.refused, raise .startRefused s) else (.ok, startLocal v src s)
  | .post =>
    if cardFull s then (.refused, raise .startRefused s)
    else
      match openSlot s with
      | some i => (.ok, startLocal v src (cutPostRoll i s.counter.newest s))
      | none => (.ok, startLocal v src s)
  | .rolling => (.already, s)
  | .startPending => (.already, s)

/-- A local STOP: the response a command is given, and the state after it (R61, R65). -/
def localStop (s : State) : ResponseCode × State :=
  match enginePhase s with
  | .rolling =>
    match openSlot s with
    | some i => (.ok, applyStop i s.counter.newest s)
    | none => (.ok, s)
  | .startPending => (.ok, dropPending s)
  | .post => (.already, s)
  | .idle => (.already, s)

/-- A local request of the cue's kind with source CUE, made inside the arrival, before the frame is converted (R39). -/
def cueRequest (k : CueKind) (s : State) : State :=
  match k with
  | .start => (localStart .beforeFrame .cue s).2
  | .stop => (localStop s).2

/-! ## What an arrival does to the slots and the pending start -/

/-- The half-day stop of a ROLLING slot is due at the newest position (R68). -/
def halfDayDue (s : State) (t : Take) : Bool :=
  t.phase == .rolling && s.counter.newest == halfDayLimit s.day t.sr s.takes.postRoll

/-- The awaited stop of a ROLLING slot is due at the newest position (R69). -/
def awaitedDue (s : State) (t : Take) : Bool := t.phase == .rolling && t.e == some s.counter.newest

/-- The frame that has just arrived is the last of a POST slot's post-roll (R70). -/
def postRollDue (s : State) (t : Take) : Bool := t.phase == .post && s.takes.postRoll ≤ t.postRoll + 1

/-- One slot at the arrival of the frame at the newest position: the half-day stop with FORCED STOP (R68), the awaited stop
(R69), or one frame of post-roll (R70), by the state the slot had when the frame arrived. -/
def arriveSlot (i : Fin 3) (s : State) : State :=
  match s.takes.slots[i] with
  | none => s
  | some t =>
    if halfDayDue s t then stopTake i { t with flags := { t.flags with forcedStop := true } } s.counter.newest s
    else if awaitedDue s t then stopTake i t s.counter.newest s
    else if t.phase = .post then
      if s.takes.postRoll ≤ t.postRoll + 1 then
        closeSlot i
          { t with postRoll := t.postRoll + 1, z := some (posAdd s.day (t.e.getD t.sr) s.takes.postRoll) } s
      else setSlot i (some { t with postRoll := t.postRoll + 1 }) s
    else s

/-- The pending start's half-day limit is due at the newest position (R60). -/
def pendingLimitDue (s : State) (p : PendingStart) : Bool :=
  p.reached && s.counter.newest == halfDayLimit s.day p.start s.takes.postRoll

/-- The pending start at the arrival of a frame: a Reached one is removed at its half-day limit (R60); Reached is set at the
frame at S (R59). -/
def arrivePending (s : State) : State :=
  match s.takes.pendingStart with
  | none => s
  | some p =>
    if pendingLimitDue s p then dropPending s
    else makePending { p with reached := p.reached || p.start == s.counter.newest } s

/-- The promotion test at an arrival, before the ring takes the frame (R60). R46 lets the ring take the arrival first: then the
test is left until after it. Which of the two comes first is a free value: DESIGN CHOICE, notes/assumptions/18.md. -/
def promoteAtStamp (s : State) : State :=
  if promotionDue s then
    if Config.ringTakesFirst s.orders then { s with orders := s.orders + 1 }
    else promote .beforeFrame { s with orders := s.orders + 1 }
  else s

/-- What the take engine does at the stamping of a frame, before the frame is handed on. DEDUCED from R69 ('at the frame's
stamping'), notes/assumptions/5.md. -/
def takeArrival (s : State) : State := arrivePending (arriveSlot 2 (arriveSlot 1 (arriveSlot 0 s)))

/-- The ring reports a discarded position to one slot: it is inserted as a run of one position when the slot's range covers
it (R45, R74). -/
def reportDiscard (i : Fin 3) (p : Nat) (s : State) : State :=
  modifySlot i (fun t => if coversArrival s.day s.takes.postRoll t p then insertRun s.day p 1 t else t) s

/-- An overrun: the arriving frame is discarded, the discard count rises, OVERRUN is raised and the position is reported to
every slot whose range covers it (R45). -/
def overrun (p : Nat) (s : State) : State :=
  reportDiscard 2 p
    (reportDiscard 1 p
      (reportDiscard 0 p
        (raise .overrun { s with ring := { s.ring with discards := satAdd Config.max32 s.ring.discards 1 } })))

/-- A frame offered to the ring (R44). -/
def offerFrame (f : RingFrame) (s : State) : State :=
  match ringAction s with
  | .append => { s with ring := { s.ring with frames := s.ring.frames ++ [f] } }
  | .replaceOldest => { s with ring := { s.ring with frames := s.ring.frames.drop 1 ++ [f] } }
  | .overrun => overrun f.pos s

end Sys2Proof.Machine
end

