-- ==== Sys2Proof/Machine/LinkOps.lean ====
section
/-! DEFINITION. The cart link controller's shared operations: the STATUS a station assembles, the transmit queue, the
transmitter, STATUS requests, the receiver, station clash, and the peer table (chapter 5). -/

namespace Sys2Proof.Machine

open Sys2Proof

/-! ## The STATUS of this station (R88) -/

/-- The take fields of the station's STATUS by engine phase: origin, scene, take number, take start, stop position (R88). -/
def takeFields (s : State) : Nat × Text × Nat × Nat × Nat :=
  match enginePhase s, openTake s, s.takes.pendingStart with
  | .rolling, some t, _ => (t.origin, t.label.scene, t.label.number, t.sr, 0)
  | .post, some t, _ => (t.origin, t.label.scene, t.label.number, t.sr, t.e.getD 0)
  | .startPending, _, some p => (p.origin, p.label.scene, p.label.number, p.start, 0)
  | _, _, _ => (s.port.station.val, s.takes.scene, 0, 0, 0)

/-- The STATUS fields as they would be assembled at this moment (R88). -/
def ownStatus (s : State) : StatusFields :=
  let (origin, scene, number, start, stop) := takeFields s
  { run := s.link.run, rateCode := s.counter.sampleRate.code, tcCode := s.counter.tcRate.code, pos := s.counter.newest,
    capture := s.writer.capture.code, phase := (enginePhase s).code, origin := origin, scene := scene, number := number,
    start := start, stop := stop, nextTake := s.takes.nextTake, highWater := s.store.seq }

/-- The payload of a queued frame as an attempt drives it (R93). -/
def txPayload (s : State) : TxFrame → List Byte
  | .status => statusBytes (ownStatus s)
  | .note n => noteBytes n
  | .noteRequest target run first => be 1 target ++ be 2 run ++ be 2 first
  | .noteGone run first last => be 2 run ++ be 2 first ++ be 2 last

/-! ## Levels on the line (R83, R91) -/

/-- What is heard where one station drives this level and another that one: dominant where either is (R83). -/
def lineLevel : Level → Level → Level
  | .recessive, .recessive => .recessive
  | _, _ => .dominant

/-- A 0 bit is sent dominant, a 1 bit recessive (R83). -/
def bitLevel (bit : Bool) : Level := if bit then .recessive else .dominant

/-- The ten levels of a byte: a dominant start bit, the data bits from the most significant, a recessive stop bit (R83). -/
def byteLevels (b : Byte) : List Level :=
  .dominant :: ([7, 6, 5, 4, 3, 2, 1, 0].map fun i => bitLevel (b.getLsbD i)) ++ [.recessive]

/-- The byte that ten heard levels carry (R83). -/
def levelsByte (levels : List Level) : Byte :=
  ((levels.drop 1).take 8).foldl (fun acc l => (acc <<< 1) ||| (if l = .recessive then 1#8 else 0#8)) 0#8

/-- The levels a station in SEND drives in its attempt, each byte following the one before with no rest (R83). -/
def drivenLevels (s : State) : List Level := s.link.sending.flatMap byteLevels

/-- What a station that drives `driven` hears while another begins to drive `other`, and whether it hears a mismatch. Both compare
each level with what they drove. At the first that differs, the one that drove recessive and hears dominant drives no more, and
the other is heard alone from there on (R83, R91). -/
def hearDriven : List Level → List Level → List Level × Bool
  | [], other => (other, false)
  | driven, [] => (driven, false)
  | d :: ds, o :: os =>
    if lineLevel d o ≠ d then (o :: os, true)
    else if lineLevel d o ≠ o then (d :: ds, false)
    else (d :: (hearDriven ds os).1, (hearDriven ds os).2)

/-! ## The transmitter (R89 to R92) -/

/-- The station's deferral in bit times (R90). -/
def deferral (s : State) : Nat := (s.port.station.val + (if s.link.penalty then 9 else 1)) * 8

/-- An attempt on the head frame begins: its bytes are assembled, the penalty mark is cleared, the state is SEND, and the first
start bit makes the line BUSY and begins a received frame too (R84, R89, R90, R91, R96). -/
def beginAttempt (s : State) : State :=
  match s.link.queue with
  | [] => s
  | x :: _ =>
    let bytes := frameBytes (byte x.frame.code) (byte s.port.station.val) (txPayload s x.frame)
    { s with
      link :=
        { s.link with
          tx := .send, sending := bytes, attemptFrom := s.time, penalty := false, line := .busy
          restFrom := s.time + Config.byteTime * bytes.length
          receiver := .taking s.counter.newest [] } }

/-- A frame at the head of the queue in STANDBY: the first bullet of R89. -/
def kickTransmitter (s : State) : State :=
  if s.link.tx = .standby ∧ s.link.queue ≠ [] then
    match s.link.line with
    | .idle =>
      if s.link.idleFrom + deferral s ≤ s.time then beginAttempt s
      else { s with link := { s.link with tx := .defer } }
    | _ => { s with link := { s.link with tx := .waitIdle } }
  else s

/-- The link takes requests: the station is in RUN and not listen-only (R93, R95). -/
def linkActive (s : State) : Bool := s.inRun && !s.link.listenOnly

/-- An entry appended at the tail of the queue with an attempt count of 0, and the transmitter started if it stood by. -/
def appendEntry (f : TxFrame) (s : State) : State :=
  kickTransmitter { s with link := { s.link with queue := s.link.queue ++ [{ frame := f, attempts := 0 }] } }

/-- The queue takes a NOTE, NOTE REQUEST or NOTE GONE now (R93). -/
def queueTakes (s : State) : Bool := linkActive s && decide (s.link.queue.length < Config.maxQueue)

/-- A request to queue a NOTE, NOTE REQUEST or NOTE GONE (R93). -/
def queueFrame (f : TxFrame) (s : State) : State :=
  if !linkActive s then s
  else if s.link.queue.length < Config.maxQueue then appendEntry f s
  else
    { s with link := { s.link with counts := { s.link.counts with refused := satAdd Config.max16 s.link.counts.refused 1 } } }

/-- The queued STATUS is being sent (R94). -/
def statusBeingSent (s : State) : Bool :=
  s.link.tx == .send && ((s.link.queue.head?.map TxEntry.frame) == some .status)

/-- A request to send a STATUS (R94). -/
def requestStatus (s : State) : State :=
  if !linkActive s then s
  else if statusBeingSent s then { s with link := { s.link with owed := true } }
  else if s.link.queue.any (fun x => x.frame == .status) then
    { s with
      link :=
        { s.link with
          queue := s.link.queue.map fun x => if x.frame = .status then { x with attempts := 0 } else x } }
  else if s.link.queue.length < Config.maxQueue then appendEntry .status s
  else { s with link := { s.link with owed := true } }

/-- The head frame leaves the queue; an owed STATUS takes the place that frees (R93, R94). -/
def leaveQueue (s : State) : State :=
  let rest := s.link.queue.drop 1
  if s.link.owed then
    { s with link := { s.link with queue := rest ++ [{ frame := .status, attempts := 0 }], owed := false } }
  else { s with link := { s.link with queue := rest } }

/-- The transmitter state after an attempt has ended (R89). -/
def afterAttempt (s : State) : State :=
  { s with
    link :=
      { s.link with
        sending := []
        tx := if s.link.queue = [] then .standby else if s.link.line = .idle then .defer else .waitIdle } }

/-! ## Announcing a change of state (R95) -/

/-- What a change of which requests a STATUS: the engine phase, the take fields, the open take's stop position, the capture
state and the next take number (R58, R95). -/
def announcedState (s : State) : EnginePhase × (Nat × Text × Nat × Nat × Nat) × Option Nat × Capture × Nat :=
  (enginePhase s, takeFields s, (openTake s).bind Take.e, s.writer.capture, s.takes.nextTake)

/-- A STATUS is requested when an event changed the announced state. One event makes one request, at its end: DEDUCED from
R95, notes/assumptions/8.md. A change that the same event undoes requests none: DESIGN CHOICE, notes/assumptions/32.md. -/
def announceChange (before after : State) : State :=
  if announcedState before = announcedState after then after else requestStatus after

/-! ## The receiver (R96) -/

/-- A receive error: the count rises, and the receiver takes no more bytes until the line is next IDLE (R96, R97). -/
def countError (s : State) : State :=
  { s with link := { s.link with counts := { s.link.counts with errors := satAdd Config.max16 s.link.counts.errors 1 } } }

/-- The time at which the last stop bit ends once n more bytes have been heard: the first of them begins where the bytes heard so
far end, or now, and each follows the one before with no rest; a byte under way has begun already (R83, R84). -/
def restAfter (n : Nat) (s : State) : Nat :=
  match s.link.receiver with
  | .within _ _ => s.link.restFrom + Config.byteTime * (n - 1)
  | _ => if n = 0 then s.link.restFrom else max s.link.restFrom s.time + Config.byteTime * n

/-- The bytes of a whole frame of this payload length, its preamble and check among them (R85). -/
def frameLength (payload : Nat) : Nat := payload + 6

/-- The bytes taken so far make a complete frame (R96). -/
def takenComplete (bytes : List Byte) : Bool := 4 ≤ bytes.length && bytes.length == frameLength (field bytes 3 1)

/-- The receiver after taking one more byte, or none when the byte makes the frame a receive error (R96). -/
def takeByte (taken : List Byte) (b : Byte) : Option (List Byte) :=
  if taken.length = 0 ∧ b.toNat ≠ Config.preamble then none
  else if taken.length = 3 ∧ Config.maxPayload < b.toNat then none
  else if takenComplete taken then none
  else some (taken ++ [b])

/-- The receiver hears a byte, the first start bit after IDLE latching the arrival position (R96). -/
def receiveByte (b : Byte) (s : State) : State :=
  let take (arrival : Nat) (taken : List Byte) : State :=
    match takeByte taken b with
    | some bytes => { s with link := { s.link with receiver := .taking arrival bytes } }
    | none => countError { s with link := { s.link with receiver := .waiting } }
  match s.link.receiver with
  | .waiting => s
  | .ready => take s.counter.newest []
  | .taking arrival taken => take arrival taken
  | .within arrival taken => take arrival taken
  | .echo _ => countError { s with link := { s.link with receiver := .waiting } }

/-- The frame's length is the one its kind and contents call for (R85, R97). -/
def lengthFits (kind : Byte) (payload : List Byte) : Bool :=
  match kind.toNat with
  | 1 => payload.length == 40
  | 2 => (readNotePayload payload).isSome && payload.length ≤ Config.maxPayload
  | 3 => payload.length == 5
  | 4 => payload.length == 6
  | _ => false

/-- A complete frame is valid: check, kind, sender and length (R97). -/
def frameValid (kind : Byte) (f : HeardFrame) : Bool :=
  f.check == crc (kind :: f.sender :: byte f.payload.length :: f.payload) && f.sender.toNat < 8 &&
    f.payload.length ≤ Config.maxPayload && lengthFits kind f.payload

/-- The arrival position of the frame in hand: the one latched at its first start bit, or the newest position when no start bit
was reported on its own (R96). -/
def arrivalPosition (s : State) : Nat :=
  match s.link.receiver with
  | .taking arrival _ => arrival
  | .within arrival _ => arrival
  | _ => s.counter.newest

/-- The number of whole bytes of the attempt in SEND that are over: as many as were heard one by one, or as the time since the
first start bit holds, whichever is more (R83, R91). -/
def bytesOver (s : State) : Nat :=
  max ((s.time - s.link.attemptFrom) / Config.byteTime)
    (match s.link.receiver with
      | .taking _ bytes => bytes.length
      | _ => 0)

/-- The time at which the stop bit of the attempt's byte n ends (R83). -/
def byteEnd (n : Nat) (s : State) : Nat := s.link.attemptFrom + Config.byteTime * (n + 1)

/-- A station clash (R99). In SEND the station stops driving, and the line rests from the end of the byte under way. -/
def stationClash (s : State) : State :=
  raise .stationClash
    { s with
      link :=
        { s.link with
          listenOnly := true, sending := [], queue := [], owed := false, tx := .standby
          restFrom := if s.link.tx = .send then min s.link.restFrom (byteEnd (bytesOver s) s) else s.link.restFrom
          counts := { s.link.counts with clashes := satAdd Config.max16 s.link.counts.clashes 1 } } }

/-! ## The peer table (R100 to R103) -/

/-- The peer's entry becomes PRESENT and its age restarts, raising PEER CHANGE when it was ABSENT; the frames received count
rises (R98, R101). -/
def peerHeard (p : Fin 8) (s : State) : State :=
  let e := s.link.peers[p]
  let s1 := setPeer p { e with present := true, heardAt := some s.time } s
  raiseIf (!e.present) .peerChange
    { s1 with link := { s1.link with counts := { s1.link.counts with received := satAdd Config.max16 s.link.counts.received 1 } } }

/-- The run number a STATUS or NOTE carries acts on the entry (R102). -/
def applyRun (p : Fin 8) (run : Nat) (s : State) : State :=
  let e := s.link.peers[p]
  if e.run = some run then s
  else if e.run = none then setPeer p { e with run := some run } s
  else setPeer p { e with run := some run, heardUpTo := 0 } s

/-- The compatibility and timecode offset that a STATUS gives its sender's entry (R103). -/
def judgeClock (s : State) (f : StatusFields) (arrival : Nat) : Compatibility × Option Int :=
  if f.rateCode ≠ s.counter.sampleRate.code ∨ f.tcCode ≠ s.counter.tcRate.code then (.rateMismatch, none)
  else
    let offset := signedDiff s.day arrival f.pos
    if s.link.tolerance < offset.natAbs then (.tcOff, some offset) else (.ok, some offset)

/-- PEER MISMATCH is raised by this change of compatibility (R103). -/
def mismatchRaised (old : Option Compatibility) (new : Compatibility) : Bool :=
  match new with
  | .ok => old == some .rateMismatch || old == some .tcOff
  | c => old != some c

/-- A STATUS applied to its sender's entry: run number, compatibility, offset, last STATUS (R98, R102, R103). -/
def applyStatus (p : Fin 8) (f : StatusFields) (arrival : Nat) (s : State) : State :=
  let s1 := applyRun p f.run s
  let e := s1.link.peers[p]
  let j := judgeClock s1 f arrival
  raiseIf (mismatchRaised e.compat j.1) .peerMismatch
    (setPeer p { e with compat := some j.1, offset := j.2, status := some f } s1)

end Sys2Proof.Machine
end

