-- ==== Sys2Proof/Machine/Operands.lean ====
section
/-! DEFINITION. The operands of the host's commands, read from the argument bytes by the table of R194, and the order of checks
of R177. Each reader answers none when the argument length does not match the command. -/

namespace Sys2Proof.Machine

open Sys2Proof

/-- The phases a command is taken in (R178). -/
inductive TakenIn where
  | setupOnly | runOnly | both
  deriving DecidableEq, Repr

/-- The command is taken in the present phase (R178). -/
def takenNow (p : TakenIn) (phase : PortPhase) : Bool :=
  match p, phase with
  | .setupOnly, .setup => true
  | .runOnly, .run => true
  | .both, _ => true
  | _, _ => false

/-- A command message taken: WRONG PHASE first, then BAD VALUE for a wrong argument length, then the command's own checks and
action (R177). -/
def hostCommand {α : Type} (p : TakenIn) (operands : Option α) (act : α → State → State) (s : State) : State :=
  if takenNow p s.port.phase then
    match operands with
    | some a => act a s
    | none => respond .badValue [] s
  else respond .wrongPhase [] s

/-- No arguments. -/
def noArgs (args : List Byte) : Option Unit := if args.length = 0 then some () else none

/-- Off 0x00, on 0x01 (R194). -/
def onOff (code : Nat) : Option Bool :=
  match code with
  | 0 => some false
  | 1 => some true
  | _ => none

/-- The sample rate of a code (R191). -/
def sampleRateOf (code : Nat) : Option SampleRate :=
  match code with
  | 1 => some .r48
  | 2 => some .r96
  | _ => none

/-- The timecode rate of a value (R191). -/
def tcRateOf (code : Nat) : Option TcRate :=
  match code with
  | 24 => some .f24
  | 25 => some .f25
  | 30 => some .f30
  | _ => none

/-- The channel kind of a code (R194). -/
def channelKindOf (code : Nat) : Option ChannelKind :=
  match code with
  | 0 => some .off
  | 1 => some .dual
  | 2 => some .single
  | 3 => some .receiver
  | _ => none

/-- The rounding mode of a code (R194). -/
def roundingOf (code : Nat) : Option Rounding :=
  match code with
  | 0 => some .chop
  | 1 => some .round
  | _ => none

/-- The cue kind of a code (R194). -/
def cueKindOf (code : Nat) : Option CueKind :=
  match code with
  | 1 => some .start
  | 2 => some .stop
  | _ => none

/-- The arguments of CONFIGURE CLOCK as codes and values (R194). -/
structure ClockArgs where
  rate : Nat
  tc : Nat
  check : Nat
  tolerance : Nat
  deriving DecidableEq, Repr

/-- CONFIGURE CLOCK: rate code (1), timecode rate (1), check (1), tolerance (2). -/
def readClockArgs (args : List Byte) : Option ClockArgs :=
  if args.length = 5 then
    some { rate := field args 0 1, tc := field args 1 1, check := field args 2 1, tolerance := field args 3 2 }
  else none

/-- The arguments of CONFIGURE TRACK (R194). -/
structure TrackArgs where
  track : Nat
  kind : Nat
  k : Nat
  mix : Nat
  partner : Nat
  deriving DecidableEq, Repr

/-- CONFIGURE TRACK: track, kind, k, mix enable, partner, 1 byte each. -/
def readTrackArgs (args : List Byte) : Option TrackArgs :=
  if args.length = 5 then
    some
      { track := field args 0 1, kind := field args 1 1, k := field args 2 1, mix := field args 3 1,
        partner := field args 4 1 }
  else none

/-- The arguments of CONFIGURE CAPTURE (R194). -/
structure CaptureArgs where
  preRoll : Nat
  postRoll : Nat
  rounding : Nat
  mask : Nat
  tolerance : Nat
  deriving DecidableEq, Repr

/-- CONFIGURE CAPTURE: P (4), Q (4), rounding (1), follow mask (2), tolerance (2). -/
def readCaptureArgs (args : List Byte) : Option CaptureArgs :=
  if args.length = 13 then
    some
      { preRoll := field args 0 4, postRoll := field args 4 4, rounding := field args 8 1, mask := field args 9 2,
        tolerance := field args 11 2 }
  else none

/-- CONFIGURE MEDIA: first and last address, 5 bytes each. -/
def readMediaArgs (args : List Byte) : Option (Nat × Nat) :=
  if args.length = 10 then some (field args 0 5, field args 5 5) else none

/-- A command of one number in this many bytes. -/
def readNumber (width : Nat) (args : List Byte) : Option Nat :=
  if args.length = width then some (ofBE args) else none

/-- SET TRIM: track (1), code (2). -/
def readTrimArgs (args : List Byte) : Option (Nat × Nat) :=
  if args.length = 3 then some (field args 0 1, field args 1 2) else none

/-- SET GATE: track (1), thresholds (4 each), close-hold, steps and levels (2 each). -/
def readGateArgs (args : List Byte) : Option (Nat × GateSettings) :=
  if args.length = 21 then
    some
      (field args 0 1,
        { openThreshold := field args 1 4, closeThreshold := field args 5 4, closeHold := field args 9 2,
          attack := field args 11 2, decay := field args 13 2, release := field args 15 2, sustain := field args 17 2,
          duck := field args 19 2 })
  else none

/-- SET SCENE: name length n (1), then n bytes. -/
def readSceneArgs (args : List Byte) : Option Text :=
  match args with
  | [] => none
  | n :: name => if name.length = n.toNat then some name else none

/-- JAM TIMECODE: hh, mm, ss, ff, 1 byte each. -/
def readJamArgs (args : List Byte) : Option (Nat × Nat × Nat × Nat) :=
  if args.length = 4 then some (field args 0 1, field args 1 1, field args 2 1, field args 3 1) else none

/-- The arguments of ADD NOTE (R194). -/
structure NoteArgs where
  kind : Nat
  attach : Nat
  raw : RawNote
  deriving DecidableEq, Repr

/-- ADD NOTE: kind (1), attach option (1), presence marks (1), the marked fields, text length (1), text. -/
def readNoteArgs (args : List Byte) : Option NoteArgs :=
  match args with
  | kind :: attach :: marks :: rest =>
    (readMarked marks rest).map fun raw => { kind := kind.toNat, attach := attach.toNat, raw := raw }
  | _ => none

/-- SET CUE: kind (1), position (5). -/
def readCueArgs (args : List Byte) : Option (Nat × Nat) :=
  if args.length = 6 then some (field args 0 1, field args 1 5) else none

/-- READ STATUS: the part (1), and the track (1) when the part is TRACK. -/
def readPartArgs (args : List Byte) : Option (Nat × Nat) :=
  match args with
  | [part] => if part.toNat = 7 then none else some (part.toNat, 0)
  | [part, track] => if part.toNat = 7 then some (part.toNat, track.toNat) else none
  | _ => none

/-- A set of notice kinds in 4 bytes (R193); none when it names a kind that is not one of the twenty. -/
def noticeSetOf (v : Nat) : Option (BitVec 20) := if v < 2 ^ 20 then some (BitVec.ofNat 20 v) else none

end Sys2Proof.Machine
end

