-- ==== Sys2Proof/Machine/NoteOps.lean ====
section
/-! DEFINITION. The note store's shared operations: eviction, attachment, local notes, peer notes, catch-up (chapter 7). -/

namespace Sys2Proof.Machine

open Sys2Proof

/-- The store holds a note with this identity. -/
def holdsNote (s : State) (id : NoteId) : Bool := s.store.notes.any fun x => x.note.id == id

/-- The list less its oldest WRITTEN note (R131). -/
def evictOldest : List StoredNote → List StoredNote
  | [] => []
  | x :: rest => if x.state = .written then rest else x :: evictOldest rest

/-- The store can take one more note: it is not full, or some note is WRITTEN (R131). -/
def storeHasRoom (s : State) : Bool :=
  s.store.notes.length < Config.maxNotes || s.store.notes.any fun x => x.state == .written

/-- A note stored at the tail with write state PENDING, room being made first in a full store (R130, R131). -/
def storeNote (n : Note) (s : State) : State :=
  let kept := if s.store.notes.length < Config.maxNotes then s.store.notes else evictOldest s.store.notes
  { s with store := { s.store with notes := kept ++ [{ note := n, state := .pending }] } }

/-! ## Attachment (R133, R134) -/

/-- A note is eligible for attachment: it carries a take reference and its originator is this station or is followed
(R133). -/
def eligible (s : State) (n : Note) : Bool :=
  n.ref.isSome && (n.id.originator == s.port.station.val || s.takes.followMask.getLsbD n.id.originator)

/-- The slot a reference attaches to: by label first, then by former label, the one started most recently (R133). -/
def matchingSlot (s : State) (ref : Label) : Option (Fin 3) :=
  match latestSlot (fun _ t => !t.indexIssued && t.label == ref) s with
  | some i => some i
  | none => latestSlot (fun _ t => !t.indexIssued && t.former.contains ref) s

/-- The effect of a note's kind on a take record (R134). -/
def noteEffect (n : Note) (t : Take) : Take :=
  match n.kind with
  | .slate => t
  | .mark => t
  | .circle => { t with flags := { t.flags with circled := true } }
  | .falseStart => { t with flags := { t.flags with falseStart := true } }
  | .wild => { t with flags := { t.flags with wild := true } }
  | .trackName =>
    match n.track.bind trackIndex with
    | none => t
    | some i =>
      { t with tracks := t.tracks.set i (t.tracks[i].map fun x => { x with name := some (n.text.take 16) }) }

/-- A note reference added at the end, unless the list holds it or holds 32 (R133). -/
def addReference (id : NoteId) (refs : List NoteId) : List NoteId :=
  if refs.contains id || decide (Config.maxNoteRefs ≤ refs.length) then refs else refs ++ [id]

/-- A stored note attaches to a take (R133, R134). -/
def attachTo (n : Note) (t : Take) : Take := noteEffect n { t with noteRefs := addReference n.id t.noteRefs }

/-- The slot a note attaches to, none for a note that stands alone: one not eligible, or that no slot matches (R133). -/
def attachesTo (n : Note) (s : State) : Option (Fin 3) :=
  if eligible s n then n.ref.bind (matchingSlot s) else none

/-- Attachment is tried for a note that has just been stored (R133). -/
def tryAttach (n : Note) (s : State) : State :=
  match attachesTo n s with
  | some i => modifySlot i (attachTo n) s
  | none => s

/-! ## A note's contents (R125, R127, R136) -/

/-- The greatest text length of a note kind (R125). -/
def maxText (k : NoteKind) : Nat := if k = .trackName then 16 else 64

/-- A note's contents are acceptable: the checks R127 and R136 share. -/
def contentsFit (D : Nat) (kind : NoteKind) (ref : Option Label) (pos track : Option Nat) : Bool :=
  (match track with
    | some t => 1 ≤ t && t ≤ 16
    | none => kind != .trackName) &&
  (match pos with
    | some p => p < D
    | none => kind != .mark) &&
  (match ref with
    | some r => 1 ≤ r.number && r.number ≤ 999
    | none => true)

/-! ## Local notes (R127, R128) -/

/-- The slot of the take that the attach option names: the open take, else the CLOSING slot started most recently whose index
record has not been issued (R127 step 3). -/
def attachSlot (s : State) : Option (Fin 3) :=
  match openSlot s with
  | some i => some i
  | none => latestSlot (fun _ t => t.phase == .closing && !t.indexIssued) s

/-- The label of the take that the attach option names. -/
def attachLabel (s : State) : Option Label :=
  match attachSlot s with
  | some i => s.takes.slots[i].map Take.label
  | none => none

/-- The text of a local note: unprintable characters replaced, then cut (R127). -/
def normalText (k : NoteKind) (text : Text) : Text := (text.map printable).take (maxText k)

/-- The note ADD NOTE stores (R127, R128). -/
def localNote (s : State) (kind : NoteKind) (ref : Option Label) (raw : RawNote) : Note :=
  { id := { originator := s.port.station.val, run := s.link.run, seq := s.store.seq + 1 }, kind := kind, ref := ref,
    pos := raw.pos, track := raw.track, text := normalText kind raw.text }

/-- The note that an ADD NOTE comes to, or the code it is answered with: BAD VALUE for its contents, REFUSED at the last sequence,
REFUSED without a take to attach to, BUSY in a full store (R127). -/
def noteToAdd (a : NoteArgs) (s : State) : Except ResponseCode Note :=
  match noteKindOf a.kind, onOff a.attach with
  | some kind, some attach =>
    if contentsFit s.day kind a.raw.ref a.raw.pos a.raw.track = false then .error .badValue
    else if Config.max16 ≤ s.store.seq then .error .refused
    else if attach ∧ attachLabel s = none then .error .refused
    else if storeHasRoom s then .ok (localNote s kind (if attach then attachLabel s else a.raw.ref) a.raw)
    else .error .busy
  | _, _ => .error .badValue

/-- A local note stored, attached and queued (R128). -/
def storeLocal (n : Note) (s : State) : State :=
  queueFrame (.note n)
    (tryAttach n (storeNote n { s with store := { s.store with seq := s.store.seq + 1 } }))

/-! ## Peer notes (R136 to R138) -/

/-- The advance of R138: heard-up-to rises while the store holds the next note, stopping at 65,535. `fuel` bounds the
rises: at most one for each stored note. -/
def advanceHeard (s : State) (p run : Nat) : Nat → Nat → Nat
  | 0, u => u
  | fuel + 1, u =>
    if u < Config.max16 ∧ holdsNote s { originator := p, run := run, seq := u + 1 } then advanceHeard s p run fuel (u + 1)
    else u

/-- Heard-up-to of a peer set to u and then advanced (R138). -/
def setHeard (p : Fin 8) (u : Nat) (s : State) : State :=
  let e := s.link.peers[p]
  match e.run with
  | none => setPeer p { e with heardUpTo := u } s
  | some run => setPeer p { e with heardUpTo := advanceHeard s p.val run s.store.notes.length u } s

/-- A rejected peer note (R136). -/
def rejectNote (p : Fin 8) (seq : Nat) (s : State) : State :=
  let s1 := { s with store := { s.store with rejected := satAdd Config.max16 s.store.rejected 1 } }
  let u := s.link.peers[p].heardUpTo
  if seq = u + 1 then
    setHeard p (u + 1)
      (raise .notesLost { s1 with store := { s1.store with lost := satAdd Config.max16 s1.store.lost 1 } })
  else s1

/-- A peer note that passed R136 (R137, R138, R131). -/
def acceptNote (p : Fin 8) (n : Note) (s : State) : State :=
  let u := s.link.peers[p].heardUpTo
  if n.id.seq ≤ u ∨ holdsNote s n.id then
    { s with store := { s.store with duplicates := satAdd Config.max16 s.store.duplicates 1 } }
  else if storeHasRoom s then setHeard p u (raise .noteArrived (tryAttach n (storeNote n s)))
  else { s with store := { s.store with refused := satAdd Config.max16 s.store.refused 1 } }

/-- A NOTE payload taken by the note store after the link controller has applied it to the peer's entry (R136 to R138). -/
def takePeerNote (p : Fin 8) (payload : List Byte) (s : State) : State :=
  let run := field payload 0 2
  let seq := field payload 2 2
  match readNotePayload payload with
  | none => s
  | some raw =>
    match noteKindOf (field payload 4 1) with
    | none => rejectNote p seq s
    | some kind =>
      if seq ≠ 0 ∧ contentsFit s.day kind raw.ref raw.pos raw.track ∧ raw.text.length ≤ maxText kind then
        acceptNote p
          { id := { originator := p.val, run := run, seq := seq }, kind := kind, ref := raw.ref, pos := raw.pos,
            track := raw.track, text := raw.text.map printable } s
      else rejectNote p seq s

/-! ## Catch-up (R139 to R141) -/

/-- At least 100 ms have passed since the last request to the peer, or there was none (R139). -/
def requestAllowed (now : Nat) (last : Option Nat) : Bool :=
  match last with
  | none => true
  | some t => t + Config.requestTime ≤ now

/-- A STATUS tested for catch-up (R139). -/
def testCatchUp (p : Fin 8) (highWater : Nat) (s : State) : State :=
  let e := s.link.peers[p]
  if e.heardUpTo < highWater ∧ requestAllowed s.time e.lastRequest then
    if queueTakes s then
      setPeer p { e with lastRequest := some s.time }
        (queueFrame (.noteRequest p.val (e.run.getD 0) (e.heardUpTo + 1)) s)
    else queueFrame (.noteRequest p.val (e.run.getD 0) (e.heardUpTo + 1)) s
  else s

/-- A note put before the first note of a greater sequence. -/
def insertBySeq (n : Note) : List Note → List Note
  | [] => [n]
  | x :: rest => if n.id.seq < x.id.seq then n :: x :: rest else x :: insertBySeq n rest

/-- Notes in increasing order of sequence. -/
def sortBySeq : List Note → List Note
  | [] => []
  | x :: rest => insertBySeq x (sortBySeq rest)

/-- The own notes of the current run held with sequences from F upward, in increasing order of sequence (R140). -/
def ownNotesFrom (s : State) (first : Nat) : List Note :=
  sortBySeq ((s.store.notes.map StoredNote.note).filter fun n =>
    n.id.originator == s.port.station.val && n.id.run == s.link.run && decide (first ≤ n.id.seq))

/-- A NOTE REQUEST whose target is this station (R140). -/
def answerRequest (run first : Nat) (s : State) : State :=
  if run ≠ s.link.run ∨ s.store.seq < first then s
  else if holdsNote s { originator := s.port.station.val, run := s.link.run, seq := first } then
    ((ownNotesFrom s first).take 4).foldl (fun st n => queueFrame (.note n) st) s
  else
    let last :=
      match ownNotesFrom s (first + 1) with
      | n :: _ => n.id.seq - 1
      | [] => s.store.seq
    queueFrame (.noteGone s.link.run first last) s

/-- A NOTE REQUEST from a peer (R98, R140). -/
def takeRequest (payload : List Byte) (s : State) : State :=
  if field payload 0 1 = s.port.station.val then answerRequest (field payload 1 2) (field payload 3 2) s else s

/-- Of n sequences after u, the number the store does not hold for this peer and run (R141). -/
def unheld (s : State) (p run u : Nat) : Nat → Nat
  | 0 => 0
  | n + 1 => unheld s p run u n + (if holdsNote s { originator := p, run := run, seq := u + n + 1 } then 0 else 1)

/-- A NOTE GONE from a peer (R141). -/
def takeGone (p : Fin 8) (payload : List Byte) (s : State) : State :=
  let run := field payload 0 2
  let a := field payload 2 2
  let b := field payload 4 2
  let e := s.link.peers[p]
  if e.run ≠ some run ∨ e.heardUpTo + 1 < a ∨ b ≤ e.heardUpTo then s
  else
    let lost := unheld s p.val run e.heardUpTo (b - e.heardUpTo)
    setHeard p b
      (raiseIf (decide (0 < lost)) .notesLost
        { s with store := { s.store with lost := satAdd Config.max16 s.store.lost lost } })

end Sys2Proof.Machine
end

