-- ==== Sys2Proof/Machine/WriterOps.lean ====
section
/-! DEFINITION. The media writer's shared operations: space state, ready blocks, gap accounts, requests, the arbiter, issue,
re-issue, and the effects of a completion (chapter 9). -/

namespace Sys2Proof.Machine

open Sys2Proof

/-! ## Range, cursor and space (R157, R158) -/

/-- The remaining count (R157). -/
def remaining (s : State) : Option Nat :=
  match s.writer.range, s.writer.cursor with
  | some r, some c => some (r.2 + 1 - c)
  | _, _ => none

/-- The space state of a remaining count (R158). -/
def spaceOf (n : Nat) : Space :=
  if n = 0 then .exhausted
  else if n ≤ Config.fullBlocks then .full
  else if n ≤ Config.nearFullBlocks then .nearFull
  else .ample

/-- The space state set from the remaining count; entering NEAR FULL raises it, entering FULL raises it and force-stops (R158,
R79). -/
def setSpace (s : State) : State :=
  match remaining s with
  | none => s
  | some n =>
    let new := spaceOf n
    let s1 := { s with writer := { s.writer with space := some new } }
    if s.writer.space = some new then s1
    else
      match new with
      | .nearFull => raise .nearFull s1
      | .full => forcedStop (raise .full s1)
      | _ => s1

/-- The cursor advances by one at a completion, and the space state is set again (R157, R158). -/
def advanceCursor (s : State) : State :=
  setSpace { s with writer := { s.writer with cursor := s.writer.cursor.map (· + 1) } }

/-! ## Audio blocks and accounts (R159, R160) -/

/-- The frames of an audio block from position p: those held at consecutive positions, up to n frames and up to Z; and whether
the run ended for want of a frame at the returned position rather than at the capacity or at Z (R159). -/
def takeRun (D : Nat) (z : Option Nat) : Nat → Nat → List RingFrame → List RingFrame × Option Nat
  | 0, _, _ => ([], none)
  | _ + 1, p, [] => ([], some p)
  | n + 1, p, f :: rest =>
    if f.pos = p then
      if z = some p then ([f], none)
      else
        let r := takeRun D z n (posAdd D p 1) rest
        (f :: r.1, r.2)
    else ([], some p)

/-- The held frames from the one at p on. -/
def framesFrom (p : Nat) (frames : List RingFrame) : List RingFrame := frames.dropWhile fun f => f.pos != p

/-- The frames of a slot's ready audio block, none when it has none (R159). -/
def readyBlock (s : State) (t : Take) : Option (List RingFrame) :=
  let past := match t.z with
    | some z => t.next == posAdd s.day z 1
    | none => false
  if past then none
  else
    let r := takeRun s.day t.z (blockCapacity s) t.next (framesFrom t.next s.ring.frames)
    match r.1, r.2 with
    | [], _ => none
    | frames, none => some frames
    | frames, some p => if isLater s.day p s.counter.newest then none else some frames

/-- The content of this slot's audio block. -/
def isAudioOf (i : Fin 3) (content : Content) : Bool :=
  match content with
  | .audio slot .. => slot == i
  | _ => false

/-- An audio block of the slot is in flight and not stale. -/
def audioInFlight (s : State) (i : Fin 3) : Bool :=
  match s.writer.inFlight with
  | some w => !w.stale && isAudioOf i w.content
  | none => false

/-- An audio block of the slot is issued and not yet reported: in flight, or held for re-issue (R118, R160). -/
def audioOutstanding (s : State) (i : Fin 3) : Bool :=
  audioInFlight s i || (s.writer.held.map (isAudioOf i)).getD false

/-- The number of held frames at consecutive positions from p (R160). -/
def heldRun (D : Nat) : Nat → List RingFrame → Nat
  | _, [] => 0
  | p, f :: rest => if f.pos = p then heldRun D (posAdd D p 1) rest + 1 else 0

/-- A run cut short at Z (R160). -/
def upToEnd (D : Nat) (t : Take) (n : Nat) : Nat :=
  match t.z with
  | some z => min n (countTo D t.next z)
  | none => n

/-- The gap report that is due for a slot: whether it is of holes, and its length (R160). A run of held frames that will not be
written is one report from the next-to-write position on, the positions of a dropped audio block among them (R174): DESIGN
CHOICE, notes/assumptions/24.md. -/
def dueReport (s : State) (i : Fin 3) : Option (Bool × Nat) :=
  match s.takes.slots[i] with
  | none => none
  | some t =>
    match ringAnswer s t.next with
    | .notArrived => none
    | .held _ =>
      if cardFull s && !audioInFlight s i then
        let n := upToEnd s.day t (heldRun s.day t.next (framesFrom t.next s.ring.frames))
        if n = 0 then none else some (false, n)
      else none
    | _ =>
      if audioOutstanding s i then none
      else
        let stop := match lookup .afterFrame s t.next with
          | .held o => o
          | .none next => next
          | .notArrived => t.next
        let n := upToEnd s.day t (countAfter s.day t.next stop)
        if n = 0 then none else some (true, n)

/-- The gap reports due for one slot, each followed by the next until none is due (R160). `fuel` bounds them. -/
def accountSlot (i : Fin 3) : Nat → State → State
  | 0, s => s
  | fuel + 1, s =>
    match dueReport s i with
    | none => s
    | some (holes, n) => accountSlot i fuel (modifySlot i (gapReport s.day holes n) s)

/-- Reports enough for one slot: runs of holes and runs of held frames alternate, and each run of held frames holds at least
one. -/
def accountFuel (s : State) : Nat := 2 * s.ring.frames.length + 2

/-- The gap reports due for every slot (R160). -/
def accountAll (s : State) : State :=
  accountSlot 2 (accountFuel s) (accountSlot 1 (accountFuel s) (accountSlot 0 (accountFuel s) s))

/-- An audio block held for re-issue is dropped once the card is FULL (R174). -/
def dropHeldAudio (s : State) : State :=
  match s.writer.held with
  | some (.audio ..) => if cardFull s then { s with writer := { s.writer with held := none } } else s
  | _ => s

/-! ## Requests, arbiter and issue (R161 to R165) -/

/-- The slot has an index request (R161). -/
def hasIndexRequest (D : Nat) (t : Take) : Bool :=
  t.phase == .closing && !t.indexIssued &&
    match t.z with
    | some z => t.next == posAdd D z 1
    | none => false

/-- The store holds a PENDING note (R162). -/
def hasNoteRequest (s : State) : Bool := s.store.notes.any fun x => x.state == .pending

/-- The skipped list holds an address or the unlisted count is above 0 (R163). -/
def hasFaultRequest (s : State) : Bool := !s.writer.skipped.isEmpty || decide (0 < s.writer.unlisted)

/-- What the writer may be asked to write (section 9.2). -/
inductive Request where
  | audio (slot : Fin 3)
  | index (slot : Fin 3)
  | notes
  | fault
  deriving DecidableEq, Repr

/-- The urgent request taken first: the index request of the slot started earliest, then the note request, then the fault request
(R165). -/
def urgentRequest (s : State) : Option Request :=
  match earliestSlot (fun _ t => hasIndexRequest s.day t) s with
  | some i => some (.index i)
  | none => if hasNoteRequest s then some .notes else if hasFaultRequest s then some .fault else none

/-- The bulk request taken first (R165). -/
def bulkRequest (s : State) : Option Request :=
  (earliestSlot (fun _ t => (readyBlock s t).isSome) s).map .audio

/-- The arbiter's choice (R158, R165). -/
def choose (s : State) : Option Request :=
  match s.writer.space with
  | none => none
  | some .exhausted => none
  | some .full => urgentRequest s
  | some _ =>
    if protectedCount s < Config.protectedThreshold then
      match urgentRequest s with
      | some r => some r
      | none => bulkRequest s
    else
      match bulkRequest s with
      | some r => some r
      | none => urgentRequest s

/-- A write issued at the cursor (R164). -/
def issueWrite (content : Content) (attempt : Attempt) (ofRetryCommand : Bool) (s : State) : State :=
  { s with
    writer :=
      { s.writer with
        inFlight :=
          some { addr := s.writer.cursor.getD 0, content := content, attempt := attempt, stale := false,
                 ofRetryCommand := ofRetryCommand } } }

/-- The notes of the next note block: the first 32 PENDING in store order (R162). -/
def notesForBlock (s : State) : List Note :=
  (((s.store.notes.filter fun x => x.state == .pending).take Config.notesPerBlock)).map StoredNote.note

/-- Of the first n PENDING notes each becomes WRITING (R130, R162). -/
def markWriting : Nat → List StoredNote → List StoredNote
  | _, [] => []
  | 0, l => l
  | n + 1, x :: rest =>
    if x.state = .pending then { x with state := .writing } :: markWriting n rest else x :: markWriting (n + 1) rest

/-- A request issued as a first write, its content fixed as it stands (R159, R161 to R164). -/
def issueRequest (r : Request) (s : State) : State :=
  match r with
  | .audio i =>
    match s.takes.slots[i] with
    | none => s
    | some t =>
      match readyBlock s t with
      | none => s
      | some frames => issueWrite (.audio i (wordCount s) t.serial t.next (t.blocks % 16777216) frames) .first false s
  | .index i =>
    match s.takes.slots[i] with
    | none => s
    | some t =>
      issueWrite (.index i (wordCount s) t) .first false (setSlot i (some { t with indexIssued := true }) s)
  | .notes =>
    issueWrite (.notes (notesForBlock s)) .first false
      { s with store := { s.store with notes := markWriting Config.notesPerBlock s.store.notes } }
  | .fault => issueWrite (.fault s.writer.skipped s.writer.unlisted) .first false s

/-- A decision may issue a write: NORMAL, no write in flight, in RUN with a cursor (R164). -/
def mayIssue (s : State) : Bool :=
  s.inRun && s.writer.capture == .normal && s.writer.inFlight.isNone && s.writer.cursor.isSome

/-- A decision of the writer: the arbiter's choice is issued (R164). -/
def makeDecision (s : State) : State :=
  if mayIssue s then
    match choose s with
    | some r => issueRequest r s
    | none => s
  else s

/-- What an event leaves the writer to do before its decision: the drop of R174 and the accounts of R160. -/
def settle (s : State) : State := if s.inRun then accountAll (dropHeldAudio s) else s

/-! ## Completions (R163, R167 to R171) -/

/-- The space state allows a write of this content (R158). -/
def spaceAllows (s : State) (content : Content) : Bool :=
  match s.writer.space with
  | some .ample => true
  | some .nearFull => true
  | some .full =>
    match content with
    | .audio .. => false
    | _ => true
  | _ => false

/-- A re-issue as a retry: issued when the space state allows it; otherwise an audio block is dropped and other content is held
(R168, R174, R175). -/
def reissue (content : Content) (s : State) : State :=
  if spaceAllows s content then issueWrite content .retry false { s with writer := { s.writer with held := none } }
  else
    match content with
    | .audio .. => { s with writer := { s.writer with held := none } }
    | _ => { s with writer := { s.writer with held := some content } }

/-- A failed address joins the skipped list, or the unlisted count when the list is full; the failed-write count rises (R163,
R168). -/
def listFailure (addr : Nat) (s : State) : State :=
  if s.writer.skipped.length < Config.maxSkipped then
    { s with
      writer :=
        { s.writer with
          skipped := s.writer.skipped ++ [addr], failed := satAdd Config.max16 s.writer.failed 1 } }
  else
    { s with
      writer :=
        { s.writer with
          unlisted := satAdd Config.max16 s.writer.unlisted 1, failed := satAdd Config.max16 s.writer.failed 1 } }

/-- One track's tally raised from one frame of a completed block: its clip set, and its word (R21). -/
def tallyFrame (number : Nat) (word : Option FieldWord) (f : RingFrame) (t : TrackTally) : TrackTally :=
  let t1 :=
    if f.clips.contains number then
      { t with clips := satAdd Config.max32 t.clips 1, firstClip := some (t.firstClip.getD f.pos) }
    else t
  match word with
  | some w => if wordIsAbsent w then { t1 with dropouts := satAdd Config.max32 t1.dropouts 1 } else t1
  | none => t1

/-- The number of enabled tracks below track i, which is the place of track i's word in a frame (R41). -/
def wordPlace (tracks : Vector (Option TrackTally) 16) (i : Fin 16) : Nat :=
  ((List.finRange 16).filter fun j => j < i && tracks[j].isSome).length

/-- The per-track entries raised from the frames of a completed block, in position order (R21). -/
def tallyBlock (frames : List RingFrame) (tracks : Vector (Option TrackTally) 16) : Vector (Option TrackTally) 16 :=
  Vector.ofFn fun i =>
    tracks[i].map fun t =>
      frames.foldl (fun acc f => tallyFrame (i.val + 1) (f.words[wordPlace tracks i]?) f acc) t

/-- A take reported written (R76, R21). -/
def writtenReport (D addr : Nat) (frames : List RingFrame) (t : Take) : Take :=
  { t with
    w := t.w + frames.length
    next := posAdd D t.next frames.length
    blocks := t.blocks + 1
    firstBlock := some (t.firstBlock.getD addr)
    tracks := tallyBlock frames t.tracks }

/-- The notes of a completed block that are WRITING become WRITTEN (R167). -/
def markWritten (ids : List NoteId) (l : List StoredNote) : List StoredNote :=
  l.map fun x => if x.state = .writing ∧ ids.contains x.note.id then { x with state := .written } else x

/-- The addresses and the count a fault record carried leave the list (R163). -/
def clearListed (addrs : List Nat) (unlisted : Nat) (s : State) : State :=
  { s with
    writer :=
      { s.writer with
        skipped := s.writer.skipped.filter fun a => !addrs.contains a
        unlisted := s.writer.unlisted - unlisted } }

/-- The effect of the content of a successful completion (R167). -/
def contentWritten (addr : Nat) (content : Content) (s : State) : State :=
  match content with
  | .audio i _ _ _ _ frames => modifySlot i (writtenReport s.day addr frames) s
  | .notes l => { s with store := { s.store with notes := markWritten (l.map Note.id) s.store.notes } }
  | .index i _ _ => promote .afterFrame (raise .takeClosed (setSlot i none s))
  | .fault addrs unlisted => clearListed addrs unlisted s

/-- The fault record of MEDIA RETRY completed successfully: NORMAL, and the held content is re-issued, unless it is itself a
fault record (R171). -/
def retrySucceeded (s : State) : State :=
  let s1 := { s with writer := { s.writer with capture := .normal, held := none } }
  match s.writer.held with
  | none => s1
  | some (.fault ..) => s1
  | some content => reissue content s1

/-- The write in flight has completed. -/
def clearFlight (s : State) : State := { s with writer := { s.writer with inFlight := none } }

/-- A successful completion (R167, R169, R171). -/
def completeOk (w : Write) (s : State) : State :=
  let s1 := advanceCursor (clearFlight s)
  if w.stale then s1
  else
    let s2 := contentWritten w.addr w.content s1
    if w.ofRetryCommand then retrySucceeded s2 else s2

/-- The outcome by attempt of a failed write that is not stale (R168 step 3, R171). -/
def failedOutcome (w : Write) (s : State) : State :=
  if w.ofRetryCommand then raise .mediaHalted { s with writer := { s.writer with capture := .halted } }
  else
    match w.attempt with
    | .first => reissue w.content s
    | .retry =>
      raise .mediaFault { s with writer := { s.writer with capture := .mediaFault, held := some w.content } }

/-- A failed completion (R168, R169, R171). -/
def completeFailed (w : Write) (s : State) : State :=
  let s1 := advanceCursor (listFailure w.addr (clearFlight s))
  if w.stale then s1 else failedOutcome w s1

end Sys2Proof.Machine
end

