-- ==== Sys2Proof/Machine/Follow.lean ====
section
/-! DEFINITION. Following and merging: how a STATUS of a followed peer acts on the slots and the pending start (chapter 6), and
what a received link frame does (R97, R98). -/

namespace Sys2Proof.Machine

open Sys2Proof

/-! ## Followed peers and identities (R107 to R110) -/

/-- The peer is followed: PRESENT, compatibility OK, in the follow mask (R107). -/
def followed (s : State) (p : Fin 8) : Bool :=
  s.link.peers[p].present && s.link.peers[p].compat == some .ok && s.takes.followMask.getLsbD p.val

/-- Scene a precedes scene b: character by character by code, a leading part preceding (R109 stage 3). -/
def sceneLess : Text → Text → Bool
  | [], [] => false
  | [], _ :: _ => true
  | _ :: _, [] => false
  | a :: as, b :: bs => if a.toNat < b.toNat then true else if b.toNat < a.toNat then false else sceneLess as bs

/-- Identity a precedes identity b (R109). Of two starts exactly half a day apart neither is earlier by R1, and neither
precedes: DESIGN CHOICE, notes/assumptions/20.md. -/
def precedes (D : Nat) (a b : Identity) : Bool :=
  if a.start = b.start then
    if a.origin = b.origin then
      if a.label.scene = b.label.scene then a.label.number < b.label.number
      else sceneLess a.label.scene b.label.scene
    else a.origin < b.origin
  else isEarlier D a.start b.start

/-- A take that a STATUS announces: its identity, and its stop when it is announced in POST (R108). -/
structure Announced where
  identity : Identity
  stop : Option Nat
  deriving DecidableEq, Repr

/-- What a STATUS announces: a ROLLING or POST phase code with a take number of 1 to 999; anything else announces no take
(R108, R189). Its positions are taken modulo D: notes/assumptions/10.md. -/
def announcedTake (D : Nat) (f : StatusFields) : Option Announced :=
  if (f.phase = EnginePhase.rolling.code ∨ f.phase = EnginePhase.post.code) ∧ 1 ≤ f.number ∧ f.number ≤ 999 then
    some
      { identity := { origin := f.origin, label := { scene := f.scene, number := f.number }, start := f.start % D }
        stop := if f.phase = EnginePhase.post.code then some (f.stop % D) else none }
  else none

/-! ## Starting from an announcement (section 6.4) -/

/-- A pending start made from an announcement (R112 steps 2 and 4). The promotion test follows its making (R60). -/
def pendAnnounced (x : Identity) (reached : Bool) (s : State) : State :=
  promote .afterFrame (makePending { label := x.label, origin := x.origin, start := x.start, source := .peer, reached := reached } s)

/-- A followed ROLLING announcement reaching IDLE (R112). -/
def followRolling (x : Identity) (s : State) : State :=
  if cardFull s then raise .startRefused s
  else if isLater s.day x.start s.counter.newest then pendAnnounced x false s
  else if (emptySlot s).isSome then startSlot .afterFrame x.label x.origin x.start { follower := true } s
  else pendAnnounced x true s

/-- A followed POST announcement from the take's origin reaching IDLE: the late join (R113). -/
def lateJoin (x : Identity) (stop : Nat) (s : State) : State :=
  if cardFull s then raise .startRefused s
  else if isLater s.day x.start s.counter.newest then pendAnnounced x false s
  else
    match emptySlot s with
    | some i => applyStop i stop (startSlot .afterFrame x.label x.origin x.start { follower := true, lateJoin := true } s)
    | none => pendAnnounced x true s

/-- A followed announcement reaching IDLE (R112, R113). -/
def followIdle (p : Fin 8) (a : Announced) (s : State) : State :=
  match a.stop with
  | some e => if a.identity.origin = p.val then lateJoin a.identity e s else followRolling a.identity s
  | none => followRolling a.identity s

/-! ## Stops from the origin, merges and pending starts (sections 6.5 to 6.8) -/

/-- An announcement of the open take's own identity (R114). -/
def sameTake (p : Fin 8) (a : Announced) (i : Fin 3) (s : State) : State :=
  match a.stop with
  | some e => if a.identity.origin = p.val then applyStop i e s else s
  | none => s

/-- Former labels after a merge away from label `old` to label `new` (R117 step 1). -/
def formerAfter (old new : Label) (former : List Label) : List Label :=
  if old = new ∨ former.contains old then former
  else if former.length < 2 then former ++ [old]
  else former.drop (former.length - 1) ++ [old]

/-- The held position from which the ring serves the positions that a merge to p adds at the take's head, none when they are
head shortfall: nothing of the take is accounted or outstanding, and the lookup names a held position not later than the old
requested start (R118). A lookup that answers NOT ARRIVED, for which R118 states no outcome, serves nothing: DESIGN CHOICE,
notes/assumptions/21.md. `outstanding` says that an audio block of the slot is issued and not yet reported. -/
def servedFrom (s : State) (outstanding : Bool) (p : Nat) (t : Take) : Option Nat :=
  if t.h = 0 ∧ t.w = 0 ∧ t.g = 0 ∧ outstanding = false then
    match lookup .afterFrame s p with
    | .held o => if isLater s.day o t.sr then none else some o
    | _ => none
  else none

/-- The requested start of a take moved earlier to p by a merge (R118). -/
def extendHead (s : State) (outstanding : Bool) (p : Nat) (t : Take) : Take :=
  match servedFrom s outstanding p t with
  | some o => { t with sr := p, h := countAfter s.day p o, next := o }
  | none => { t with sr := p, h := t.h + countAfter s.day p t.sr }

/-- The take relabelled by a merge into identity x (R117 steps 1 to 4). -/
def mergeTake (s : State) (outstanding : Bool) (x : Identity) (t : Take) : Take :=
  let t1 :=
    { t with
      former := formerAfter t.label x.label t.former
      label := x.label
      origin := x.origin
      flags := { t.flags with merged := true, follower := true } }
  if isEarlier s.day x.start t.sr then extendHead s outstanding x.start t1 else t1

/-- A merge of the open take in slot i into an identity that precedes its own (R117). -/
def mergeInto (x : Identity) (i : Fin 3) (t : Take) (s : State) : State :=
  let s1 := raise .merged (setSlot i (some (mergeTake s (audioOutstanding s i) x t)) s)
  if peerIsAbsent s x.origin then markOriginLost i s1 else s1

/-- A new take during post-roll: the cut at the position before S, then the announcement as in IDLE (R116). -/
def newTake (p : Fin 8) (a : Announced) (i : Fin 3) (s : State) : State :=
  followIdle p a (cutPostRoll i (posSub s.day a.identity.start 1) s)

/-- An announcement that reaches a pending start with no take open (R119). -/
def meetPending (a : Announced) (q : PendingStart) (s : State) : State :=
  if a.identity = q.identity then s
  else if precedes s.day a.identity q.identity then
    let x := a.identity
    promote .afterFrame
      (raise .merged
        (makePending
          { label := x.label, origin := x.origin, start := x.start, source := .peer,
            reached := !isLater s.day x.start s.counter.newest } s))
  else s

/-- Steps 4 to 6 of R111 without the departure rule: the announcement against the open take, the pending start, or IDLE. -/
def meetAnnouncement (p : Fin 8) (a : Announced) (s : State) : State :=
  match openSlot s with
  | some i =>
    match s.takes.slots[i] with
    | none => s
    | some t =>
      if a.identity = t.identity then sameTake p a i s
      else if t.phase = TakePhase.post ∧ isLater s.day a.identity.start (t.e.getD t.sr) then newTake p a i s
      else if precedes s.day a.identity t.identity then sameTake p a i (mergeInto a.identity i t s)
      else s
  | none =>
    match s.takes.pendingStart with
    | some q => meetPending a q s
    | none => followIdle p a s

/-- The slot of a ROLLING open take whose origin is this peer (R115). -/
def departing (p : Fin 8) (s : State) : Option (Fin 3) :=
  match openSlot s with
  | some i =>
    match s.takes.slots[i] with
    | some t => if t.phase = TakePhase.rolling ∧ t.origin = p.val ∧ p ≠ s.port.station then some i else none
    | none => none
  | none => none

/-- A departure: a stop at the newest position (R115). -/
def depart (i : Fin 3) (s : State) : State := applyStop i s.counter.newest s

/-- The announcement differs from the identity of the take in the slot and does not precede it (R115). -/
def showsDeparture (a : Announced) (i : Fin 3) (s : State) : Bool :=
  match s.takes.slots[i] with
  | some t => a.identity != t.identity && !precedes s.day a.identity t.identity
  | none => false

/-- The departing announcement against the stopped take: with a start after its stop it is a new take, and otherwise nothing
further happens (R115). So it goes also when Q is 0 and the stopped take is CLOSING, where R111 would reach IDLE: DESIGN CHOICE,
notes/assumptions/28.md. -/
def afterDeparture (p : Fin 8) (a : Announced) (i : Fin 3) (s : State) : State :=
  if isLater s.day a.identity.start s.counter.newest then newTake p a i s else s

/-- The identity is the open take's or the pending start's (R111 step 3). -/
def isHeldIdentity (x : Identity) (s : State) : Bool :=
  (openTake s).map Take.identity == some x || s.takes.pendingStart.map PendingStart.identity == some x

/-- A STATUS of a followed peer taken by the take engine (R111). -/
def takeAnnouncement (p : Fin 8) (f : StatusFields) (s : State) : State :=
  match announcedTake s.day f with
  | none =>
    match departing p s with
    | some i => depart i s
    | none => s
  | some a =>
    if s.takes.closed.contains a.identity then s
    else if a.identity.origin = s.port.station.val ∧ isHeldIdentity a.identity s = false then s
    else
      match departing p s with
      | some i => if showsDeparture a i s then afterDeparture p a i (depart i s) else meetAnnouncement p a s
      | none => meetAnnouncement p a s

/-! ## A received frame (R97, R98) -/

/-- A STATUS frame from a peer, after its entry has become PRESENT: the entry, the take engine, the note store. R98 lets either
of the last two take it up first: the take engine does, and the NOTE REQUEST of the note store is queued before the STATUS that
the end of the event requests: DESIGN CHOICE, notes/assumptions/31.md. -/
def takeStatus (p : Fin 8) (payload : List Byte) (arrival : Nat) (s : State) : State :=
  let f := readStatusPayload payload
  let s1 := applyStatus p f arrival s
  let s2 := if followed s1 p then takeAnnouncement p f s1 else s1
  testCatchUp p f.highWater s2

/-- A NOTE frame from a peer: the run number acts on the entry, then the note store takes the note (R98, R102, R138). -/
def takeNote (p : Fin 8) (payload : List Byte) (s : State) : State :=
  takePeerNote p payload (applyRun p (field payload 0 2) s)

/-- A valid frame handed on by kind (R98). -/
def handOn (kind : Byte) (p : Fin 8) (payload : List Byte) (arrival : Nat) (s : State) : State :=
  match kind.toNat with
  | 1 => takeStatus p payload arrival s
  | 2 => takeNote p payload s
  | 3 => takeRequest payload s
  | _ => takeGone p payload s

/-- A complete frame of this arrival position processed: a receive error, a station clash, or a peer frame (R97, R98). -/
def processFrame (kind : Byte) (f : HeardFrame) (arrival : Nat) (s : State) : State :=
  if !frameValid kind f then countError s
  else if f.sender.toNat = s.port.station.val then stationClash s
  else
    let p : Fin 8 := Fin.ofNat 8 f.sender.toNat
    handOn kind p f.payload arrival (peerHeard p s)

end Sys2Proof.Machine
end

