-- ==== Sys2Proof/Machine/Reception.lean ====
section
/-! DEFINITION. How a frame is heard and how the line's IDLE ends it: what these do before the writer and the announcement close
the event (R84, R96 to R98). -/

namespace Sys2Proof.Machine

open Sys2Proof

/-! ## The line's IDLE (R84, R96) -/

/-- A complete frame's bytes as the frame and its kind byte (R85). -/
def heardFrame (bytes : List Byte) : Byte × HeardFrame :=
  let n := field bytes 3 1
  (byte (field bytes 1 1),
    { sender := byte (field bytes 2 1), payload := (bytes.drop 4).take n, check := BitVec.ofNat 16 (field bytes (4 + n) 2) })

/-- What the receiver does with the frame in hand when the line becomes IDLE: a whole frame is processed, a truncated one is a
receive error, and the next start bit begins a frame (R84, R96). -/
def endReception (s : State) : State :=
  let s1 := { s with link := { s.link with receiver := .ready } }
  match s.link.receiver with
  | .taking arrival bytes =>
    if takenComplete bytes then processFrame (heardFrame bytes).1 (heardFrame bytes).2 arrival s1
    else countError s1
  | .within _ _ => countError s1
  | _ => s1

/-- The line is IDLE from now; a station in WAIT IDLE begins its deferral (R84, R89). -/
def becomeIdle (s : State) : State :=
  let s1 := advanceTime (s.link.restFrom + Config.idleTime) s
  { s1 with
    link :=
      { s1.link with
        line := .idle, idleFrom := s1.time
        tx := if s1.link.tx = .waitIdle then .defer else s1.link.tx } }

/-- The line may become IDLE: in RUN, while it is not and this station does not drive it (R84). -/
def mayRest (s : State) : Bool := s.inRun && s.link.line != .idle && s.link.tx != .send

/-! ## A whole frame (R84, R85, R89, R96 to R98) -/

/-- The bytes of a complete frame on the line (R85). -/
def frameBytesOf (kind : Byte) (f : HeardFrame) : List Byte :=
  byte Config.preamble :: kind :: f.sender :: byte f.payload.length :: f.payload ++ be 2 f.check.toNat

/-- The receiver can come to hear this whole frame: in RUN, this station not driving, and the bytes heard so far, from the first
start bit after an IDLE on, are the frame's first bytes (R84, R96). -/
def canHear (kind : Byte) (f : HeardFrame) (s : State) : Bool :=
  s.inRun && s.link.tx != .send &&
    match s.link.receiver with
    | .waiting => false
    | .ready => true
    | .taking _ bytes => bytes.isPrefixOf (frameBytesOf kind f)
    | .within _ bytes => bytes.isPrefixOf (frameBytesOf kind f)
    | .echo bytes => bytes == frameBytesOf kind f

/-- The frame's bytes heard up to its last stop bit, the arrival position latched at the first start bit; of an own echo every
byte has been heard (R84, R89, R96, R98). -/
def hearFrame (kind : Byte) (f : HeardFrame) (s : State) : State :=
  let bytes := frameBytesOf kind f
  let after : Nat × Receiver :=
    match s.link.receiver with
    | .taking arrival taken => (bytes.length - taken.length, .taking arrival bytes)
    | .within arrival taken => (bytes.length - taken.length, .taking arrival bytes)
    | .echo own => (0, .echo own)
    | _ => (bytes.length, .taking s.counter.newest bytes)
  { s with
    link :=
      { s.link with
        line := .busy, restFrom := restAfter after.1 s, receiver := after.2
        tx := if s.link.tx = .defer then .waitIdle else s.link.tx } }

end Sys2Proof.Machine
end

