-- ==== Sys2Proof/Machine/Settle.lean ====
section
/-! DEFINITION. The end of an event: the writer's accounts, the announcement of a change, and the writer's decision (R95, R160,
R164). -/

namespace Sys2Proof.Machine

open Sys2Proof

/-- The end of an event that may change what is announced or what the writer may do: the writer's accounts, a STATUS request
when the announced state changed, and the writer's decision (R95, R160, R164, R174). The decision is over every request there is,
an index request that the event itself gives among them, whatever command waits next: notes/assumptions/22.md. -/
def finish (before after : State) : State := makeDecision (announceChange before (settle after))

end Sys2Proof.Machine
end

