-- ==== Sys2Proof/Machine/FrameEvents.lean ====
section
/-! DEFINITION. The meanings of the commands of the sample path and the clock: FRAME_ARRIVAL and the arrivals at which something
falls due, PENDING_START_PROMOTION, CLOCK_LOST, REFERENCE_PULSE, and power-on and the RESET line. -/

namespace Sys2Proof.Machine

open Sys2Proof

/-! ## Power-on and the RESET line (R188) -/

/-- Every block at its power-on state, the station number sampled from the strap pins, and a command message being received
discarded (R188). The two fields that are the model's own stay. -/
def restart (strap : Fin 8) (s : State) : State :=
  { State.resetAt strap with
    port := { (State.resetAt strap).port with selection := s.port.selection.discard }
    orders := s.orders, pending := s.pending }

/-- POWER_ON (R188). -/
def execPowerOn (strap : Fin 8) (s : State) : Host.Outcome State Fault Refusal := .next (restart strap s)

/-- RESET: the RESET line acts exactly as power-on (R188). -/
def execReset (strap : Fin 8) (s : State) : Host.Outcome State Fault Refusal := .next (restart strap s)

/-! ## The arrival of a frame (R25, R31, R32, R6, R145, R44) -/

/-- The stamping of a frame: the newest position advances by one, the loss timer restarts, and a loss ends with CLOCK BACK (R25,
R31, R32). -/
def stampFrame (s : State) : State :=
  raiseIf (s.counter.clock == .lost) .clockBack
    { s with
      counter :=
        { s.counter with
          newest := posAdd s.day s.counter.newest 1, clock := .running, lossTimer := some s.time, frameSeen := true } }

/-- The cue examined against the newest position: at its position it is cleared and makes its request (R39). -/
def fireCue (s : State) : State :=
  match s.counter.cue with
  | some q =>
    if q.pos = s.counter.newest then cueRequest q.kind { s with counter := { s.counter with cue := none } } else s
  | none => s

/-- A stamped frame in RUN: the take engine's arrivals and the promotion test, the cue, the conversion, the mix, the ring (R25,
R60, R39, R6, R145, R44). A promotion left until the ring has taken the frame comes last (R46). -/
def runFrame (f : FrameIn) (s : State) : State :=
  let s1 := fireCue (promoteAtStamp (takeArrival s))
  let conv := convertAll s1 f
  let r := mixFrame conv (convertFrame conv s1)
  promote .afterFrame
    (offerFrame { pos := s1.counter.newest, words := frameWords conv, mix := r.2, clips := frameClips conv } r.1)

/-- The arrival of a frame. In SETUP the stamp is the whole of what happens, and the mix output port sends 0 (R25, R147). -/
def arriveFrame (f : FrameIn) (s : State) : State :=
  if s.inRun then finish s (runFrame f (stampFrame s)) else sendMix 0 (stampFrame s)

/-- FRAME_ARRIVAL (R25). -/
def execFrameArrival (f : FrameIn) (s : State) : Host.Outcome State Fault Refusal := .next (arriveFrame f s)

/-! ## Arrivals at which a condition falls due

Each of these rows names the arrival of a frame at which its condition comes about. When the condition does not come about
at the next arrival the event does not occur, and nothing changes: notes/assumptions/4.md. -/

/-- The quiet count of this DUAL track in LOW reaches 64 with this frame (R9). -/
def returnDue (track : Nat) (f : FrameIn) (s : State) : Bool :=
  match trackIndex track with
  | none => false
  | some i =>
    s.inRun && s.front.tracks[i].kind == .dual && s.front.tracks[i].path == .low &&
      decide (readingMag f[i].h < Config.quietLevel) && decide (Config.quietFrames ≤ s.front.tracks[i].quiet + 1)

/-- RETURN_TO_HIGH: the arrival of the 64th quiet frame of a DUAL track in LOW (R9). -/
def execReturnToHigh (track : Nat) (f : FrameIn) (s : State) : Host.Outcome State Fault Refusal :=
  .next (if returnDue track f s then arriveFrame f s else s)

/-- The next frame is stamped with the cue's position, in RUN (R39). -/
def cueDue (s : State) : Bool :=
  s.inRun && (s.counter.cue.map Cue.pos == some (posAdd s.day s.counter.newest 1))

/-- CUE_FIRE: the arrival of the frame stamped with the cue's position (R39). -/
def execCueFire (f : FrameIn) (s : State) : Host.Outcome State Fault Refusal :=
  .next (if cueDue s then arriveFrame f s else s)

/-- Some slot meets p. -/
def someSlot (p : Take → Bool) (s : State) : Bool :=
  (s.takes.slots[0].map p).getD false || (s.takes.slots[1].map p).getD false || (s.takes.slots[2].map p).getD false

/-- The next frame is at an awaited stop's position, in RUN (R69). -/
def awaitedStopDue (s : State) : Bool := s.inRun && someSlot (awaitedDue (stampFrame s)) s

/-- AWAITED_STOP: the arrival of the frame at an awaited stop's position (R69). -/
def execAwaitedStop (f : FrameIn) (s : State) : Host.Outcome State Fault Refusal :=
  .next (if awaitedStopDue s then arriveFrame f s else s)

/-- The next frame completes the post-roll of a POST slot, in RUN (R70). -/
def postRollCompleteDue (s : State) : Bool := s.inRun && someSlot (postRollDue (stampFrame s)) s

/-- POST_ROLL_COMPLETE: the arrival of the frame at E + Q (R70). -/
def execPostRollComplete (f : FrameIn) (s : State) : Host.Outcome State Fault Refusal :=
  .next (if postRollCompleteDue s then arriveFrame f s else s)

/-- The next frame is at the half-day limit of a ROLLING slot or of a Reached pending start, in RUN (R60, R68). -/
def halfDayStopDue (s : State) : Bool :=
  s.inRun && (someSlot (halfDayDue (stampFrame s)) s ||
    (s.takes.pendingStart.map (pendingLimitDue (stampFrame s))).getD false)

/-- HALF_DAY_STOP: the arrival of the frame at Sr + D/2 - Q, or at S + D/2 - Q of a pending start (R60, R68). -/
def execHalfDayStop (f : FrameIn) (s : State) : Host.Outcome State Fault Refusal :=
  .next (if halfDayStopDue s then arriveFrame f s else s)

/-- The next frame is the block-end frame, in RUN with the mix enabled (R144). -/
def blockEndDue (s : State) : Bool := s.inRun && mixIsEnabled s && decide (Config.mixBlock ≤ s.mixer.blockCount + 1)

/-- BLOCK_END: the arrival of the 64th frame of a mix block (R144, R145, R151). -/
def execBlockEnd (f : FrameIn) (s : State) : Host.Outcome State Fault Refusal :=
  .next (if blockEndDue s then arriveFrame f s else s)

/-- PENDING_START_PROMOTION: the promotion test of R60. In a state in which it does not pass nothing changes. -/
def execPendingStartPromotion (s : State) : Host.Outcome State Fault Refusal :=
  .next (if s.inRun && promotionDue s then finish s (promote .afterFrame s) else s)

/-! ## The clock monitor and the reference pulse (R31, R33, R34) -/

/-- CLOCK_LOST: the loss timer runs out in RUNNING (R31). In LOST it is not running and nothing changes. -/
def execClockLost (s : State) : Host.Outcome State Fault Refusal :=
  .next
    (if s.counter.clock = .running then
      raise .clockLost
        { advanceTime (s.counter.lossTimer.getD s.time + Config.lossTime) s with
          counter := { s.counter with clock := .lost, lossTimer := none } }
    else s)

/-- A reference pulse is checked when its four conditions hold (R33). -/
def pulseChecked (s : State) : Bool :=
  s.inRun && s.counter.refCheck && s.counter.clock == .running && s.counter.frameSeen

/-- The magnitude of the signed distance of an in-frame offset from the nearest frame boundary (R34). -/
def pulseDistance (spf offset : Nat) : Nat := if offset ≤ spf / 2 then offset else spf - offset

/-- A reference pulse (R33, R34). -/
def referencePulse (s : State) : State :=
  if pulseChecked s then
    let spf := samplesPerFrame s.counter.sampleRate s.counter.tcRate
    let offset := s.counter.newest % spf
    let s1 := { s with counter := { s.counter with refOffset := offset } }
    if s.counter.refTolerance < pulseDistance spf offset then
      raise .refDrift { s1 with counter := { s1.counter with drift := satAdd Config.max16 s.counter.drift 1 } }
    else s1
  else s

/-- REFERENCE_PULSE (R34). -/
def execReferencePulse (s : State) : Host.Outcome State Fault Refusal := .next (referencePulse s)

end Sys2Proof.Machine
end

