-- ==== Sys2Proof/Machine/HostConfig.lean ====
section
/-! DEFINITION. The meanings of the host's configuration commands and of the commands that set operating values: CONFIGURE CLOCK
to COMMIT, SET TRIM to SET NEXT TAKE, JAM TIMECODE (chapters 1, 2, 4, 8, 10). -/

namespace Sys2Proof.Machine

open Sys2Proof

/-- CONFIGURE CLOCK's checks and action (R28). -/
def configureClock (a : ClockArgs) (s : State) : State :=
  match sampleRateOf a.rate, tcRateOf a.tc, onOff a.check with
  | some rate, some tc, some check =>
    if a.tolerance ≤ 255 then
      let base := { s.counter with sampleRate := rate, tcRate := tc, refCheck := check, refTolerance := a.tolerance }
      respond .ok []
        { s with
          counter :=
            if rate = s.counter.sampleRate then base
            else { base with newest := 0, refOffset := 0, frameSeen := false } }
    else respond .badValue [] s
  | _, _, _ => respond .badValue [] s

/-- CONFIGURE CLOCK (R28). -/
def execConfigureClock (args : List Byte) (s : State) : Host.Outcome State Fault Refusal :=
  .next (hostCommand .setupOnly (readClockArgs args) configureClock s)

/-- CONFIGURE TRACK's checks and action (R5). -/
def configureTrack (a : TrackArgs) (s : State) : State :=
  match trackIndex a.track, channelKindOf a.kind, onOff a.mix with
  | some i, some kind, some mix =>
    if 3 ≤ a.k ∧ a.k ≤ 6 ∧ a.partner ≤ 16 ∧ a.partner ≠ a.track then
      respond .ok []
        { s with
          front :=
            { s.front with
              tracks :=
                s.front.tracks.set i
                  { s.front.tracks[i] with
                    kind := kind, k := a.k, mixEnable := mix, partner := if a.partner = 0 then none else some a.partner } } }
    else respond .badValue [] s
  | _, _, _ => respond .badValue [] s

/-- CONFIGURE TRACK (R5). -/
def execConfigureTrack (args : List Byte) (s : State) : Host.Outcome State Fault Refusal :=
  .next (hostCommand .setupOnly (readTrackArgs args) configureTrack s)

/-- CONFIGURE CAPTURE's checks and action (R179, R53, R68). -/
def configureCapture (a : CaptureArgs) (s : State) : State :=
  match roundingOf a.rounding with
  | some mode =>
    if a.mask < 256 ∧ a.tolerance ≤ 255 then
      respond .ok []
        { s with
          front := { s.front with rounding := mode }
          takes :=
            { s.takes with
              preRoll := min a.preRoll Config.maxPreRoll
              postRoll := min a.postRoll Config.maxPostRoll
              followMask := BitVec.ofNat 8 a.mask }
          link := { s.link with tolerance := a.tolerance } }
    else respond .badValue [] s
  | none => respond .badValue [] s

/-- CONFIGURE CAPTURE (R179). -/
def execConfigureCapture (args : List Byte) (s : State) : Host.Outcome State Fault Refusal :=
  .next (hostCommand .setupOnly (readCaptureArgs args) configureCapture s)

/-- CONFIGURE MEDIA's checks and action (R157). -/
def configureMedia (a : Nat × Nat) (s : State) : State :=
  if a.1 ≤ a.2 ∧ a.2 ≤ Config.max32 then respond .ok [] { s with writer := { s.writer with range := some a } }
  else respond .badValue [] s

/-- CONFIGURE MEDIA (R157). -/
def execConfigureMedia (args : List Byte) (s : State) : Host.Outcome State Fault Refusal :=
  .next (hostCommand .setupOnly (readMediaArgs args) configureMedia s)

/-- SET RUN NUMBER's check and action (R104). -/
def setRunNumber (n : Nat) (s : State) : State :=
  if n ≤ Config.max16 then respond .ok [] { s with link := { s.link with run := n } } else respond .badValue [] s

/-- SET RUN NUMBER (R104). -/
def execSetRunNumber (args : List Byte) (s : State) : Host.Outcome State Fault Refusal :=
  .next (hostCommand .setupOnly (readNumber 4 args) setRunNumber s)

/-- COMMIT finds the configuration ready: a card range of at least 128 blocks and an enabled track (R180). -/
def commitReady (s : State) : Bool :=
  match s.writer.range with
  | some r => decide (Config.minBlocks ≤ r.2 + 1 - r.1) && !(enabledTracks s).isEmpty
  | none => false

/-- The run entered: phase, cursor and space state, line BUSY with a byte already on it counted, announce timer, first STATUS
(R180, R84, R95). -/
def enterRun (s : State) : State :=
  requestStatus
    (setSpace
      { s with
        port := { s.port with phase := .run }
        writer := { s.writer with cursor := s.writer.range.map Prod.fst }
        link := { s.link with line := .busy, restFrom := max s.link.restFrom s.time, receiver := .waiting, announce := some s.time } })

/-- COMMIT's check and action (R180). -/
def commit (_ : Unit) (s : State) : State :=
  if commitReady s then respond .ok [] (enterRun s) else respond .incomplete [] s

/-- COMMIT (R180). -/
def execCommit (args : List Byte) (s : State) : Host.Outcome State Fault Refusal :=
  .next (hostCommand .setupOnly (noArgs args) commit s)

/-- SET TRIM's check and action (R11). -/
def setTrim (a : Nat × Nat) (s : State) : State :=
  match trackIndex a.1 with
  | some i =>
    respond .ok []
      { s with front := { s.front with tracks := s.front.tracks.set i { s.front.tracks[i] with trim := a.2 } } }
  | none => respond .badValue [] s

/-- SET TRIM (R11). -/
def execSetTrim (args : List Byte) (s : State) : Host.Outcome State Fault Refusal :=
  .next (hostCommand .both (readTrimArgs args) setTrim s)

/-- A value brought within a range. -/
def clamp (lo hi v : Nat) : Nat := max lo (min hi v)

/-- Gate settings brought within their ranges, in the order of R153. -/
def normalGate (g : GateSettings) : GateSettings :=
  let openT := clamp 1 65535 g.openThreshold
  let sustain := min 4096 g.sustain
  { openThreshold := openT
    closeThreshold := min openT (clamp 1 65535 g.closeThreshold)
    closeHold := min 255 g.closeHold
    attack := clamp 1 4096 g.attack
    decay := clamp 1 4096 g.decay
    release := clamp 1 4096 g.release
    sustain := sustain
    duck := min sustain (min 4096 g.duck) }

/-- SET GATE's check and action (R153). -/
def setGate (a : Nat × GateSettings) (s : State) : State :=
  match trackIndex a.1 with
  | some i =>
    respond .ok []
      { s with
        mixer :=
          { s.mixer with tracks := s.mixer.tracks.set i { s.mixer.tracks[i] with settings := normalGate a.2 } } }
  | none => respond .badValue [] s

/-- SET GATE (R153). -/
def execSetGate (args : List Byte) (s : State) : Host.Outcome State Fault Refusal :=
  .next (hostCommand .both (readGateArgs args) setGate s)

/-- SET SCENE's action (R80). -/
def setScene (name : Text) (s : State) : State :=
  announceChange s (respond .ok [] { s with takes := { s.takes with scene := normalScene name, nextTake := 1 } })

/-- SET SCENE (R80). -/
def execSetScene (args : List Byte) (s : State) : Host.Outcome State Fault Refusal :=
  .next (hostCommand .both (readSceneArgs args) setScene s)

/-- SET NEXT TAKE's action (R81). -/
def setNextTake (n : Nat) (s : State) : State :=
  announceChange s (respond .ok [] { s with takes := { s.takes with nextTake := clamp 1 999 n } })

/-- SET NEXT TAKE (R81). -/
def execSetNextTake (args : List Byte) (s : State) : Host.Outcome State Fault Refusal :=
  .next (hostCommand .both (readNumber 2 args) setNextTake s)

/-- Some take slot is not EMPTY or a pending start exists (R36). -/
def captureInHand (s : State) : Bool :=
  s.takes.slots[0].isSome || s.takes.slots[1].isSome || s.takes.slots[2].isSome || s.takes.pendingStart.isSome

/-- A jam to position J: counter, ring and cue together (R37). -/
def jamTo (j : Nat) (s : State) : State :=
  emptyRing { s with counter := { s.counter with newest := posSub s.day j 1, frameSeen := false, cue := none } }

/-- JAM TIMECODE's checks and action (R36). -/
def jamTimecode (a : Nat × Nat × Nat × Nat) (s : State) : State :=
  let (hh, mm, ss, ff) := a
  if hh ≤ 23 ∧ mm ≤ 59 ∧ ss ≤ 59 ∧ ff < s.counter.tcRate.fps then
    if s.inRun && captureInHand s then respond .busy [] s
    else respond .ok [] (jamTo (timecodePosition s.counter.sampleRate s.counter.tcRate hh mm ss ff) s)
  else respond .badValue [] s

/-- JAM TIMECODE (R36). -/
def execJamTimecode (args : List Byte) (s : State) : Host.Outcome State Fault Refusal :=
  .next (hostCommand .both (readJamArgs args) jamTimecode s)

end Sys2Proof.Machine
end

