-- ==== Sys2Proof/Machine/HostRead.lean ====
section
/-! DEFINITION. The meanings of the read commands, the notice commands and the port's own events: what each read returns, field by
field in the order of its rule, in the widths of R194 (chapter 10, R181, R182, R186, R177, R193). -/

namespace Sys2Proof.Machine

open Sys2Proof

/-- A list preceded by its length in one byte (R193, R194). -/
def listBytes {α : Type} (l : List α) (f : α → List Byte) : List Byte := be 1 l.length ++ l.flatMap f

/-! ## READ STATUS (R181) -/

/-- A pending start record: label, origin, S, source, Reached. -/
def pendingBytes (p : PendingStart) : List Byte :=
  labelBytes p.label ++ be 1 p.origin ++ be 5 p.start ++ be 1 p.source.code ++ flagByte p.reached

/-- The part ENGINE. The pending start record has one presence byte: DESIGN CHOICE, notes/assumptions/25.md. -/
def enginePart (s : State) : List Byte :=
  flagByte s.inRun ++ be 1 (enginePhase s).code ++ sceneBytes s.takes.scene ++ be 2 s.takes.nextTake ++
    be 4 s.takes.serial ++ optional 22 (s.takes.pendingStart.map pendingBytes) ++ listBytes s.takes.closed identityBytes ++
    be 4 s.takes.preRoll ++ be 4 s.takes.postRoll ++ be 1 s.front.rounding.code ++ be 1 s.takes.followMask.toNat ++
    be 1 s.mixer.blockCount ++ be 4 s.mixer.clips

/-- The cue entry: kind and position. -/
def cueBytes (q : Cue) : List Byte := be 1 q.kind.code ++ be 5 q.pos

/-- The part CLOCK. The cue's kind and position share one presence byte: DESIGN CHOICE, notes/assumptions/25.md. -/
def clockPart (s : State) : List Byte :=
  let n := s.counter
  let (hh, mm, ss, ff, off) := timecode n.sampleRate n.tcRate n.newest
  be 1 n.sampleRate.code ++ be 1 n.tcRate.code ++ flagByte n.refCheck ++ be 1 n.refTolerance ++ be 5 n.newest ++
    be 1 hh ++ be 1 mm ++ be 1 ss ++ be 1 ff ++ be 2 off ++ flagByte (n.clock == .lost) ++ be 2 n.refOffset ++
    be 4 n.drift ++ optional 6 (n.cue.map cueBytes)

/-- The part RING. -/
def ringPart (s : State) : List Byte :=
  be 4 s.ring.frames.length ++ optional 5 (s.ring.frames.head?.map fun f => be 5 f.pos) ++
    optional 5 (s.ring.frames.getLast?.map fun f => be 5 f.pos) ++ be 4 (protectedCount s) ++ be 4 s.ring.discards

/-- The part LINK. -/
def linkPart (s : State) : List Byte :=
  let k := s.link.counts
  be 1 s.port.station.val ++ be 2 s.link.run ++ flagByte s.link.listenOnly ++ be 1 s.link.tolerance ++
    be 1 s.link.tx.code ++ be 1 s.link.queue.length ++ flagByte s.link.owed ++ be 4 k.sent ++ be 4 k.collisions ++
    be 4 k.dropped ++ be 4 k.refused ++ be 4 k.received ++ be 4 k.errors ++ be 4 k.clashes

/-- The part NOTES. The number of notes held takes 4 bytes, as a count does: DESIGN CHOICE, notes/assumptions/26.md. -/
def notesPart (s : State) : List Byte :=
  be 4 s.store.notes.length ++ be 2 s.store.seq ++ be 4 s.store.duplicates ++ be 4 s.store.refused ++
    be 4 s.store.rejected ++ be 4 s.store.lost

/-- The write in flight: address, kind, first or retry mark, whether stale. -/
def writeBytes (w : Write) : List Byte :=
  be 5 w.addr ++ be 1 w.content.code ++ flagByte (w.attempt == .retry) ++ flagByte w.stale

/-- The part MEDIA. First and last address, remaining count and space state have a presence byte each, the write in flight has one
for all it holds: DESIGN CHOICE, notes/assumptions/25.md. -/
def mediaPart (s : State) : List Byte :=
  optional 5 (s.writer.range.map fun r => be 5 r.1) ++ optional 5 (s.writer.range.map fun r => be 5 r.2) ++
    optional 5 (s.writer.cursor.map (be 5)) ++ optional 5 ((remaining s).map (be 5)) ++
    optional 1 (s.writer.space.map fun x => be 1 x.code) ++ be 1 s.writer.capture.code ++
    listBytes s.writer.skipped (be 4) ++ be 4 s.writer.unlisted ++ be 4 s.writer.failed ++
    optional 8 (s.writer.inFlight.map writeBytes) ++ optional 1 (s.writer.held.map fun x => be 1 x.code)

/-- The eight gate settings (R153, R194). -/
def gateBytes (g : GateSettings) : List Byte :=
  be 2 g.openThreshold ++ be 2 g.closeThreshold ++ be 1 g.closeHold ++ be 2 g.attack ++ be 2 g.decay ++
    be 2 g.release ++ be 2 g.sustain ++ be 2 g.duck

/-- The part TRACK. -/
def trackPart (s : State) (i : Fin 16) : List Byte :=
  let t := s.front.tracks[i]
  let m := s.mixer.tracks[i]
  be 1 t.kind.code ++ be 1 t.k ++ flagByte t.mixEnable ++ be 1 (t.partner.getD 0) ++ flagByte (mixEnabled s i) ++
    be 2 t.trim ++ flagByte (t.path == .low) ++ be 1 t.quiet ++ gateBytes m.settings ++
    flagByte (m.gate == .opened) ++ be 1 m.hold ++ be 1 m.envelope.code ++ be 2 m.gain

/-- The data of READ STATUS for a part and track, none when either is out of range (R181). -/
def statusPart (s : State) (part track : Nat) : Option (List Byte) :=
  match part with
  | 1 => some (enginePart s)
  | 2 => some (clockPart s)
  | 3 => some (ringPart s)
  | 4 => some (linkPart s)
  | 5 => some (notesPart s)
  | 6 => some (mediaPart s)
  | 7 => (trackIndex track).map (trackPart s)
  | _ => none

/-- A read answered OK with its data, or BAD VALUE when what it names is out of range (R181). -/
def answerRead (data : Option (List Byte)) (s : State) : State :=
  match data with
  | some d => respond .ok d s
  | none => respond .badValue [] s

/-- READ STATUS (R181). -/
def execReadStatus (args : List Byte) (s : State) : Host.Outcome State Fault Refusal :=
  .next (hostCommand .both (readPartArgs args) (fun a s => answerRead (statusPart s a.1 a.2) s) s)

/-! ## READ SLOT, READ PEER, READ NOTE, READ CLIP, READ NOTICES (R182, R129) -/

/-- A slot number 1 to 3 as a slot index. -/
def slotIndex (n : Nat) : Option (Fin 3) := if h : 1 ≤ n ∧ n ≤ 3 then some ⟨n - 1, by omega⟩ else none

/-- The data of READ SLOT (R182, R193). -/
def slotData (s : State) (i : Fin 3) : List Byte :=
  match s.takes.slots[i] with
  | none => be 1 (slotCode none)
  | some t =>
    be 1 (slotCode (some t)) ++ indexBytes (wordCount s) t ++ flagByte t.e.isSome ++ flagByte t.z.isSome ++
      be 5 t.next ++ be 5 t.watch ++ flagByte t.indexIssued ++ flagByte (audioOutstanding s i)

/-- READ SLOT (R182). -/
def execReadSlot (args : List Byte) (s : State) : Host.Outcome State Fault Refusal :=
  .next (hostCommand .both (readNumber 1 args) (fun n s => answerRead ((slotIndex n).map (slotData s)) s) s)

/-- Milliseconds elapsed since a time (R194). A part of a millisecond is dropped, and a read gives them modulo 2^32, the 4 bytes
of R194: DESIGN CHOICE, notes/assumptions/29.md. -/
def elapsedMs (s : State) (t : Nat) : Nat := (s.time - t) / 1000

/-- The data of READ PEER (R182, R100). -/
def peerData (s : State) (p : Fin 8) : List Byte :=
  if p = s.port.station then be 1 2 ++ be 2 s.link.run ++ statusBytes (ownStatus s)
  else
    let e := s.link.peers[p]
    flagByte e.present ++ optional 4 (e.heardAt.map fun t => be 4 (elapsedMs s t)) ++ optional 2 (e.run.map (be 2)) ++
      optional 40 (e.status.map statusBytes) ++ optional 1 (e.compat.map fun x => be 1 x.code) ++
      optional 5 (e.offset.map (signedBytes 5)) ++ be 2 e.heardUpTo ++
      optional 4 (e.lastRequest.map fun t => be 4 (elapsedMs s t))

/-- A station number 0 to 7. -/
def stationIndex (n : Nat) : Option (Fin 8) := if h : n < 8 then some ⟨n, h⟩ else none

/-- READ PEER (R182). -/
def execReadPeer (args : List Byte) (s : State) : Host.Outcome State Fault Refusal :=
  .next (hostCommand .both (readNumber 1 args) (fun n s => answerRead ((stationIndex n).map (peerData s)) s) s)

/-- The data of READ NOTE: a note record, then its write state (R129, R194). -/
def noteData (x : StoredNote) : List Byte := noteRecord x.note ++ be 1 x.state.code

/-- READ NOTE (R129). -/
def execReadNote (args : List Byte) (s : State) : Host.Outcome State Fault Refusal :=
  .next (hostCommand .both (readNumber 2 args) (fun n s => answerRead (s.store.notes[n]?.map noteData) s) s)

/-- A clip source: the track number, or 0 for MIX (R194). -/
def ClipSource.code : ClipSource → Nat
  | .track n => n
  | .mix => 0

/-- The first-clip record: source, serial or none, position (R22). -/
def firstClipBytes (x : FirstClip) : List Byte :=
  be 1 x.source.code ++ optional 4 (x.serial.map (be 4)) ++ be 5 x.pos

/-- The data of READ CLIP (R182). The record has one presence byte: DESIGN CHOICE, notes/assumptions/25.md. -/
def clipData (s : State) : List Byte := flagByte s.front.clipFlag ++ optional 11 (s.front.firstClip.map firstClipBytes)

/-- READ CLIP (R182). -/
def execReadClip (args : List Byte) (s : State) : Host.Outcome State Fault Refusal :=
  .next (hostCommand .both (noArgs args) (fun _ s => answerRead (some (clipData s)) s) s)

/-- The data of READ NOTICES: the pending set and the mask (R182, R193). -/
def noticeData (s : State) : List Byte := be 4 s.notices.pending.toNat ++ be 4 s.notices.mask.toNat

/-- READ NOTICES (R182). -/
def execReadNotices (args : List Byte) (s : State) : Host.Outcome State Fault Refusal :=
  .next (hostCommand .both (noArgs args) (fun _ s => answerRead (some (noticeData s)) s) s)

/-! ## SET NOTICE MASK and ACK NOTICES (R186, R187) -/

/-- SET NOTICE MASK's check and action (R186). -/
def setNoticeMask (v : Nat) (s : State) : State :=
  match noticeSetOf v with
  | some set => respond .ok [] { s with notices := noticeUnit s.notices.pending set }
  | none => respond .badValue [] s

/-- SET NOTICE MASK (R186). -/
def execSetNoticeMask (args : List Byte) (s : State) : Host.Outcome State Fault Refusal :=
  .next (hostCommand .both (readNumber 4 args) setNoticeMask s)

/-- ACK NOTICES' check and action (R186). -/
def ackNotices (v : Nat) (s : State) : State :=
  match noticeSetOf v with
  | some set => respond .ok [] { s with notices := noticeUnit (s.notices.pending &&& ~~~set) s.notices.mask }
  | none => respond .badValue [] s

/-- ACK NOTICES (R186). -/
def execAckNotices (args : List Byte) (s : State) : Host.Outcome State Fault Refusal :=
  .next (hostCommand .both (readNumber 4 args) ackNotices s)

/-! ## The port's own events (R177, R193) -/

/-- The host selects the port: a message begins (R177). -/
def State.select (s : State) : State := { s with port := { s.port with selection := .receiving [] } }

/-- A byte comes in a selection. When it makes a message complete, the command or response read joins the queue, and what
follows in the selection is no command; no byte is received outside a selection (R177, R193). -/
def State.hostByte (s : State) (b : Byte) : State :=
  match s.port.selection with
  | .receiving bytes =>
    if isPartialMessage (bytes ++ [b]) then { s with port := { s.port with selection := .receiving (bytes ++ [b]) } }
    else { s with port := { s.port with selection := .spent }, pending := s.pending ++ [readMessage (bytes ++ [b])] }
  | _ => s

/-- The host releases the port: a message not complete by then is discarded (R177). -/
def State.release (s : State) : State :=
  let s1 := { s with port := { s.port with selection := .released } }
  match s.port.selection with
  | .receiving bytes => { s1 with pending := s.pending ++ [.selectionReleased bytes] }
  | _ => s1

/-- A whole selection with no event between its bytes: the command, response read or release that they are joins the queue (R177,
R193). -/
def State.deliver (s : State) (bytes : List Byte) : State := (bytes.foldl State.hostByte s.select).release

/-- UNKNOWN_COMMAND: a message whose code names no command is answered UNKNOWN. A code that names a command, and the 0x00 of a
response read, are no unknown command: that event does not occur (R177). -/
def execUnknownCommand (code : Byte) (_args : List Byte) (s : State) : Host.Outcome State Fault Refusal :=
  .next (if namesNoCommand code then respond .unknown [] s else s)

/-- RESPONSE_READ: the port clocks out the held response, or the empty response. No rule takes the held response away at a read:
DEDUCED, notes/assumptions/6.md (R177, R193). -/
def execResponseRead (s : State) : Host.Outcome State Fault Refusal :=
  .next { s with port := { s.port with output := responseBytes s.port.response } }

/-- SELECTION_RELEASED: the bytes of a partial command are discarded, without a response, and the held response is kept
(R177). -/
def execSelectionReleased (_received : List Byte) (s : State) : Host.Outcome State Fault Refusal := .next s

end Sys2Proof.Machine
end

