-- ==== Sys2Proof/Machine/HostRun.lean ====
section
/-! DEFINITION. The meanings of the commands of a run: START, STOP, the record key, ADD NOTE, the cue, CLEAR CLIP, MEDIA RETRY,
CAPTURE RESTART (chapters 1, 2, 4, 7, 9, 10). -/

namespace Sys2Proof.Machine

open Sys2Proof

/-! ## Starts and stops (R61 to R66) -/

/-- The end of a local request with this outcome: one that was taken ends as any event does; one answered ALREADY changes
nothing, and one answered REFUSED nothing beyond its notice (R62, R64, R65). -/
def endRequest (s : State) (r : ResponseCode × State) : State := if r.1 = .ok then finish s r.2 else r.2

/-- The START command's action (R62 to R64). -/
def startCommand (_ : Unit) (s : State) : State :=
  let r := localStart .afterFrame .command s
  respond r.1 [] (endRequest s r)

/-- START (R62). -/
def execStart (args : List Byte) (s : State) : Host.Outcome State Fault Refusal :=
  .next (hostCommand .runOnly (noArgs args) startCommand s)

/-- The STOP command's action (R65). -/
def stopCommand (_ : Unit) (s : State) : State :=
  let r := localStop s
  respond r.1 [] (endRequest s r)

/-- STOP (R65). -/
def execStop (args : List Byte) (s : State) : Host.Outcome State Fault Refusal :=
  .next (hostCommand .runOnly (noArgs args) stopCommand s)

/-- A press of the record key: a START in IDLE or POST, a STOP in ROLLING or START PENDING; ignored in SETUP (R61, R66). -/
def recordKey (s : State) : State :=
  if s.inRun then
    match enginePhase s with
    | .idle => endRequest s (localStart .afterFrame .key s)
    | .post => endRequest s (localStart .afterFrame .key s)
    | .rolling => endRequest s (localStop s)
    | .startPending => endRequest s (localStop s)
  else s

/-- RECORD_KEY (R66). -/
def execRecordKey (s : State) : Host.Outcome State Fault Refusal := .next (recordKey s)

/-! ## ADD NOTE (R127, R128) -/

/-- ADD NOTE's checks and action: the code of the check that fails, or the note stored and its sequence in the answer (R127,
R128). -/
def addNote (a : NoteArgs) (s : State) : State :=
  match noteToAdd a s with
  | .ok n => respond .ok (be 2 n.id.seq) (finish s (storeLocal n s))
  | .error code => respond code [] s

/-- ADD NOTE (R127). -/
def execAddNote (args : List Byte) (s : State) : Host.Outcome State Fault Refusal :=
  .next (hostCommand .runOnly (readNoteArgs args) addNote s)

/-! ## The cue (R38, R40) -/

/-- SET CUE's checks and action (R38). -/
def setCue (a : Nat × Nat) (s : State) : State :=
  match cueKindOf a.1 with
  | some kind =>
    if s.day ≤ a.2 then respond .badValue [] s
    else if isLater s.day a.2 s.counter.newest then
      respond .ok [] { s with counter := { s.counter with cue := some { kind := kind, pos := a.2 } } }
    else respond .late [] s
  | none => respond .badValue [] s

/-- SET CUE (R38). -/
def execSetCue (args : List Byte) (s : State) : Host.Outcome State Fault Refusal :=
  .next (hostCommand .runOnly (readCueArgs args) setCue s)

/-- CANCEL CUE's action (R40). -/
def cancelCue (_ : Unit) (s : State) : State :=
  if s.counter.cue.isSome then respond .ok [] { s with counter := { s.counter with cue := none } }
  else respond .already [] s

/-- CANCEL CUE (R40). -/
def execCancelCue (args : List Byte) (s : State) : Host.Outcome State Fault Refusal :=
  .next (hostCommand .runOnly (noArgs args) cancelCue s)

/-! ## CLEAR CLIP, MEDIA RETRY, CAPTURE RESTART (R23, R171, R183) -/

/-- CLEAR CLIP's action (R23). -/
def clearClip (_ : Unit) (s : State) : State :=
  respond .ok []
    (if s.front.clipFlag then { s with front := { s.front with clipFlag := false, firstClip := none } } else s)

/-- CLEAR CLIP (R23). -/
def execClearClip (args : List Byte) (s : State) : Host.Outcome State Fault Refusal :=
  .next (hostCommand .runOnly (noArgs args) clearClip s)

/-- MEDIA RETRY's checks and action (R171). -/
def mediaRetry (_ : Unit) (s : State) : State :=
  if s.writer.capture = .mediaFault then
    if s.writer.inFlight.isSome then respond .busy [] s
    else if s.writer.space = some .exhausted then respond .refused [] s
    else respond .ok [] (issueWrite (.fault s.writer.skipped s.writer.unlisted) .first true s)
  else respond .wrongPhase [] s

/-- MEDIA RETRY (R171). -/
def execMediaRetry (args : List Byte) (s : State) : Host.Outcome State Fault Refusal :=
  .next (hostCommand .runOnly (noArgs args) mediaRetry s)

/-- CAPTURE RESTART in the take engine and in Following: slots and pending start abandoned, closed-identity list emptied; TAKE
ABANDONED raised once when any was abandoned (R82, R110). -/
def restartTakes (s : State) : State :=
  raiseIf (captureInHand s) .takeAbandoned
    { s with takes := { s.takes with slots := Vector.replicate 3 none, pendingStart := none, closed := [] } }

/-- CAPTURE RESTART in the media writer (R173). -/
def restartWriter (s : State) : State :=
  { s with
    writer :=
      { s.writer with
        held := none, capture := .normal, skipped := [], unlisted := 0
        inFlight := s.writer.inFlight.map fun w => { w with stale := true } } }

/-- CAPTURE RESTART in the note store: each WRITING note returns to PENDING in its place (R132). -/
def restartNotes (s : State) : State :=
  { s with
    store :=
      { s.store with
        notes := s.store.notes.map fun x => if x.state = .writing then { x with state := .pending } else x } }

/-- CAPTURE RESTART in all the blocks together (R183). -/
def restartAll (s : State) : State := restartNotes (restartWriter (restartMix (emptyRing (restartTakes s))))

/-- CAPTURE RESTART's action (R183). -/
def captureRestart (_ : Unit) (s : State) : State := respond .ok [] (finish s (restartAll s))

/-- CAPTURE RESTART (R183). -/
def execCaptureRestart (args : List Byte) (s : State) : Host.Outcome State Fault Refusal :=
  .next (hostCommand .runOnly (noArgs args) captureRestart s)

end Sys2Proof.Machine
end

