-- ==== Sys2Proof/Machine/LinkEvents.lean ====
section
/-! DEFINITION. The meanings of the cart link's events: the line, the deferral, the ends of attempts, the announce timer, a
peer's absence, and received frames (chapter 5). -/

namespace Sys2Proof.Machine

open Sys2Proof

/-! ## The ends of an attempt (R91, R92, R98) -/

/-- An attempt in SEND ends as a successful send: the frame leaves the queue, the frames sent count rises, the penalty mark is
set, and what was heard is the station's own echo (R92, R98). Out of SEND nothing changes (notes/assumptions/4.md). -/
def successfulSend (s : State) : State :=
  if s.inRun ∧ s.link.tx = .send then
    let s1 := advanceTime s.link.restFrom s
    afterAttempt
      (leaveQueue
        { s1 with
          link :=
            { s1.link with
              penalty := true, receiver := .echo s1.link.sending
              counts := { s1.link.counts with sent := satAdd Config.max16 s1.link.counts.sent 1 } } })
  else s

/-- The head entry after a collision: it stays with its attempt count raised, or leaves at the attempt limit (R92, R94). -/
def collideHead (s : State) : State :=
  match s.link.queue with
  | [] => s
  | x :: rest =>
    if x.attempts + 1 < Config.maxAttempts then
      { s with
        link :=
          { s.link with
            queue := { x with attempts := x.attempts + 1 } :: rest
            owed := if x.frame = .status then false else s.link.owed } }
    else
      leaveQueue
        { s with link := { s.link with counts := { s.link.counts with dropped := satAdd Config.max16 s.link.counts.dropped 1 } } }

/-- An attempt ends as a collision in its byte n: the station drives no more, and the line rests no sooner than that byte's stop
bit (R84, R91, R92). -/
def endByCollision (n : Nat) (s : State) : State :=
  let s1 := advanceTime (s.link.attemptFrom + Config.byteTime * n) s
  afterAttempt
    (collideHead
      { s1 with
        link :=
          { s1.link with
            restFrom := max (byteEnd n s) s1.time
            counts := { s1.link.counts with collisions := satAdd Config.max16 s1.link.counts.collisions 1 } } })

/-! ## The line (R84, R89, R96) -/

/-- A start bit of another station heard in RUN, with the byte it begins: the line is BUSY, a station in DEFER returns to WAIT
IDLE, and the receiver takes the byte (R84, R89, R96). -/
def hearByte (b : Byte) (s : State) : State :=
  receiveByte b
    { s with
      link :=
        { s.link with
          line := .busy, restFrom := restAfter 1 s
          tx := if s.link.tx = .defer then .waitIdle else s.link.tx } }

/-- The byte that another station begins to drive against the byte n of the attempt, `own`, the bytes before it having been
heard as driven: the receiver takes what the line carried, and a mismatch ends the attempt; where the other station hears the
mismatch, it stops and the attempt goes on (R83, R84, R91, R96). -/
def hearAgainst (b own : Byte) (n : Nat) (s : State) : State :=
  let heard := hearDriven (byteLevels own) (byteLevels b)
  let s1 :=
    receiveByte (levelsByte heard.1)
      { s with link := { s.link with receiver := .taking (arrivalPosition s) (s.link.sending.take n) } }
  if heard.2 then endByCollision n s1 else s1

/-- Another station's byte heard in SEND: it meets the byte of the attempt under way, or follows the attempt when every byte of
that is over, which was then a successful send (R91). -/
def hearInSend (b : Byte) (s : State) : State :=
  match s.link.sending[bytesOver s]? with
  | some own => hearAgainst b own (bytesOver s) s
  | none => hearByte b (successfulSend s)

/-- A start bit with the byte it begins. In SETUP the line state is not kept and nothing is received, but the byte may still be
on the line when COMMIT is taken, so its end is kept (R84). -/
def lineBusy (b : Byte) (s : State) : State :=
  if s.inRun then if s.link.tx = .send then hearInSend b s else hearByte b s
  else { s with link := { s.link with restFrom := restAfter 1 s } }

/-- LINE_BUSY (R84). -/
def execLineBusy (b : Byte) (s : State) : Host.Outcome State Fault Refusal := .next (lineBusy b s)

/-- The line becomes IDLE. Where it cannot the event does not occur and nothing changes (notes/assumptions/4.md). -/
def lineIdle (s : State) : State := if mayRest s then finish s (endReception (becomeIdle s)) else s

/-- LINE_IDLE (R84). -/
def execLineIdle (s : State) : Host.Outcome State Fault Refusal := .next (lineIdle s)

/-! ## Sending (R89 to R92, R95) -/

/-- The deferral runs out in DEFER and an attempt begins (R89). Out of DEFER no deferral runs and nothing changes. -/
def deferralExpiry (s : State) : State :=
  if s.inRun ∧ s.link.tx = .defer then beginAttempt (advanceTime (s.link.idleFrom + deferral s) s) else s

/-- DEFERRAL_EXPIRY (R89). -/
def execDeferralExpiry (s : State) : Host.Outcome State Fault Refusal := .next (deferralExpiry s)

/-- SUCCESSFUL_SEND (R92). -/
def execSuccessfulSend (s : State) : Host.Outcome State Fault Refusal := .next (successfulSend s)

/-- An attempt in SEND ends as a collision in the byte under way, whose value is yet to be heard: the next LINE_BUSY or the
frame's own row brings it (R91, R92; notes/assumptions/7.md). Out of SEND, and once every byte of the attempt is over, no
mismatch can come about and nothing changes (notes/assumptions/4.md). -/
def collision (s : State) : State :=
  if s.inRun ∧ s.link.tx = .send ∧ bytesOver s < s.link.sending.length then
    endByCollision (bytesOver s)
      { s with link := { s.link with receiver := .within (arrivalPosition s) (s.link.sending.take (bytesOver s)) } }
  else s

/-- COLLISION (R91). -/
def execCollision (s : State) : Host.Outcome State Fault Refusal := .next (collision s)

/-- The announce timer expires in RUN: a STATUS is requested and the timer starts again (R95). In SETUP it is stopped. -/
def announceTimerExpiry (s : State) : State :=
  if s.inRun then
    let s1 := advanceTime (s.link.announce.getD s.time + Config.announceTime) s
    requestStatus { s1 with link := { s1.link with announce := some s1.time } }
  else s

/-- ANNOUNCE_TIMER_EXPIRY (R95). -/
def execAnnounceTimerExpiry (s : State) : Host.Outcome State Fault Refusal := .next (announceTimerExpiry s)

/-! ## A peer's absence (R101, R121) -/

/-- The open take's origin is lost when this peer is its origin (R121). -/
def loseOrigin (p : Fin 8) (s : State) : State :=
  match openSlot s with
  | some i => if (openTake s).map Take.origin = some p.val then markOriginLost i s else s
  | none => s

/-- A PRESENT peer's age reaches 300 ms (R101, R121). The age of an ABSENT entry does not run and the SELF entry has none: then
nothing changes. -/
def peerAbsent (p : Fin 8) (s : State) : State :=
  if p ≠ s.port.station ∧ s.link.peers[p].present then
    let s1 := advanceTime (s.link.peers[p].heardAt.getD s.time + Config.absentTime) s
    let e := s.link.peers[p]
    loseOrigin p
      (raise .peerChange (setPeer p { e with present := false, heardAt := none, compat := none, offset := none } s1))
  else s

/-- PEER_ABSENT (R101). -/
def execPeerAbsent (p : Fin 8) (s : State) : Host.Outcome State Fault Refusal := .next (peerAbsent p s)

/-! ## Received frames (R84, R96 to R98) -/

/-- A complete frame of this kind: what is left of its bytes is heard, the line becomes IDLE, and the frame is processed (R84,
R96 to R98). Where the receiver cannot come to hear the frame the event does not occur, and nothing changes: in SETUP, before
the first IDLE in RUN, in SEND, or after other bytes (notes/assumptions/4.md, notes/assumptions/7.md). -/
def receiveFrame (kind : Byte) (f : HeardFrame) (s : State) : State :=
  if canHear kind f s then lineIdle (hearFrame kind f s) else s

/-- STATUS_FRAME: a complete frame of kind STATUS (R98). -/
def execStatusFrame (f : HeardFrame) (s : State) : Host.Outcome State Fault Refusal := .next (receiveFrame 1#8 f s)

/-- NOTE_FRAME: a complete frame of kind NOTE (R138). -/
def execNoteFrame (f : HeardFrame) (s : State) : Host.Outcome State Fault Refusal := .next (receiveFrame 2#8 f s)

/-- NOTE_REQUEST_FRAME: a complete frame of kind NOTE REQUEST (R140). -/
def execNoteRequestFrame (f : HeardFrame) (s : State) : Host.Outcome State Fault Refusal := .next (receiveFrame 3#8 f s)

/-- NOTE_GONE_FRAME: a complete frame of kind NOTE GONE (R141). -/
def execNoteGoneFrame (f : HeardFrame) (s : State) : Host.Outcome State Fault Refusal := .next (receiveFrame 4#8 f s)

end Sys2Proof.Machine
end

