-- ==== Sys2Proof/Machine/MediaEvents.lean ====
section
/-! DEFINITION. The meanings of the media port's events: completions and the writer's decision (R164, R167 to R169). -/

namespace Sys2Proof.Machine

open Sys2Proof

/-- A successful completion; with no write in flight it is ignored (R167, R169). -/
def successfulCompletion (s : State) : State :=
  match s.writer.inFlight with
  | none => s
  | some w => finish s (completeOk w s)

/-- SUCCESSFUL_COMPLETION (R167). -/
def execSuccessfulCompletion (s : State) : Host.Outcome State Fault Refusal := .next (successfulCompletion s)

/-- A failed completion; with no write in flight it is ignored (R168, R169). -/
def failedCompletion (s : State) : State :=
  match s.writer.inFlight with
  | none => s
  | some w => finish s (completeFailed w s)

/-- FAILED_COMPLETION (R168). -/
def execFailedCompletion (s : State) : Host.Outcome State Fault Refusal := .next (failedCompletion s)

/-- WRITE_ISSUE: a decision of the writer (R164). -/
def execWriteIssue (s : State) : Host.Outcome State Fault Refusal := .next (makeDecision s)

end Sys2Proof.Machine
end

