-- ==== Sys2Proof/Machine/Dispatch.lean ====
section
/-! DEFINITION. The dispatch: one arm for each command, each one direct call of its meaning. -/

namespace Sys2Proof.Machine

def exec (i : Instr) (s : State) : Host.Outcome State Fault Refusal :=
  match i with
  | .powerOn strap => Sys2Proof.Machine.execPowerOn strap s
  | .reset strap => Sys2Proof.Machine.execReset strap s
  | .frameArrival f => Sys2Proof.Machine.execFrameArrival f s
  | .returnToHigh track f => Sys2Proof.Machine.execReturnToHigh track f s
  | .cueFire f => Sys2Proof.Machine.execCueFire f s
  | .awaitedStop f => Sys2Proof.Machine.execAwaitedStop f s
  | .postRollComplete f => Sys2Proof.Machine.execPostRollComplete f s
  | .halfDayStop f => Sys2Proof.Machine.execHalfDayStop f s
  | .pendingStartPromotion => Sys2Proof.Machine.execPendingStartPromotion s
  | .blockEnd f => Sys2Proof.Machine.execBlockEnd f s
  | .clockLost => Sys2Proof.Machine.execClockLost s
  | .referencePulse => Sys2Proof.Machine.execReferencePulse s
  | .recordKey => Sys2Proof.Machine.execRecordKey s
  | .successfulCompletion => Sys2Proof.Machine.execSuccessfulCompletion s
  | .failedCompletion => Sys2Proof.Machine.execFailedCompletion s
  | .writeIssue => Sys2Proof.Machine.execWriteIssue s
  | .lineIdle => Sys2Proof.Machine.execLineIdle s
  | .deferralExpiry => Sys2Proof.Machine.execDeferralExpiry s
  | .successfulSend => Sys2Proof.Machine.execSuccessfulSend s
  | .collision => Sys2Proof.Machine.execCollision s
  | .announceTimerExpiry => Sys2Proof.Machine.execAnnounceTimerExpiry s
  | .peerAbsent peer => Sys2Proof.Machine.execPeerAbsent peer s
  | .statusFrame f => Sys2Proof.Machine.execStatusFrame f s
  | .noteFrame f => Sys2Proof.Machine.execNoteFrame f s
  | .noteRequestFrame f => Sys2Proof.Machine.execNoteRequestFrame f s
  | .noteGoneFrame f => Sys2Proof.Machine.execNoteGoneFrame f s
  | .configureClock args => Sys2Proof.Machine.execConfigureClock args s
  | .configureTrack args => Sys2Proof.Machine.execConfigureTrack args s
  | .configureCapture args => Sys2Proof.Machine.execConfigureCapture args s
  | .configureMedia args => Sys2Proof.Machine.execConfigureMedia args s
  | .setRunNumber args => Sys2Proof.Machine.execSetRunNumber args s
  | .commit args => Sys2Proof.Machine.execCommit args s
  | .setTrim args => Sys2Proof.Machine.execSetTrim args s
  | .setGate args => Sys2Proof.Machine.execSetGate args s
  | .setScene args => Sys2Proof.Machine.execSetScene args s
  | .setNextTake args => Sys2Proof.Machine.execSetNextTake args s
  | .jamTimecode args => Sys2Proof.Machine.execJamTimecode args s
  | .start args => Sys2Proof.Machine.execStart args s
  | .stop args => Sys2Proof.Machine.execStop args s
  | .addNote args => Sys2Proof.Machine.execAddNote args s
  | .setCue args => Sys2Proof.Machine.execSetCue args s
  | .cancelCue args => Sys2Proof.Machine.execCancelCue args s
  | .clearClip args => Sys2Proof.Machine.execClearClip args s
  | .mediaRetry args => Sys2Proof.Machine.execMediaRetry args s
  | .captureRestart args => Sys2Proof.Machine.execCaptureRestart args s
  | .readStatus args => Sys2Proof.Machine.execReadStatus args s
  | .readSlot args => Sys2Proof.Machine.execReadSlot args s
  | .readPeer args => Sys2Proof.Machine.execReadPeer args s
  | .readNote args => Sys2Proof.Machine.execReadNote args s
  | .readClip args => Sys2Proof.Machine.execReadClip args s
  | .readNotices args => Sys2Proof.Machine.execReadNotices args s
  | .setNoticeMask args => Sys2Proof.Machine.execSetNoticeMask args s
  | .ackNotices args => Sys2Proof.Machine.execAckNotices args s
  | .unknownCommand code args => Sys2Proof.Machine.execUnknownCommand code args s
  | .responseRead => Sys2Proof.Machine.execResponseRead s
  | .lineBusy byte => Sys2Proof.Machine.execLineBusy byte s
  | .selectionReleased received => Sys2Proof.Machine.execSelectionReleased received s

end Sys2Proof.Machine
end

