-- ==== Sys2Proof/Machine/Ticks.lean ====
section
/-! DEFINITION. The internal oscillator's tick: what an idle block does in place of idling (DESIGN CHOICE,
notes/assumptions/2.md). One tick is one bit time; the timers that run out at it put their events at the queue, and so does a
writer that may issue. -/

namespace Sys2Proof.Machine

open Sys2Proof

/-- The loss timer runs out (R31). -/
def lossDue (s : State) : Bool :=
  s.counter.clock == .running &&
    match s.counter.lossTimer with
    | some t => decide (t + Config.lossTime ≤ s.time)
    | none => false

/-- The announce timer runs out (R95). -/
def announceDue (s : State) : Bool :=
  s.inRun &&
    match s.link.announce with
    | some t => decide (t + Config.announceTime ≤ s.time)
    | none => false

/-- A peer's age reaches 300 ms (R101). -/
def absenceDue (s : State) (p : Fin 8) : Bool :=
  p != s.port.station && s.link.peers[p].present &&
    match s.link.peers[p].heardAt with
    | some t => decide (t + Config.absentTime ≤ s.time)
    | none => false

/-- The line has rested for 16 bit times (R84). -/
def restDue (s : State) : Bool :=
  s.inRun && s.link.line == .busy && s.link.tx != .send && decide (s.link.restFrom + Config.idleTime ≤ s.time)

/-- Every bit of the attempt in SEND has been driven (R91). -/
def sendDue (s : State) : Bool := s.inRun && s.link.tx == .send && decide (s.link.restFrom ≤ s.time)

/-- The deferral has run out (R89). -/
def deferralDue (s : State) : Bool :=
  s.inRun && s.link.tx == .defer && decide (s.link.idleFrom + deferral s ≤ s.time)

/-- A write may be issued and is asked for, so that no request is left waiting (R164). An event that gives the writer a request
makes the decision itself, so a run from reset never needs this: notes/assumptions/2.md. -/
def issueDue (s : State) : Bool := mayIssue s && (choose s).isSome

/-- The events that are due: those of the timers, and the writer's decision. -/
def dueEvents (s : State) : List Instr :=
  (if lossDue s then [.clockLost] else []) ++ (if announceDue s then [.announceTimerExpiry] else []) ++
    ((List.finRange 8).filter (absenceDue s)).map Instr.peerAbsent ++ (if restDue s then [.lineIdle] else []) ++
    (if deferralDue s then [.deferralExpiry] else []) ++ (if sendDue s then [.successfulSend] else []) ++
    (if issueDue s then [.writeIssue] else [])

/-- One tick of the oscillator: time passes, and the events due join the queue. -/
def tick (s : State) : State :=
  let s1 := { s with time := s.time + 1 }
  { s1 with pending := s1.pending ++ dueEvents s1 }

end Sys2Proof.Machine
end

