-- ==== Sys2Proof/Safety.lean ====
section
/-! DEFINITION. What counts as a safe run of the block: the promises the spec makes about every state, in the terms the
statements use, and the states a run can reach. Each promise names its rule. -/

namespace Sys2Proof.Safety

open Sys2Proof Sys2Proof.Machine

/-! ## Runs -/

/-- The states the block can reach: it starts strapped as some station, commands join its queue, the host selects the port, sends
bytes and releases it, and it steps. -/
inductive Reachable : State → Prop where
  | start (strap : Fin 8) : Reachable (State.resetAt strap)
  | deliver (i : Instr) {s : State} (h : Reachable s) : Reachable { s with pending := s.pending ++ [i] }
  | select {s : State} (h : Reachable s) : Reachable s.select
  | hostByte (b : Byte) {s : State} (h : Reachable s) : Reachable (s.hostByte b)
  | release {s : State} (h : Reachable s) : Reachable s.release
  | step {s t : State} (h : Reachable s) (next : Machine.step s = .next t) : Reachable t

/-- A promise that holds in every state the block can reach. -/
def Always (P : State → Prop) : Prop := ∀ s, Reachable s → P s

/-- A promise that every step keeps, from every state that meets it. -/
def KeptByEveryStep (P : State → Prop) : Prop := ∀ s t, P s → Machine.step s = .next t → P t

/-- The command is answered with this code and no data, and nothing else changes. -/
def Answered (i : Instr) (c : ResponseCode) (s : State) : Prop :=
  exec i s = .next { s with port := { s.port with response := some { code := c, data := [] } } }

/-- The command is taken, answered OK with no data, and the rest of the state becomes that of t. -/
def TakenOk (i : Instr) (s t : State) : Prop :=
  exec i s = .next { t with port := { s.port with response := some { code := .ok, data := [] } } }

/-! ## A STATUS of a peer, followed or not (R98, R103, R107, R108) -/

/-- The STATUS frame f is received as that of the peer p: the receiver comes to hear it whole, it is no echo, and it is valid. -/
structure HearsStatus (s : State) (f : HeardFrame) (p : Fin 8) : Prop where
  heard : canHear 1#8 f s = true
  other : ∀ own, s.link.receiver ≠ .echo own
  sender : f.sender.toNat = p.val
  peer : p ≠ s.port.station
  length : f.payload.length = 40
  check : f.check = crc (1#8 :: f.sender :: 40#8 :: f.payload)

/-- The STATUS frame f reaches the take engine as that of the followed peer p: it is received, its clock agrees within the
tolerance, and p is in the follow mask. -/
structure HearsFollowed (s : State) (f : HeardFrame) (p : Fin 8) : Prop extends HearsStatus s f p where
  rate : (readStatusPayload f.payload).rateCode = s.counter.sampleRate.code
  tcRate : (readStatusPayload f.payload).tcCode = s.counter.tcRate.code
  near : (signedDiff s.day (arrivalPosition s) (readStatusPayload f.payload).pos).natAbs ≤ s.link.tolerance
  mask : s.takes.followMask[p] = true

/-- The identity that STATUS fields announce, its start taken modulo D (R108; notes/assumptions/10.md). -/
def announcedIdentity (s : State) (x : StatusFields) : Identity :=
  { origin := x.origin, label := { scene := x.scene, number := x.number }, start := x.start % s.day }

/-- Slots, pending start, serial, next take number, scene and closed identities stand, but for what the writer accounts and
issues at the end of the event (R160, R161, R164). -/
structure TakesStand (s t : State) : Prop where
  pendingStart : t.takes.pendingStart = s.takes.pendingStart
  serial : t.takes.serial = s.takes.serial
  nextTake : t.takes.nextTake = s.takes.nextTake
  scene : t.takes.scene = s.takes.scene
  closed : t.takes.closed = s.takes.closed
  empty : ∀ i : Fin 3, s.takes.slots[i] = none → t.takes.slots[i] = none
  takes : ∀ (i : Fin 3) (u : Take), s.takes.slots[i] = some u →
    ∃ v, t.takes.slots[i] = some v ∧
      { v with next := u.next, g := u.g, gaps := u.gaps, gapsMerged := u.gapsMerged, indexIssued := u.indexIssued } = u

/-! ## The decision at an entry to CLOSING (R161, R164, R165) -/

/-- The take u of slot i became v at an event that ends with a decision of the writer, whatever command waits next. The decision
leaves no request that may be issued, so a record asked for stays back only behind a write in flight, another request that R165
takes first, or what forbids every write. A record not issued before the event is issued at it only with every position of the
CLOSING take accounted, as a first write at the cursor, its content the take as it then stands; one issued before stays so. -/
structure RecordDecided (s t : State) (i : Fin 3) (u v : Take) : Prop where
  decided : exec .writeIssue t = .next t
  stays : u.indexIssued = true → v.indexIssued = true
  issued : u.indexIssued = false → v.indexIssued = true →
    s.writer.inFlight = none ∧ v.phase = .closing ∧ (∃ z, v.z = some z ∧ v.next = (z + 1) % s.day) ∧
    t.writer.inFlight =
      some
        { addr := s.writer.cursor.getD 0, content := .index i (wordCount t) { v with indexIssued := false }
          attempt := .first, stale := false, ofRetryCommand := false }

/-! ## Values (R3, R146) -/

/-- The value of a track's word in units of 2^-45, 0 where there is none, for exact zero and for the absent code (R3, R146). -/
def valueOf (word : Option FieldWord) : Int :=
  match word with
  | none => 0
  | some w =>
    if w.exponent.toNat = 0 then 0
    else (if w.sign then -1 else 1) * ((262144 + w.fraction.toNat) * 2 ^ (w.exponent.toNat - 1) : Nat)

/-! ## The end of the card (R79, R158, R160, R174) -/

/-- What the space state brings when a completion leaves this many blocks: NEAR FULL, or FULL with the forced stop of the open
take and the end of the pending start, and on a FULL card the accounts of held frames that will not be written. `done` is the
content that was written, none for a failed or stale write. -/
structure SpaceTakesEffect (s t : State) (left : Nat) (done : Option Content) : Prop where
  nearFull : s.writer.space = some .ample → 64 < left → left ≤ 2048 → isPending .nearFull t = true
  full : s.writer.space = some .nearFull → 0 < left → left ≤ 64 →
    isPending .full t = true ∧ t.takes.pendingStart = none ∧
    ∀ (i : Fin 3) (u : Take), openSlot s = some i → s.takes.slots[i] = some u →
      (∀ words r, done ≠ some (.index i words r)) →
      ∃ v, t.takes.slots[i] = some v ∧ v.phase = .closing ∧ v.z = some s.counter.newest ∧
        v.flags = { u.flags with forcedStop := true } ∧ v.label = u.label ∧ v.sr = u.sr ∧ v.serial = u.serial ∧
        (u.phase = .rolling → v.e = some s.counter.newest ∧ v.postRoll = 0) ∧
        (∀ e, u.phase = .post → u.e = some e → v.e = some e ∧ v.postRoll = countAfter s.day e s.counter.newest) ∧
        t.takes.scene = u.label.scene ∧ t.takes.nextTake = (if u.label.number < 999 then u.label.number + 1 else 1) ∧
        t.takes.closed = appendClosed u.identity s.takes.closed
  accounted : left ≤ 64 → ∀ (i : Fin 3) (u : Take) (z : Nat) (older run newer : List RingFrame),
    s.takes.slots[i] = some u → u.phase = .closing → u.z = some z → u.next < s.day →
    (∀ x, done = some x → isAudioOf i x = false ∧ ∀ words r, x ≠ .index i words r) →
    s.ring.frames = older ++ run ++ newer → (∀ g ∈ older, g.pos ≠ u.next) →
    (∀ (k : Nat) (f : RingFrame), run[k]? = some f → f.pos = (u.next + k) % s.day) →
    ∃ v m, t.takes.slots[i] = some v ∧ min run.length (countTo s.day u.next z) ≤ m ∧ v.g = u.g + m ∧
      v.next = (u.next + m) % s.day ∧ v.w = u.w

/-! ## Notices (R187) -/

/-- The attention line is asserted exactly while some pending notice kind is not masked (R187). -/
def AttentionDriven (s : State) : Prop :=
  s.notices.attention = true ↔ ∃ k : Fin 20, s.notices.pending[k] = true ∧ s.notices.mask[k] = false

/-! ## SETUP is quiet (R176, R52, R55, R38, R84, R100) -/

/-- In SETUP the ring, the slots, the cue, the note store, the transmit queue and the card are untouched, and no peer is
known. -/
structure SetupQuiet (s : State) : Prop where
  ring : s.port.phase = .setup → s.ring.frames = []
  slots : s.port.phase = .setup → ∀ i : Fin 3, s.takes.slots[i] = none
  pendingStart : s.port.phase = .setup → s.takes.pendingStart = none
  cue : s.port.phase = .setup → s.counter.cue = none
  notes : s.port.phase = .setup → s.store.notes = []
  queue : s.port.phase = .setup → s.link.queue = [] ∧ s.link.tx = .standby ∧ s.link.owed = false
  peers : s.port.phase = .setup → ∀ p : Fin 8, s.link.peers[p] = Peer.reset
  card : s.port.phase = .setup → s.writer.inFlight = none ∧ s.writer.cursor = none

/-! ## Takes (R55, R56, R75, R78, R110) -/

/-- At most one slot is ROLLING or POST, and a pending start exists only while none is (R55, R59). -/
structure OneOpenTake (s : State) : Prop where
  one : ∀ i j : Fin 3, isOpen s.takes.slots[i] = true → isOpen s.takes.slots[j] = true → i = j
  none_pending : s.takes.pendingStart.isSome = true → ∀ i : Fin 3, isOpen s.takes.slots[i] = false

/-- Written frames, gap frames and head shortfall of each take count the positions from its requested start to its
next-to-write position, by the difference modulo D; and in SETUP no slot is in use and no write is in flight (R78, R55). -/
structure TakesAccounted (s : State) : Prop where
  quiet : s.port.phase = .setup → (∀ i : Fin 3, s.takes.slots[i] = none) ∧ s.writer.inFlight = none
  sum : ∀ (i : Fin 3) (t : Take), s.takes.slots[i] = some t → (t.sr + t.w + t.g + t.h) % s.day = t.next % s.day

/-- One take record within its limits: 16 gap entries, 2 former labels, 32 note references; a merged flag has an entry to stay
on (R56, R75, R117, R133). -/
structure RecordBounded (t : Take) : Prop where
  gaps : t.gaps.length ≤ Config.maxGapEntries
  merged : t.gapsMerged = true → t.gaps ≠ []
  former : t.former.length ≤ 2
  refs : t.noteRefs.length ≤ Config.maxNoteRefs

/-- Every take record is within its limits and the closed-identity list holds at most 4 (R56, R110). -/
structure RecordsBounded (s : State) : Prop where
  takes : ∀ (i : Fin 3) (t : Take), s.takes.slots[i] = some t → RecordBounded t
  closed : s.takes.closed.length ≤ Config.maxClosed

/-! ## The ring (R42, R44, R45) -/

/-- The ring holds at most R frames (R44). -/
def RingBounded (s : State) : Prop := s.ring.frames.length ≤ Config.ringCapacity

/-! ## The mix (R144, R149, R151, R153) -/

/-- Gate settings within their ranges (R153). -/
structure SettingsInRange (g : GateSettings) : Prop where
  openThreshold : 1 ≤ g.openThreshold ∧ g.openThreshold ≤ 65535
  closeThreshold : 1 ≤ g.closeThreshold ∧ g.closeThreshold ≤ g.openThreshold
  closeHold : g.closeHold ≤ 255
  attack : 1 ≤ g.attack ∧ g.attack ≤ 4096
  decay : 1 ≤ g.decay ∧ g.decay ≤ 4096
  release : 1 ≤ g.release ∧ g.release ≤ 4096
  sustain : g.sustain ≤ 4096
  duck : g.duck ≤ g.sustain

/-- One track of the mix: its envelope gain lies within 0 to 4,096 and is 0 whenever its envelope is CLOSED, its hold count
within 0 to 255 (R149, R151). -/
structure MixTrackSound (m : MixTrack) : Prop where
  settings : SettingsInRange m.settings
  hold : m.hold ≤ 255
  gain : m.gain ≤ Config.fullGain
  closed : m.envelope = .closed → m.gain = 0

/-- Every track of the mix is sound and the block frame count lies within 0 to 63 (R144, R151). -/
structure MixSound (s : State) : Prop where
  tracks : ∀ i : Fin 16, MixTrackSound s.mixer.tracks[i]
  count : s.mixer.blockCount < Config.mixBlock

/-! ## Notes (R126, R129) -/

/-- The note store holds at most 256 notes and never two with the same identity; its own notes are of the current run and no
later than the own sequence counter; it is empty in SETUP (R126, R129, R132). -/
structure StoreSound (s : State) : Prop where
  bound : s.store.notes.length ≤ Config.maxNotes
  distinct : (s.store.notes.map fun x => x.note.id).Nodup
  own : ∀ x ∈ s.store.notes, x.note.id.originator = s.port.station.val →
    x.note.id.run = s.link.run ∧ x.note.id.seq ≤ s.store.seq
  quiet : s.port.phase = .setup → s.store.notes = []

/-! ## The transmit queue (R93, R94) -/

/-- A queue entry is a STATUS. -/
def isStatus (x : TxEntry) : Bool := x.frame == .status

/-- The transmit queue holds at most 8 frames and at most one STATUS, each with an attempt count of 0 to 2; the owed mark is set
only while the queued STATUS is being sent or a queue of 8 holds none (R93, R94). -/
structure QueueSound (s : State) : Prop where
  bound : s.link.queue.length ≤ Config.maxQueue
  oneStatus : s.link.queue.countP isStatus ≤ 1
  attempts : ∀ x ∈ s.link.queue, x.attempts < Config.maxAttempts
  owed : s.link.owed = true →
    statusBeingSent s = true ∨ (s.link.queue.length = Config.maxQueue ∧ s.link.queue.countP isStatus = 0)

/-! ## The card (R157, R158, R163, R164) -/

/-- In RUN the cursor stands from the first address to one past the last and the space state is that of the remaining count; a
write in flight stands at the cursor, on a block of the range; in SETUP the cursor is unset and no write is in flight; the
skipped list holds at most 16 addresses (R157, R158, R163, R164). -/
structure CardSound (s : State) : Prop where
  run : s.port.phase = .run → ∃ first last c, s.writer.range = some (first, last) ∧ s.writer.cursor = some c ∧
    first ≤ c ∧ c ≤ last + 1 ∧ s.writer.space = some (spaceOf (last + 1 - c))
  flight : ∀ w, s.writer.inFlight = some w → s.writer.cursor = some w.addr ∧
    ∃ first last, s.writer.range = some (first, last) ∧ w.addr ≤ last
  setup : s.port.phase = .setup → s.writer.inFlight = none ∧ s.writer.cursor = none
  skipped : s.writer.skipped.length ≤ Config.maxSkipped

end Sys2Proof.Safety
end

