-- ==== Sys2Proof/Certificates/Slice0/Obligations.lean ====
section
/-! DEFINITION. The statements for the provers, chapter by chapter. A statement says which rule or section it formalises; a clause
that is the model's choice names its entry of the assumption log. -/

section

open Sys2Proof Sys2Proof.Machine Sys2Proof.Safety

/-! ## The machine -/

/-- A step takes the command at the front of the queue and runs it with the queue's rest; every command answers a next state and
acts on everything but the queue (notes/assumptions/13.md). -/
def Obligations.StepRunsFrontCommand : Prop :=
  (∀ (i : Instr) (rest : List Instr) (s : State), s.pending = i :: rest →
    Machine.step s = exec i { s with pending := rest }) ∧
  ∀ (i : Instr) (s : State), ∃ t, exec i s = .next t ∧ t.pending = s.pending

/-- On an empty queue a step is one bit time of the internal oscillator: only the time and the queue change; a timer event joins
the queue exactly when its time is up, and WRITE_ISSUE when it would issue a write. The model's choice:
notes/assumptions/2.md. -/
def Obligations.EmptyQueueStepIsOneTick : Prop :=
  ∀ s : State, s.pending = [] →
    ∃ due : List Instr,
      Machine.step s = .next { s with time := s.time + 1, pending := due } ∧
      (Instr.clockLost ∈ due ↔
        s.counter.clock = .running ∧ ∃ t, s.counter.lossTimer = some t ∧ t + 4000 ≤ s.time + 1) ∧
      (Instr.announceTimerExpiry ∈ due ↔
        s.port.phase = .run ∧ ∃ t, s.link.announce = some t ∧ t + 100000 ≤ s.time + 1) ∧
      (∀ p : Fin 8, Instr.peerAbsent p ∈ due ↔
        p ≠ s.port.station ∧ s.link.peers[p].present = true ∧
          ∃ t, s.link.peers[p].heardAt = some t ∧ t + 300000 ≤ s.time + 1) ∧
      (Instr.lineIdle ∈ due ↔
        s.port.phase = .run ∧ s.link.line = .busy ∧ s.link.tx ≠ .send ∧ s.link.restFrom + 16 ≤ s.time + 1) ∧
      (Instr.deferralExpiry ∈ due ↔
        s.port.phase = .run ∧ s.link.tx = .defer ∧
          s.link.idleFrom + (s.port.station.val + (if s.link.penalty then 9 else 1)) * 8 ≤ s.time + 1) ∧
      (Instr.successfulSend ∈ due ↔ s.port.phase = .run ∧ s.link.tx = .send ∧ s.link.restFrom ≤ s.time + 1) ∧
      (Instr.writeIssue ∈ due ↔
        s.writer.inFlight = none ∧ ∃ t, exec .writeIssue s = .next t ∧ t.writer.inFlight ≠ none)

/-- Power-on and the RESET line, whatever the state: the values that R188 and the chapters it names state, and a message being
received is discarded (R188). Two clauses are the model's choice, notes/assumptions/13.md: the waiting queue stays as it is, and
what is left of a selection whose message was discarded is no command. The values the model chose where the spec states none
(notes/assumptions/9.md) are not stated here. -/
def Obligations.PowerOnAndResetLine : Prop :=
  ∀ (strap : Fin 8) (s : State), ∃ t, exec (.powerOn strap) s = .next t ∧ exec (.reset strap) s = .next t ∧
    t.pending = s.pending ∧
    t.port.station = strap ∧ t.port.phase = .setup ∧ t.port.response = none ∧
    (∀ b bytes, s.port.selection = .receiving (b :: bytes) → t.port.selection = .spent) ∧
    ((∀ b bytes, s.port.selection ≠ .receiving (b :: bytes)) → t.port.selection = s.port.selection) ∧
    t.notices.pending = 0 ∧ t.notices.mask = 0 ∧ t.notices.attention = false ∧
    t.counter.newest = 0 ∧ t.counter.sampleRate = .r48 ∧ t.counter.tcRate = .f25 ∧ t.counter.refCheck = false ∧
    t.counter.refTolerance = 1 ∧ t.counter.clock = .running ∧ t.counter.lossTimer = some t.time ∧
    t.counter.refOffset = 0 ∧ t.counter.drift = 0 ∧ t.counter.frameSeen = false ∧ t.counter.cue = none ∧
    (∀ n : Fin 16, t.front.tracks[n] =
      { kind := .single, k := 4, mixEnable := false, partner := none, trim := 4096, path := .high, quiet := 0 }) ∧
    t.front.rounding = .round ∧ t.front.clipFlag = false ∧ t.front.firstClip = none ∧
    (∀ n : Fin 16, t.mixer.tracks[n] =
      { settings :=
          { openThreshold := 207, closeThreshold := 164, closeHold := 8, attack := 256, decay := 256, release := 256,
            sustain := 4096, duck := 2048 }
        gate := .closed, hold := 0, envelope := .closed, gain := 0, peak := 0 }) ∧
    t.mixer.blockCount = 0 ∧ t.mixer.clips = 0 ∧
    t.ring.frames = [] ∧ t.ring.discards = 0 ∧
    (∀ i : Fin 3, t.takes.slots[i] = none) ∧ t.takes.pendingStart = none ∧ t.takes.serial = 0 ∧
    t.takes.scene = [65#8] ∧ t.takes.nextTake = 1 ∧ t.takes.closed = [] ∧ t.takes.preRoll = 96000 ∧
    t.takes.postRoll = 24000 ∧ (∀ n : Fin 8, t.takes.followMask[n] = true) ∧
    t.link.run = 0 ∧ t.link.tx = .standby ∧ t.link.queue = [] ∧ t.link.owed = false ∧ t.link.penalty = false ∧
    t.link.announce = none ∧ t.link.listenOnly = false ∧ t.link.tolerance = 2 ∧
    (∀ p : Fin 8, t.link.peers[p] =
      { present := false, heardAt := none, run := none, status := none, compat := none, offset := none,
        heardUpTo := 0, lastRequest := none }) ∧
    t.link.counts =
      { sent := 0, collisions := 0, dropped := 0, refused := 0, received := 0, errors := 0, clashes := 0 } ∧
    t.store.notes = [] ∧ t.store.seq = 0 ∧ t.store.duplicates = 0 ∧ t.store.refused = 0 ∧ t.store.rejected = 0 ∧
    t.store.lost = 0 ∧
    t.writer.range = none ∧ t.writer.cursor = none ∧ t.writer.space = none ∧ t.writer.capture = .normal ∧
    t.writer.inFlight = none ∧ t.writer.held = none ∧ t.writer.skipped = [] ∧ t.writer.unlisted = 0 ∧
    t.writer.failed = 0

/-- The state after reset, whatever the strap, meets every promise of Safety. -/
def Obligations.ResetMeetsEveryPromise : Prop :=
  ∀ strap : Fin 8, let s := State.resetAt strap
    AttentionDriven s ∧ SetupQuiet s ∧ OneOpenTake s ∧ TakesAccounted s ∧ RecordsBounded s ∧ RingBounded s ∧
      MixSound s ∧ StoreSound s ∧ QueueSound s ∧ CardSound s

/-! ## The command port (R177, R178, R181, R182, R186) -/

/-- A command taken in one phase only is answered WRONG PHASE in the other and changes nothing; in the phase it is taken in it
is not, but for MEDIA RETRY out of MEDIA FAULT (R171), and the commands taken in both phases never are (R178). -/
def Obligations.PhaseDecidesWhatIsTaken : Prop :=
  ∀ (s : State) (args : List Byte),
    (s.port.phase = .run →
      Answered (.configureClock args) .wrongPhase s ∧ Answered (.configureTrack args) .wrongPhase s ∧
        Answered (.configureCapture args) .wrongPhase s ∧ Answered (.configureMedia args) .wrongPhase s ∧
        Answered (.setRunNumber args) .wrongPhase s ∧ Answered (.commit args) .wrongPhase s) ∧
    (s.port.phase = .setup →
      Answered (.start args) .wrongPhase s ∧ Answered (.stop args) .wrongPhase s ∧
        Answered (.addNote args) .wrongPhase s ∧ Answered (.setCue args) .wrongPhase s ∧
        Answered (.cancelCue args) .wrongPhase s ∧ Answered (.clearClip args) .wrongPhase s ∧
        Answered (.mediaRetry args) .wrongPhase s ∧ Answered (.captureRestart args) .wrongPhase s) ∧
    let taken (i : Instr) : Prop := ∃ t r, exec i s = .next t ∧ t.port.response = some r ∧ r.code ≠ .wrongPhase
    (s.port.phase = .setup →
      ∀ i ∈ [Instr.configureClock args, .configureTrack args, .configureCapture args, .configureMedia args,
        .setRunNumber args, .commit args], taken i) ∧
    (s.port.phase = .run →
      (∀ i ∈ [Instr.start args, .stop args, .addNote args, .setCue args, .cancelCue args, .clearClip args,
        .captureRestart args], taken i) ∧
      (s.writer.capture = .mediaFault → taken (.mediaRetry args))) ∧
    ∀ i ∈ [Instr.setTrim args, .setGate args, .setScene args, .setNextTake args, .jamTimecode args, .readStatus args,
        .readSlot args, .readPeer args, .readNote args, .readClip args, .readNotices args, .setNoticeMask args,
        .ackNotices args], taken i

/-- In its phase a command whose argument length does not match is answered BAD VALUE and changes nothing (R177, R194). -/
def Obligations.ArgumentLengthIsChecked : Prop :=
  ∀ (s : State) (args : List Byte),
    (s.port.phase = .setup →
      (args.length ≠ 5 → Answered (.configureClock args) .badValue s ∧ Answered (.configureTrack args) .badValue s) ∧
        (args.length ≠ 13 → Answered (.configureCapture args) .badValue s) ∧
        (args.length ≠ 10 → Answered (.configureMedia args) .badValue s) ∧
        (args.length ≠ 4 → Answered (.setRunNumber args) .badValue s) ∧
        (args.length ≠ 0 → Answered (.commit args) .badValue s)) ∧
    (s.port.phase = .run →
      (args.length ≠ 0 →
        Answered (.start args) .badValue s ∧ Answered (.stop args) .badValue s ∧
          Answered (.cancelCue args) .badValue s ∧ Answered (.clearClip args) .badValue s ∧
          Answered (.mediaRetry args) .badValue s ∧ Answered (.captureRestart args) .badValue s) ∧
        (args.length ≠ 6 → Answered (.setCue args) .badValue s) ∧
        (args.length < 4 → Answered (.addNote args) .badValue s) ∧
        (∀ (kind attach marks : Byte) (rest : List Byte), args = kind :: attach :: marks :: rest →
          let width := (if marks.getLsbD 0 then 14 else 0) + (if marks.getLsbD 1 then 5 else 0) +
            (if marks.getLsbD 2 then 1 else 0)
          rest.length ≤ width ∨ rest.length ≠ width + 1 + field rest width 1 → Answered (.addNote args) .badValue s)) ∧
    (args.length ≠ 3 → Answered (.setTrim args) .badValue s) ∧
    (args.length ≠ 21 → Answered (.setGate args) .badValue s) ∧
    (args.length = 0 → Answered (.setScene args) .badValue s) ∧
    (∀ n name, args = n :: name → name.length ≠ n.toNat → Answered (.setScene args) .badValue s) ∧
    (args.length ≠ 2 → Answered (.setNextTake args) .badValue s ∧ Answered (.readNote args) .badValue s) ∧
    (args.length ≠ 4 →
      Answered (.jamTimecode args) .badValue s ∧ Answered (.setNoticeMask args) .badValue s ∧
        Answered (.ackNotices args) .badValue s) ∧
    (args.length ≠ 1 → Answered (.readSlot args) .badValue s ∧ Answered (.readPeer args) .badValue s) ∧
    (args.length ≠ 0 → Answered (.readClip args) .badValue s ∧ Answered (.readNotices args) .badValue s) ∧
    (args.length ≠ 1 → args.length ≠ 2 → Answered (.readStatus args) .badValue s) ∧
    (args = [7#8] → Answered (.readStatus args) .badValue s) ∧
    (∀ part track : Byte, args = [part, track] → part ≠ 7#8 → Answered (.readStatus args) .badValue s)

/-- The port's own events: a message whose code names no command is answered UNKNOWN; a released selection leaves everything; a
response read clocks out the held response, or the empty response 0xFF with no data. That the response stays held after a read
is the model's inference: notes/assumptions/6.md (R177, R193). -/
def Obligations.UnknownReleaseAndResponseRead : Prop :=
  ∀ s : State,
    (∀ code args, namesNoCommand code = true → Answered (.unknownCommand code args) .unknown s) ∧
    (∀ bytes, exec (.selectionReleased bytes) s = .next s) ∧
    (s.port.response = none →
      exec .responseRead s = .next { s with port := { s.port with output := [255#8, 0#8, 0#8] } }) ∧
    (∀ r, s.port.response = some r →
      exec .responseRead s =
        .next { s with
          port := { s.port with
            output := BitVec.ofNat 8 r.code.code :: BitVec.ofNat 8 (r.data.length / 256) ::
              BitVec.ofNat 8 r.data.length :: r.data } })

/-- Each read answers OK with the data its rule names and changes nothing but the held response; a part, slot, station, index or
track out of range is answered BAD VALUE (R181, R182, R129). The layout of the data is in part the model's reading: zero bytes
for an absent field (notes/assumptions/14.md), which values share a presence byte (25.md), 4 bytes for the number of notes
(26.md), a peer's STATUS encoded again from its fields (16.md), and times in milliseconds modulo 2^32 (29.md). -/
def Obligations.ReadsAnswerAndChangeNothing : Prop :=
  ∀ s : State,
    let gives (i : Instr) (data : List Byte) : Prop :=
      exec i s = .next { s with port := { s.port with response := some { code := .ok, data := data } } }
    gives (.readStatus [1#8]) (enginePart s) ∧ gives (.readStatus [2#8]) (clockPart s) ∧
    gives (.readStatus [3#8]) (ringPart s) ∧ gives (.readStatus [4#8]) (linkPart s) ∧
    gives (.readStatus [5#8]) (notesPart s) ∧ gives (.readStatus [6#8]) (mediaPart s) ∧
    (∀ n : Fin 16, gives (.readStatus (7#8 :: be 1 (n.val + 1))) (trackPart s n)) ∧
    (∀ n, n = 0 ∨ 16 < n → n < 256 → Answered (.readStatus (7#8 :: be 1 n)) .badValue s) ∧
    (∀ n, n = 0 ∨ 7 < n → n < 256 → Answered (.readStatus (be 1 n)) .badValue s) ∧
    (∀ n : Fin 3, gives (.readSlot (be 1 (n.val + 1))) (slotData s n)) ∧
    (∀ n, n = 0 ∨ 3 < n → n < 256 → Answered (.readSlot (be 1 n)) .badValue s) ∧
    (∀ n : Fin 8, gives (.readPeer (be 1 n.val)) (peerData s n)) ∧
    (∀ n, 7 < n → n < 256 → Answered (.readPeer (be 1 n)) .badValue s) ∧
    (∀ n x, n < 65536 → s.store.notes[n]? = some x → gives (.readNote (be 2 n)) (noteRecord x.note ++ be 1 x.state.code)) ∧
    (∀ n, n < 65536 → s.store.notes.length ≤ n → Answered (.readNote (be 2 n)) .badValue s) ∧
    gives (.readClip []) (clipData s) ∧
    gives (.readNotices []) (be 4 s.notices.pending.toNat ++ be 4 s.notices.mask.toNat)

/-- ACK NOTICES removes the kinds it names, SET NOTICE MASK replaces the mask, each driving the attention line; a set that names a
kind that is not one of the twenty is answered BAD VALUE; the mask is empty after power-on and the RESET line, and COMMIT
and CAPTURE RESTART leave it (R186). -/
def Obligations.AckAndMaskNotices : Prop :=
  ∀ (s : State) (v : Nat), v < 2 ^ 32 →
    (v < 2 ^ 20 →
      TakenOk (.ackNotices (be 4 v)) s
        { s with notices :=
            noticeUnit (s.notices.pending &&& ~~~BitVec.ofNat 20 v) s.notices.mask } ∧
      TakenOk (.setNoticeMask (be 4 v)) s { s with notices := noticeUnit s.notices.pending (BitVec.ofNat 20 v) }) ∧
    (2 ^ 20 ≤ v → Answered (.ackNotices (be 4 v)) .badValue s ∧ Answered (.setNoticeMask (be 4 v)) .badValue s) ∧
    (∀ strap, ∃ t, exec (.powerOn strap) s = .next t ∧ exec (.reset strap) s = .next t ∧ t.notices.mask = 0) ∧
    (∀ args, ∃ t, exec (.commit args) s = .next t ∧ t.notices.mask = s.notices.mask) ∧
    (∀ args, ∃ t, exec (.captureRestart args) s = .next t ∧ t.notices.mask = s.notices.mask)

/-! ## Configuration and operating values (R5, R11, R28, R36, R37, R80, R81, R104, R153, R157, R179, R180) -/

/-- CONFIGURE CLOCK, CONFIGURE TRACK, CONFIGURE MEDIA and SET RUN NUMBER in SETUP: the four clock values together, with the newest
position and the reference offset set to 0 on a change of sample rate; the four settings of one track together; the card
range; the run number. A value outside the rule's is answered BAD VALUE. That the mark of R33, 'at least one frame has
arrived', is cleared on a change of sample rate is R33's own clause (R28, R33, R5, R157, R104, R194). -/
def Obligations.ConfigureClockTrackMediaAndRun : Prop :=
  ∀ s : State, s.port.phase = .setup →
    (∀ (rate : SampleRate) (tc : TcRate) (check : Bool) (tol : Nat), tol ≤ 255 →
      TakenOk (.configureClock (be 1 rate.code ++ be 1 tc.code ++ flagByte check ++ be 2 tol)) s
        (if rate = s.counter.sampleRate then
          { s with counter := { s.counter with tcRate := tc, refCheck := check, refTolerance := tol } }
        else
          { s with
            counter :=
              { s.counter with
                sampleRate := rate, tcRate := tc, refCheck := check, refTolerance := tol, newest := 0, refOffset := 0,
                frameSeen := false } })) ∧
    (∀ rate tc check tol, rate < 256 → tc < 256 → check < 256 → tol < 65536 →
      (rate ≠ 1 ∧ rate ≠ 2) ∨ (tc ≠ 24 ∧ tc ≠ 25 ∧ tc ≠ 30) ∨ 1 < check ∨ 255 < tol →
      Answered (.configureClock (be 1 rate ++ be 1 tc ++ be 1 check ++ be 2 tol)) .badValue s) ∧
    (∀ (n : Fin 16) (kind : ChannelKind) (k : Nat) (mix : Bool) (partner : Nat),
      3 ≤ k → k ≤ 6 → partner ≤ 16 → partner ≠ n.val + 1 →
      TakenOk (.configureTrack (be 1 (n.val + 1) ++ be 1 kind.code ++ be 1 k ++ flagByte mix ++ be 1 partner)) s
        { s with
          front :=
            { s.front with
              tracks :=
                s.front.tracks.set n
                  { s.front.tracks[n] with
                    kind := kind, k := k, mixEnable := mix, partner := if partner = 0 then none else some partner } } }) ∧
    (∀ track kind k mix partner, track < 256 → kind < 256 → k < 256 → mix < 256 → partner < 256 →
      track = 0 ∨ 16 < track ∨ 3 < kind ∨ k < 3 ∨ 6 < k ∨ 1 < mix ∨ 16 < partner ∨ (partner = track ∧ partner ≠ 0) →
      Answered (.configureTrack (be 1 track ++ be 1 kind ++ be 1 k ++ be 1 mix ++ be 1 partner)) .badValue s) ∧
    (∀ first last, first ≤ last → last < 2 ^ 32 →
      TakenOk (.configureMedia (be 5 first ++ be 5 last)) s
        { s with writer := { s.writer with range := some (first, last) } }) ∧
    (∀ first last, first < 2 ^ 40 → last < 2 ^ 40 → last < first ∨ 2 ^ 32 ≤ last →
      Answered (.configureMedia (be 5 first ++ be 5 last)) .badValue s) ∧
    (∀ n, n ≤ 65535 → TakenOk (.setRunNumber (be 4 n)) s { s with link := { s.link with run := n } }) ∧
    (∀ n, 65535 < n → n < 2 ^ 32 → Answered (.setRunNumber (be 4 n)) .badValue s)

/-- CONFIGURE CAPTURE in SETUP: all five values together with P and Q clamped; the refusals of R179; the values after power-on and
the RESET line (R179). -/
def Obligations.ConfigureCaptureSetsFiveValues : Prop :=
  (∀ s : State, s.port.phase = .setup →
    (∀ p q (mode : Rounding) (mask tol : Nat), p < 2 ^ 32 → q < 2 ^ 32 → mask < 256 → tol ≤ 255 →
      TakenOk (.configureCapture (be 4 p ++ be 4 q ++ be 1 mode.code ++ be 2 mask ++ be 2 tol)) s
        { s with
          front := { s.front with rounding := mode }
          takes :=
            { s.takes with
              preRoll := min p 524288, postRoll := min q 262144, followMask := BitVec.ofNat 8 mask }
          link := { s.link with tolerance := tol } }) ∧
    ∀ p q mode mask tol, p < 2 ^ 32 → q < 2 ^ 32 → mode < 256 → mask < 65536 → tol < 65536 →
      1 < mode ∨ 255 < mask ∨ 255 < tol →
      Answered (.configureCapture (be 4 p ++ be 4 q ++ be 1 mode ++ be 2 mask ++ be 2 tol)) .badValue s) ∧
  ∀ (strap : Fin 8) (s : State), ∃ t, exec (.powerOn strap) s = .next t ∧ exec (.reset strap) s = .next t ∧
    t.takes.preRoll = 96000 ∧ t.takes.postRoll = 24000 ∧ t.front.rounding = .round ∧
    (∀ n : Fin 8, t.takes.followMask[n] = true) ∧ t.link.tolerance = 2

/-- COMMIT: INCOMPLETE without a range of 128 blocks or without an enabled track; otherwise phase, cursor, space state, NEAR FULL,
line state, announce timer and the first STATUS together, from a SETUP state whose queue is empty and whose space state is not
yet set, as R106 and R158 say they are (R180, R84, R95, R158). -/
def Obligations.CommitEntersRun : Prop :=
  ∀ s : State, s.port.phase = .setup →
    ((s.writer.range = none ∨ (∃ r, s.writer.range = some r ∧ r.2 + 1 < 128 + r.1) ∨
        (∀ n : Fin 16, s.front.tracks[n].kind = .off)) →
      Answered (.commit []) .incomplete s) ∧
    ∀ (first last : Nat) (n : Fin 16), s.writer.range = some (first, last) → 128 + first ≤ last + 1 →
      s.front.tracks[n].kind ≠ .off → s.link.queue = [] → s.link.tx = .standby → s.link.listenOnly = false →
      s.writer.space = none →
      exec (.commit []) s =
        .next { s with
          port := { s.port with phase := .run, response := some { code := .ok, data := [] } }
          writer := { s.writer with cursor := some first, space := some (if 2048 < last + 1 - first then .ample else .nearFull) }
          notices :=
            if 2048 < last + 1 - first then s.notices
            else noticeUnit (s.notices.pending ||| BitVec.twoPow 20 14) s.notices.mask
          link :=
            { s.link with
              line := .busy, restFrom := max s.link.restFrom s.time, receiver := .waiting, announce := some s.time
              queue := [{ frame := .status, attempts := 0 }], tx := .waitIdle } }

/-- SET TRIM and SET GATE: the track's trim becomes the code; the gate settings named, brought within their ranges, and nothing
else of the mix; a track outside 1 to 16 is answered BAD VALUE (R11, R153). -/
def Obligations.SetTrimAndSetGate : Prop :=
  ∀ s : State,
    (∀ (n : Fin 16) (code : Nat), code ≤ 65535 →
      TakenOk (.setTrim (be 1 (n.val + 1) ++ be 2 code)) s
        { s with front := { s.front with tracks := s.front.tracks.set n { s.front.tracks[n] with trim := code } } }) ∧
    (∀ track code, track < 256 → code ≤ 65535 → track = 0 ∨ 16 < track →
      Answered (.setTrim (be 1 track ++ be 2 code)) .badValue s) ∧
    ∀ track o c h a d r sus duck : Nat, track < 256 → o < 2 ^ 32 → c < 2 ^ 32 → h < 65536 → a < 65536 →
      d < 65536 → r < 65536 → sus < 65536 → duck < 65536 →
      let args := be 1 track ++ be 4 o ++ be 4 c ++ be 2 h ++ be 2 a ++ be 2 d ++ be 2 r ++ be 2 sus ++ be 2 duck
      (track = 0 ∨ 16 < track → Answered (.setGate args) .badValue s) ∧
      ∀ n : Fin 16, track = n.val + 1 →
        ∃ g : GateSettings,
          TakenOk (.setGate args) s
            { s with mixer := { s.mixer with tracks := s.mixer.tracks.set n { s.mixer.tracks[n] with settings := g } } } ∧
          SettingsInRange g ∧
          g.openThreshold = (if o = 0 then 1 else if 65535 < o then 65535 else o) ∧
          g.closeThreshold = (if g.openThreshold < c then g.openThreshold else if c = 0 then 1 else c) ∧
          g.closeHold = (if 255 < h then 255 else h) ∧
          g.attack = (if a = 0 then 1 else if 4096 < a then 4096 else a) ∧
          g.decay = (if d = 0 then 1 else if 4096 < d then 4096 else d) ∧
          g.release = (if r = 0 then 1 else if 4096 < r then 4096 else r) ∧
          g.sustain = (if 4096 < sus then 4096 else sus) ∧
          g.duck = (if g.sustain < duck then g.sustain else duck)

/-- SET SCENE and SET NEXT TAKE: the scene cut to twelve characters, its unprintable characters replaced, an empty one '-', with
the next take number 1; the number clamped to 1 to 999. No label and no other block changes, but for the STATUS request of R95
in RUN (R80, R81). -/
def Obligations.SetSceneAndNextTake : Prop :=
  ∀ s : State,
    let leaves (t : State) : Prop :=
      t.time = s.time ∧ t.notices = s.notices ∧ t.counter = s.counter ∧ t.front = s.front ∧ t.mixer = s.mixer ∧
        t.ring = s.ring ∧ t.store = s.store ∧ t.writer = s.writer ∧ (s.port.phase = .setup → t.link = s.link) ∧
        t.port = { s.port with response := some { code := .ok, data := [] } }
    (∀ name : Text, name.length ≤ 254 →
      ∃ t, exec (.setScene (be 1 name.length ++ name)) s = .next t ∧ leaves t ∧
        t.takes = { s.takes with
          scene :=
            if name = [] then [45#8]
            else (name.take 12).map fun ch => if 32 ≤ ch.toNat ∧ ch.toNat ≤ 126 then ch else 45#8
          nextTake := 1 }) ∧
    (∀ n, n < 65536 →
      ∃ t, exec (.setNextTake (be 2 n)) s = .next t ∧ leaves t ∧
        t.takes = { s.takes with nextTake := if n = 0 then 1 else if 999 < n then 999 else n })

/-- JAM TIMECODE: the checks of R36 in their order, and the jam of R37 on counter, ring and cue, all together, leaving everything
else (R36, R37). -/
def Obligations.JamTimecodeSetsTheCounter : Prop :=
  ∀ (s : State) (hh mm ss ff : Nat), hh < 256 → mm < 256 → ss < 256 → ff < 256 →
    let args := be 1 hh ++ be 1 mm ++ be 1 ss ++ be 1 ff
    let inHand := (∃ i : Fin 3, s.takes.slots[i] ≠ none) ∨ s.takes.pendingStart ≠ none
    let j := ((hh * 60 + mm) * 60 + ss) * s.counter.sampleRate.hz +
      ff * samplesPerFrame s.counter.sampleRate s.counter.tcRate
    (23 < hh ∨ 59 < mm ∨ 59 < ss ∨ s.counter.tcRate.fps ≤ ff → Answered (.jamTimecode args) .badValue s) ∧
    (hh ≤ 23 → mm ≤ 59 → ss ≤ 59 → ff < s.counter.tcRate.fps →
      (s.port.phase = .run → inHand → Answered (.jamTimecode args) .busy s) ∧
      (s.port.phase = .setup ∨ ¬inHand →
        TakenOk (.jamTimecode args) s
          { s with
            counter :=
              { s.counter with
                newest := (j + s.day - 1) % s.day, frameSeen := false, cue := none }
            ring := { s.ring with frames := [] } } ∧
        j < s.day ∧ ((j + s.day - 1) % s.day + 1) % s.day = j))

/-! ## Starts and stops (R57, R61 to R67, R71, R72) -/

/-- A local START in IDLE with the card not FULL: a slot is started, or a pending start made, with the current scene and next take
number, the own origin, and a requested start P before the newest position (R62, R67). -/
def Obligations.StartInIdle : Prop :=
  ∀ s : State, s.port.phase = .run → enginePhase s = .idle → cardFull s = false →
    let label : Label := { scene := s.takes.scene, number := s.takes.nextTake }
    let sr := posSub s.day s.counter.newest s.takes.preRoll
    let kept (t : State) : Prop :=
      t.port = { s.port with response := some { code := .ok, data := [] } } ∧ t.counter = s.counter ∧
        t.front = s.front ∧ t.mixer = s.mixer ∧ t.ring = s.ring ∧ t.time = s.time ∧ t.takes.scene = s.takes.scene ∧
        t.takes.nextTake = s.takes.nextTake ∧ t.takes.closed = s.takes.closed
    (∀ i : Fin 3, emptySlot s = some i →
      ∃ t u, exec (.start []) s = .next t ∧ kept t ∧ t.takes.slots[i] = some u ∧ t.takes.pendingStart = none ∧
        t.takes.serial = nextSerial s.takes.serial ∧ t.notices = noticeUnit (s.notices.pending ||| 1#20) s.notices.mask ∧
        u.phase = .rolling ∧ u.serial = nextSerial s.takes.serial ∧ u.label = label ∧ u.former = [] ∧
        u.origin = s.port.station.val ∧ u.sr = sr ∧ u.e = none ∧ u.z = none ∧ u.postRoll = 0 ∧
        u.h = (headOf .afterFrame s sr).1 ∧ u.next = (headOf .afterFrame s sr).2 ∧
        u.watch = posAdd s.day s.counter.newest 1 ∧ u.w = 0 ∧ u.flags = {} ∧ u.noteRefs = [] ∧
        u.firstBlock = none ∧ u.blocks = 0 ∧ u.indexIssued = false ∧
        ∀ n : Fin 16, u.tracks[n] = if s.front.tracks[n].kind = .off then none else some {}) ∧
    (emptySlot s = none →
      ∃ t, exec (.start []) s = .next t ∧ kept t ∧ t.takes.serial = s.takes.serial ∧ t.notices = s.notices ∧
        t.takes.pendingStart =
          some { label := label, origin := s.port.station.val, start := sr, source := .command, reached := true })

/-- A START in ROLLING or START PENDING is answered ALREADY and changes nothing, whether or not the card is FULL; from the cue it
has no effect (R64). While the card is FULL a local START in IDLE or POST is refused: START REFUSED is raised and nothing
else changes (R62 step 1, R63). -/
def Obligations.StartIsAlreadyOrRefused : Prop :=
  ∀ s : State, s.port.phase = .run →
    (enginePhase s = .rolling ∨ enginePhase s = .startPending →
      Answered (.start []) .already s ∧ cueRequest .start s = s) ∧
    (enginePhase s = .idle ∨ enginePhase s = .post → cardFull s = true →
      exec (.start []) s =
        .next { s with
          port := { s.port with response := some { code := .refused, data := [] } }
          notices := noticeUnit (s.notices.pending ||| BitVec.twoPow 20 2) s.notices.mask } ∧
      exec .recordKey s =
        .next { s with notices := noticeUnit (s.notices.pending ||| BitVec.twoPow 20 2) s.notices.mask } ∧
      cueRequest .start s =
        { s with notices := noticeUnit (s.notices.pending ||| BitVec.twoPow 20 2) s.notices.mask })

/-- A START in POST cuts the post-roll at the newest position, closes that take, and starts the next one in the lowest EMPTY slot;
the closed identity joins the closed-identity list, the oldest of 4 going first (R63, R71, R72, R110). -/
def Obligations.StartInPostCutsThePostRoll : Prop :=
  (∀ (x : Identity) (l : List Identity),
    (l.length < 4 → appendClosed x l = l ++ [x]) ∧
    ∀ oldest rest, l = oldest :: rest → l.length = 4 → appendClosed x l = rest ++ [x]) ∧
  ∀ (s : State) (i j : Fin 3) (u : Take) (e : Nat), s.port.phase = .run → cardFull s = false → openSlot s = some i →
    (∀ k : Fin 3, isOpen s.takes.slots[k] = true → k = i) →
    s.takes.slots[i] = some u → u.phase = .post → u.e = some e → emptySlot s = some j →
    isEarlier s.day s.counter.newest e = false →
    isLater s.day s.counter.newest (posAdd s.day e s.takes.postRoll) = false →
    ∃ t v w, exec (.start []) s = .next t ∧ t.port = { s.port with response := some { code := .ok, data := [] } } ∧
      t.takes.slots[i] = some v ∧ t.takes.slots[j] = some w ∧ t.counter = s.counter ∧ t.ring = s.ring ∧
      v.phase = .closing ∧ v.label = u.label ∧ v.e = some e ∧ v.z = some s.counter.newest ∧
      v.postRoll = countAfter s.day e s.counter.newest ∧ v.sr = u.sr ∧ v.serial = u.serial ∧ v.flags = u.flags ∧
      t.takes.scene = u.label.scene ∧
      t.takes.nextTake = (if u.label.number < 999 then u.label.number + 1 else 1) ∧
      t.takes.closed = appendClosed u.identity s.takes.closed ∧
      w.phase = .rolling ∧ w.label = { scene := t.takes.scene, number := t.takes.nextTake } ∧
      w.origin = s.port.station.val ∧ w.sr = posSub s.day s.counter.newest s.takes.preRoll ∧
      w.serial = nextSerial s.takes.serial

/-- A STOP by phase: ROLLING stops the open take at the newest position, an awaited stop or not; START PENDING removes the pending
start; POST and IDLE answer ALREADY and change nothing (R65, R68). -/
def Obligations.StopByPhase : Prop :=
  ∀ s : State, s.port.phase = .run →
    (enginePhase s = .post ∨ enginePhase s = .idle → Answered (.stop []) .already s) ∧
    (enginePhase s = .startPending →
      ∃ t, exec (.stop []) s = .next t ∧ t.port = { s.port with response := some { code := .ok, data := [] } } ∧
        t.takes.pendingStart = none ∧ enginePhase t = .idle ∧ t.takes.nextTake = s.takes.nextTake ∧
        t.takes.scene = s.takes.scene ∧ t.takes.serial = s.takes.serial ∧ t.notices = s.notices ∧
        t.counter = s.counter ∧ t.ring = s.ring) ∧
    ∀ (i : Fin 3) (u : Take), openSlot s = some i → s.takes.slots[i] = some u → u.phase = .rolling →
      ∃ t v, exec (.stop []) s = .next t ∧ t.port = { s.port with response := some { code := .ok, data := [] } } ∧
        t.takes.slots[i] = some v ∧ v.e = some s.counter.newest ∧ v.postRoll = 0 ∧ v.label = u.label ∧
        v.origin = u.origin ∧ v.sr = u.sr ∧ v.flags = u.flags ∧ t.notices = s.notices ∧ t.counter = s.counter ∧
        t.ring = s.ring ∧ t.takes.pendingStart = s.takes.pendingStart ∧
        (0 < s.takes.postRoll →
          v.phase = .post ∧ v.z = u.z ∧ t.takes.nextTake = s.takes.nextTake ∧ t.takes.scene = s.takes.scene) ∧
        (s.takes.postRoll = 0 → s.counter.newest < s.day →
          v.phase = .closing ∧ v.z = some s.counter.newest ∧ t.takes.scene = u.label.scene ∧
            t.takes.nextTake = (if u.label.number < 999 then u.label.number + 1 else 1))

/-- A press of the record key is a START in IDLE or POST and a STOP in ROLLING or START PENDING, with the effect the command has
and no response; a pending start it makes has source KEY (R66, R62). In SETUP it is ignored (R61). -/
def Obligations.RecordKeyStartsOrStops : Prop :=
  ∀ s : State,
    (s.port.phase = .setup → exec .recordKey s = .next s) ∧
    (s.port.phase = .run → enginePhase s = .idle ∨ enginePhase s = .post → (emptySlot s).isSome = true →
      ∃ t, exec (.start []) s = .next t ∧ exec .recordKey s = .next { t with port := s.port }) ∧
    (s.port.phase = .run → enginePhase s = .rolling ∨ enginePhase s = .startPending →
      ∃ t, exec (.stop []) s = .next t ∧ exec .recordKey s = .next { t with port := s.port }) ∧
    (s.port.phase = .run → enginePhase s = .idle ∨ enginePhase s = .post → emptySlot s = none → cardFull s = false →
      ∃ t q, exec (.start []) s = .next t ∧ t.takes.pendingStart = some q ∧
        exec .recordKey s =
          .next { t with
            port := s.port, takes := { t.takes with pendingStart := some { q with source := .key } } })

/-- The head of a started slot from the ring's lookup: the oldest held O from S up to the newest position gives the positions
from S to the position before O; NONE gives those up to the first position the ring could still supply, which is the position
after the newest, and for a start inside an arrival the arriving frame's (R48, R49, R67). -/
def Obligations.HeadShortfallFollowsTheLookup : Prop :=
  ∀ (v : RingView) (s : State) (p : Nat), isLater s.day p s.counter.newest = false →
    let offset (q : Nat) : Nat := (q + (s.day - p % s.day)) % s.day
    let inReach (g : RingFrame) : Prop := offset g.pos ≤ offset s.counter.newest
    (∀ (older newer : List RingFrame) (f : RingFrame), s.ring.frames = older ++ f :: newer →
      (∀ g ∈ older, ¬inReach g) → inReach f →
      (headOf v s p).2 = f.pos ∧ (p + (headOf v s p).1) % s.day = f.pos % s.day ∧ 2 * (headOf v s p).1 ≤ s.day) ∧
    ((∀ g ∈ s.ring.frames, ¬inReach g) →
      let unseen : Nat := if v = .afterFrame then (s.counter.newest + 1) % s.day else s.counter.newest
      (headOf v s p).2 = unseen ∧ (p + (headOf v s p).1) % s.day = unseen % s.day ∧ 2 * (headOf v s p).1 ≤ s.day ∧
        (v = .afterFrame → (headOf v s p).1 = countTo s.day p s.counter.newest))

/-! ## Notes, the cue and the other commands of a run (R23, R38, R40, R127, R128, R171, R183) -/

/-- ADD NOTE: the checks of R127 in their order, each refusal changing nothing. The contents fit when a track is 1 to 16, a
position below D, a take number 1 to 999, and TRACK NAME has a track and MARK a position. The attach option names the open take,
else the CLOSING slot started most recently of those whose index record is not issued, the order of starts being read from the
serials by notes/assumptions/12.md. A note that passes is stored with the next sequence, in a full store in place of the oldest
WRITTEN note, attached as NotesAttachToTakes says, and queued as a NOTE frame; the answer carries the sequence. A NOTE that
reaches the head of an empty queue in STANDBY waits for an IDLE line, defers, or is sent at once (R127, R128, R131, R133, R93,
R89). -/
def Obligations.AddNoteStoresOrRefuses : Prop :=
  ∀ (s : State) (args : List Byte) (a : NoteArgs), s.port.phase = .run → readNoteArgs args = some a →
    let drains (i : Fin 3) (u : Take) : Prop := s.takes.slots[i] = some u ∧ u.phase = .closing ∧ u.indexIssued = false
    (∀ i u, openSlot s = some i → s.takes.slots[i] = some u → attachLabel s = some u.label) ∧
    (∀ i u, openSlot s = none → drains i u → (∀ j v, j ≠ i → drains j v → startAge s u < startAge s v) →
      attachLabel s = some u.label) ∧
    (openSlot s = none → (∀ i u, ¬drains i u) → attachLabel s = none) ∧
    (noteKindOf a.kind = none ∨ onOff a.attach = none → Answered (.addNote args) .badValue s) ∧
    ∀ kind attach, noteKindOf a.kind = some kind → onOff a.attach = some attach →
      let fits : Prop :=
        (∀ n, a.raw.track = some n → 1 ≤ n ∧ n ≤ 16) ∧ (∀ p, a.raw.pos = some p → p < s.day) ∧
          (∀ label, a.raw.ref = some label → 1 ≤ label.number ∧ label.number ≤ 999) ∧
          (kind = .trackName → a.raw.track ≠ none) ∧ (kind = .mark → a.raw.pos ≠ none)
      (¬fits → Answered (.addNote args) .badValue s) ∧
      (fits →
        (65535 ≤ s.store.seq → Answered (.addNote args) .refused s) ∧
        (s.store.seq < 65535 → attach = true → attachLabel s = none → Answered (.addNote args) .refused s) ∧
        (s.store.seq < 65535 → attach = false ∨ (attachLabel s).isSome = true →
          (256 ≤ s.store.notes.length → (∀ x ∈ s.store.notes, x.state ≠ .written) → Answered (.addNote args) .busy s) ∧
          (∀ kept : List StoredNote,
            (s.store.notes.length < 256 ∧ kept = s.store.notes) ∨
              (256 ≤ s.store.notes.length ∧ ∃ older x newer, s.store.notes = older ++ x :: newer ∧
                x.state = .written ∧ (∀ y ∈ older, y.state ≠ .written) ∧ kept = older ++ newer) →
            let n : Note :=
              { id := { originator := s.port.station.val, run := s.link.run, seq := s.store.seq + 1 }
                kind := kind, ref := if attach then attachLabel s else a.raw.ref, pos := a.raw.pos
                track := a.raw.track
                text := (a.raw.text.map printable).take (if kind = .trackName then 16 else 64) }
            let marks (u : Take) := (u.noteRefs, u.flags, u.tracks)
            ∃ t, exec (.addNote args) s = .next t ∧
              t.port = { s.port with response := some { code := .ok, data := be 2 (s.store.seq + 1) } } ∧
              t.store.notes.map StoredNote.note = kept.map StoredNote.note ++ [n] ∧
              (∀ i : Fin 3, t.takes.slots[i].map marks = (tryAttach n s).takes.slots[i].map marks) ∧
              (s.link.listenOnly = true → t.link.queue = s.link.queue) ∧
              (s.link.listenOnly = false → s.link.queue.length < 8 →
                t.link.queue = s.link.queue ++ [{ frame := .note n, attempts := 0 }]) ∧
              (s.link.listenOnly = false → s.link.queue = [] → s.link.tx = .standby →
                let deferral := (s.port.station.val + (if s.link.penalty then 9 else 1)) * 8
                (s.link.line ≠ .idle → t.link.tx = .waitIdle) ∧
                (s.link.line = .idle → s.time < s.link.idleFrom + deferral → t.link.tx = .defer) ∧
                (s.link.line = .idle → s.link.idleFrom + deferral ≤ s.time →
                  t.link.tx = .send ∧ t.link.attemptFrom = s.time ∧ t.link.line = .busy ∧
                    t.link.sending = frameBytes 2#8 (BitVec.ofNat 8 s.port.station.val) (noteBytes n))) ∧
              (s.link.listenOnly = false → 8 ≤ s.link.queue.length →
                t.link.queue = s.link.queue ∧
                  t.link.counts = { s.link.counts with refused := min 65535 (s.link.counts.refused + 1) }) ∧
              t.store.seq = s.store.seq + 1 ∧ t.store.duplicates = s.store.duplicates ∧
              t.store.refused = s.store.refused ∧ t.store.rejected = s.store.rejected ∧ t.store.lost = s.store.lost ∧
              t.notices = s.notices ∧ t.counter = s.counter ∧ t.front = s.front ∧ t.mixer = s.mixer ∧
              t.ring = s.ring ∧ t.link.peers = s.link.peers)))

/-- A stored note that carries a reference attaches when its originator is this station or in the follow mask: to the slot that
carries the label, or failing that carried it before a merge, of these to the one started most recently, while its index record
is not issued. A STOP leaves the take its label and former labels, and issues its record only by the decision at its end
(RecordDecided; a note at the same time as an entry to CLOSING is taken before it: the model's choice, notes/assumptions/22.md).
The take gains the note's reference, up to 32, and the effect of the note's kind. Anything else leaves every take. The order of
starts is read from the serials by notes/assumptions/12.md (R133, R134, R135 in part, R161, R164). -/
def Obligations.NotesAttachToTakes : Prop :=
  ∀ (n : Note) (s : State),
    let mine : Prop := n.id.originator = s.port.station.val ∨ s.takes.followMask.getLsbD n.id.originator = true
    let byLabel (ref : Label) (i : Fin 3) (u : Take) : Prop :=
      s.takes.slots[i] = some u ∧ u.indexIssued = false ∧ u.label = ref
    let byFormer (ref : Label) (i : Fin 3) (u : Take) : Prop :=
      s.takes.slots[i] = some u ∧ u.indexIssued = false ∧ ref ∈ u.former
    let latest (p : Fin 3 → Take → Prop) (i : Fin 3) (u : Take) : Prop :=
      p i u ∧ ∀ j v, j ≠ i → p j v → startAge s u < startAge s v
    (∀ (i : Fin 3) (u : Take), s.port.phase = .run → openSlot s = some i → s.takes.slots[i] = some u →
      u.phase = .rolling →
      ∃ t v, exec (.stop []) s = .next t ∧ t.takes.slots[i] = some v ∧ v.label = u.label ∧ v.former = u.former ∧
        RecordDecided s t i u v) ∧
    (n.ref = none ∨ ¬mine → tryAttach n s = s) ∧
    ∀ ref, n.ref = some ref → mine →
      ((∀ i u, ¬byLabel ref i u ∧ ¬byFormer ref i u) → tryAttach n s = s) ∧
      ∀ i u, latest (byLabel ref) i u ∨ ((∀ j v, ¬byLabel ref j v) ∧ latest (byFormer ref) i u) →
        ∃ v, tryAttach n s = { s with takes := { s.takes with slots := s.takes.slots.set i (some v) } } ∧
          v.noteRefs = (if n.id ∈ u.noteRefs ∨ 32 ≤ u.noteRefs.length then u.noteRefs else u.noteRefs ++ [n.id]) ∧
          { v with noteRefs := u.noteRefs } =
            match n.kind with
            | .slate => u
            | .mark => u
            | .circle => { u with flags := { u.flags with circled := true } }
            | .falseStart => { u with flags := { u.flags with falseStart := true } }
            | .wild => { u with flags := { u.flags with wild := true } }
            | .trackName =>
              { u with
                tracks :=
                  Vector.ofFn fun k : Fin 16 =>
                    if n.track = some (k.val + 1) then
                      u.tracks[k].map fun x => { x with name := some (n.text.take 16) }
                    else u.tracks[k] }

/-- SET CUE: BAD VALUE, LATE or OK by R38's checks in order; CANCEL CUE: OK on an entry, ALREADY without one (R38, R40). -/
def Obligations.SetCueAndCancelCue : Prop :=
  ∀ s : State, s.port.phase = .run →
    (∀ (kind : CueKind) (p : Nat), p < 2 ^ 40 →
      let args := be 1 kind.code ++ be 5 p
      (s.day ≤ p → Answered (.setCue args) .badValue s) ∧
      (p < s.day → isLater s.day p s.counter.newest = false → Answered (.setCue args) .late s) ∧
      (p < s.day → isLater s.day p s.counter.newest = true →
        TakenOk (.setCue args) s { s with counter := { s.counter with cue := some { kind := kind, pos := p } } })) ∧
    (∀ kind p, kind < 256 → kind ≠ 1 → kind ≠ 2 → p < 2 ^ 40 → Answered (.setCue (be 1 kind ++ be 5 p)) .badValue s) ∧
    (s.counter.cue = none → Answered (.cancelCue []) .already s) ∧
    (s.counter.cue ≠ none → TakenOk (.cancelCue []) s { s with counter := { s.counter with cue := none } })

/-- CLEAR CLIP clears the flag and empties the record, answers OK set or clear, and leaves notices, take counts and the mix clip
count; in SETUP it is answered WRONG PHASE (R23). -/
def Obligations.ClearClipEmptiesTheRecord : Prop :=
  ∀ s : State,
    (s.port.phase = .setup → Answered (.clearClip []) .wrongPhase s) ∧
    (s.port.phase = .run → s.front.clipFlag = true →
      TakenOk (.clearClip []) s { s with front := { s.front with clipFlag := false, firstClip := none } }) ∧
    (s.port.phase = .run → s.front.clipFlag = false → TakenOk (.clearClip []) s s) ∧
    ∀ (src : ClipSource) (serial : Option Nat) (pos : Nat),
      (s.front.clipFlag = true → offerClip src serial pos s = s) ∧
      (s.front.clipFlag = false →
        offerClip src serial pos s =
          { s with
            front :=
              { s.front with clipFlag := true, firstClip := some { source := src, serial := serial, pos := pos } }
            notices := noticeUnit (s.notices.pending ||| BitVec.twoPow 20 10) s.notices.mask })

/-- MEDIA RETRY as it is answered: WRONG PHASE in NORMAL and HALTED, BUSY with its fault record in flight, REFUSED in EXHAUSTED,
otherwise a fault record issued at the cursor with the list as it stands (R171). That any write in flight makes the answer BUSY is
the model's reading: notes/assumptions/15.md. -/
def Obligations.MediaRetryIssuesAFaultRecord : Prop :=
  ∀ s : State, s.port.phase = .run →
    (s.writer.capture ≠ .mediaFault → Answered (.mediaRetry []) .wrongPhase s) ∧
    (s.writer.capture = .mediaFault →
      (∀ w, s.writer.inFlight = some w → Answered (.mediaRetry []) .busy s) ∧
      (s.writer.inFlight = none → s.writer.space = some .exhausted → Answered (.mediaRetry []) .refused s) ∧
      (∀ c, s.writer.inFlight = none → s.writer.space ≠ some .exhausted → s.writer.cursor = some c →
        TakenOk (.mediaRetry []) s
          { s with
            writer :=
              { s.writer with
                inFlight :=
                  some
                    { addr := c, content := .fault s.writer.skipped s.writer.unlisted, attempt := .first, stale := false,
                      ofRetryCommand := true } } }))

/-- CAPTURE RESTART: what each block loses and what it keeps. The note block that a free writer then issues at once is left to
the clauses on the notes (R183, R82, R110, R51, R156, R173, R132). -/
def Obligations.CaptureRestartAbandonsTheCapture : Prop :=
  ∀ s : State, s.port.phase = .run →
    ∃ t, exec (.captureRestart []) s = .next t ∧
      t.port = { s.port with response := some { code := .ok, data := [] } } ∧
      (∀ i : Fin 3, t.takes.slots[i] = none) ∧ t.takes.pendingStart = none ∧ t.takes.closed = [] ∧
      enginePhase t = .idle ∧ t.takes.serial = s.takes.serial ∧ t.takes.scene = s.takes.scene ∧
      t.takes.nextTake = s.takes.nextTake ∧ t.takes.preRoll = s.takes.preRoll ∧ t.takes.postRoll = s.takes.postRoll ∧
      t.takes.followMask = s.takes.followMask ∧
      t.notices =
        (if (∃ i : Fin 3, s.takes.slots[i] ≠ none) ∨ s.takes.pendingStart ≠ none then
          noticeUnit (s.notices.pending ||| BitVec.twoPow 20 19) s.notices.mask
        else s.notices) ∧
      t.ring = { s.ring with frames := [] } ∧
      t.mixer.blockCount = 0 ∧ t.mixer.clips = s.mixer.clips ∧ t.mixer.output = s.mixer.output ∧
      (∀ n : Fin 16, t.mixer.tracks[n] =
        { s.mixer.tracks[n] with gate := .closed, hold := 0, envelope := .closed, gain := 0, peak := 0 }) ∧
      t.writer.held = none ∧ t.writer.capture = .normal ∧ t.writer.skipped = [] ∧ t.writer.unlisted = 0 ∧
      t.writer.cursor = s.writer.cursor ∧ t.writer.range = s.writer.range ∧ t.writer.space = s.writer.space ∧
      t.writer.failed = s.writer.failed ∧
      (∀ w, s.writer.inFlight = some w →
        t.writer.inFlight = some { w with stale := true } ∧
        t.store.notes = s.store.notes.map fun x => if x.state = .writing then { x with state := .pending } else x) ∧
      (s.writer.inFlight = none → s.store.notes = [] → t.writer.inFlight = none ∧ t.store.notes = []) ∧
      t.store.notes.map StoredNote.note = s.store.notes.map StoredNote.note ∧ t.store.seq = s.store.seq ∧
      t.counter = s.counter ∧ t.front = s.front ∧ t.time = s.time ∧ t.link.run = s.link.run ∧
      t.link.peers = s.link.peers ∧ t.link.counts = s.link.counts ∧ t.link.listenOnly = s.link.listenOnly ∧
      t.link.announce = s.link.announce

/-! ## The sample path (R6, R9, R25, R31 to R34, R39, R44, R45, R60, R68 to R70, R144 to R151) -/

/-- A frame that arrives in SETUP is stamped and sends 0 on the mix output port; that is the whole of what happens. The rows for a
condition that falls due at an arrival concern RUN alone: in SETUP they change nothing (R6, R25, R31, R32, R147;
notes/assumptions/4.md for the rows). -/
def Obligations.SetupFrameIsOnlyStamped : Prop :=
  ∀ (f : FrameIn) (s : State), s.port.phase = .setup →
    exec (.frameArrival f) s =
      .next { s with
        counter :=
          { s.counter with
            newest := (s.counter.newest + 1) % s.day, clock := .running, lossTimer := some s.time, frameSeen := true }
        notices :=
          if s.counter.clock = .lost then noticeUnit (s.notices.pending ||| BitVec.twoPow 20 17) s.notices.mask
          else s.notices
        mixer := { s.mixer with output := some 0 } } ∧
    (∀ track, exec (.returnToHigh track f) s = .next s) ∧ exec (.cueFire f) s = .next s ∧
    exec (.awaitedStop f) s = .next s ∧ exec (.postRollComplete f) s = .next s ∧ exec (.halfDayStop f) s = .next s ∧
    exec (.blockEnd f) s = .next s ∧ exec .pendingStartPromotion s = .next s

/-- A frame that arrives in RUN: it is stamped with the next position, converted, mixed with the gains in force, sent on the mix
output port in 24 bits, the most significant first, and offered to the ring; the cue at its position is cleared. The mix is the
exact sum, over the mix-enabled tracks, of the value of the track's word times its gain. A clip that finds the station clip flag
clear fills the first-clip record: with the lowest-numbered track that clips, else with the mix, the serial of the open take, and
the frame's position (R22). A ring with room appends the frame. A full one drops its oldest frame when no slot needs that, and is
otherwise overrun: the frame is discarded, the discard count rises, OVERRUN is raised, and every slot whose range covers the
position takes it into its gap list. The slots are those of the moment the frame is converted, after the stops, the promotion and
the cue of its stamping, in the order of notes/assumptions/5.md and notes/assumptions/18.md (R25, R6, R39, R41, R44, R45, R143,
R145 to R147, R190 in part). -/
def Obligations.RunFrameIsStampedMixedAndHeld : Prop :=
  ∀ (f : FrameIn) (s : State), s.port.phase = .run →
    let p := (s.counter.newest + 1) % s.day
    let met := fireCue (promoteAtStamp (takeArrival (stampFrame s)))
    let conv := convertAll s f
    let mix := stage3 s.front.rounding (mixSum s conv)
    let frame : RingFrame :=
      { pos := p, words := frameWords conv, mix := if mixIsEnabled s then some mix.1 else none, clips := frameClips conv }
    let mixed (n : Fin 16) : Prop := s.front.tracks[n].kind ≠ .off ∧ s.front.tracks[n].mixEnable = true
    (∀ term : Fin 16 → Int,
      (∀ n, mixed n → term n = valueOf conv[n].word * s.mixer.tracks[n].gain) → (∀ n, ¬mixed n → term n = 0) →
      mixSum s conv = ((List.finRange 16).map term).sum) ∧
    (mixIsEnabled s = true ↔ ∃ n, mixed n) ∧
    (s.takes.pendingStart = none → s.counter.cue.map Cue.pos ≠ some p → ∀ (i : Fin 3) (u : Take), s.takes.slots[i] = some u →
      u.phase = .closing ∨ (u.phase = .rolling ∧ u.e ≠ some p ∧ p ≠ halfDayLimit s.day u.sr s.takes.postRoll) →
      met.takes.slots[i] = some u) ∧
    ∃ t, exec (.frameArrival f) s = .next t ∧
      t.counter =
        { s.counter with
          newest := p, clock := .running, lossTimer := some s.time, frameSeen := true
          cue := if s.counter.cue.map Cue.pos = some p then none else s.counter.cue } ∧
      (s.ring.frames.length < 1048576 → t.ring = { s.ring with frames := s.ring.frames ++ [frame] }) ∧
      (∀ (o : RingFrame) (rest : List RingFrame), s.ring.frames = o :: rest → 1048576 ≤ rest.length + 1 →
        (isProtected met o.pos = false → t.ring = { s.ring with frames := rest ++ [frame] }) ∧
        (isProtected met o.pos = true →
          t.ring = { s.ring with discards := min 4294967295 (s.ring.discards + 1) } ∧ isPending .overrun t = true ∧
          (cardFull s = false → ∀ (i : Fin 3) (u : Take), met.takes.slots[i] = some u →
            (∃ g ∈ s.ring.frames, g.pos = u.next) →
            let reported : Take :=
              if u.phase = .rolling ∨
                  (u.phase = .post ∧ isLater s.day p (posAdd s.day (u.e.getD u.sr) s.takes.postRoll) = false) ∨
                  (u.phase = .closing ∧ inRange s.day s.takes.postRoll u p = true) then insertRun s.day p 1 u
              else u
            ∃ v, t.takes.slots[i] = some v ∧ v.gaps = reported.gaps ∧ v.gapsMerged = reported.gapsMerged ∧
              v.next = u.next ∧ v.g = u.g))) ∧
      (∃ v : BitVec 24, t.mixer.output = some v ∧ v.toInt = (if mixIsEnabled s then mix.1 else 0) ∧
        (portBits v).length = 24 ∧ ∀ k, k < 24 → (portBits v)[k]? = some (v.getLsbD (23 - k))) ∧
      t.mixer.clips = (if mixIsEnabled s ∧ mix.2 = true then min 4294967295 (s.mixer.clips + 1) else s.mixer.clips) ∧
      (∀ n : Fin 16, t.front.tracks[n] = (convertTrack s.front.rounding s.front.tracks[n] f[n]).track) ∧
      t.front.rounding = s.front.rounding ∧
      t.front.clipFlag =
        (s.front.clipFlag || !(frameClips conv).isEmpty || (mixIsEnabled s && mix.2)) ∧
      (s.front.clipFlag = true → t.front.firstClip = s.front.firstClip) ∧
      (s.front.clipFlag = false →
        let filled (src : ClipSource) : Prop :=
          t.front.firstClip = some { source := src, serial := (openTake met).map Take.serial, pos := p } ∧
            isPending .clip t = true
        (∀ n : Fin 16, conv[n].clip = true → (∀ m : Fin 16, m < n → conv[m].clip = false) → filled (.track (n.val + 1))) ∧
        ((∀ n : Fin 16, conv[n].clip = false) → mixIsEnabled s = true → mix.2 = true → filled .mix) ∧
        ((∀ n : Fin 16, conv[n].clip = false) → mixIsEnabled s = false ∨ mix.2 = false →
          t.front.firstClip = s.front.firstClip)) ∧
      (s.counter.clock = .lost → isPending .clockBack t = true) ∧
      t.port = s.port ∧ t.time = s.time ∧ t.link.peers = s.link.peers ∧ t.link.run = s.link.run ∧
      t.link.counts = s.link.counts ∧ t.store.seq = s.store.seq ∧ t.writer.range = s.writer.range ∧
      t.writer.cursor = s.writer.cursor ∧ t.writer.capture = s.writer.capture

/-- What one track gives to a frame: OFF nothing; an invalid RECEIVER sample the absent code, whatever the reading and the trim;
a SINGLE or valid RECEIVER sample its one reading, trimmed with path exponent 0; a DUAL track its H or L reading by R9. Every
such word is not the absent code, and an input clip is the reading used at either end of its range (R4, R7, R8, R9, R20, R3). -/
def Obligations.TracksConvertByKind : Prop :=
  ∀ (mode : Rounding) (t : Track) (r : Reading),
    (t.kind = .off → convertTrack mode t r = { track := t, word := none, clip := false }) ∧
    (t.kind = .receiver → r.valid = false →
      convertTrack mode t r = { track := t, word := some FieldWord.absent, clip := false }) ∧
    (t.kind = .single ∨ (t.kind = .receiver ∧ r.valid = true) →
      (convertTrack mode t r).track = t ∧ (convertTrack mode t r).word = some (trimmed mode t r.x 0) ∧
        ((convertTrack mode t r).clip = true ↔ r.x.toInt = -8388608 ∨ r.x.toInt = 8388607)) ∧
    (t.kind = .dual →
      let usesL : Prop :=
        (convertTrack mode t r).word = some (trimmed mode t r.l 0) ∧
          ((convertTrack mode t r).clip = true ↔ r.l.toInt = -8388608 ∨ r.l.toInt = 8388607)
      (t.path = .high → r.h.toInt.natAbs < 7340032 →
        convertTrack mode t r = { track := t, word := some (trimmed mode t r.h t.k), clip := false }) ∧
      (t.path = .high → 7340032 ≤ r.h.toInt.natAbs →
        (convertTrack mode t r).track = { t with path := .low, quiet := 0 } ∧
          usesL) ∧
      (t.path = .low → r.h.toInt.natAbs < 4194304 → t.quiet + 1 < 64 →
        (convertTrack mode t r).track = { t with quiet := t.quiet + 1 } ∧
          usesL) ∧
      (t.path = .low → r.h.toInt.natAbs < 4194304 → 64 ≤ t.quiet + 1 →
        convertTrack mode t r =
          { track := { t with path := .high, quiet := 0 }, word := some (trimmed mode t r.h t.k), clip := false }) ∧
      (t.path = .low → 4194304 ≤ r.h.toInt.natAbs →
        (convertTrack mode t r).track = { t with quiet := 0 } ∧
          usesL)) ∧
    (t.trim ≤ 65535 → t.kind ≠ .off → (t.kind = .receiver → r.valid = true) →
      ∃ v, (convertTrack mode t r).word = some v ∧ wordIsAbsent v = false)

/-- A full ring: the oldest frame goes when no slot needs it; otherwise the arrival is an overrun, reported to every slot whose
range covers it: a ROLLING slot always, a POST slot up to E + Q. In either case no frame that a slot still needs is dropped
(R44, R45). A slot needs the positions from its next-to-write position on, in its range from Sr: to no end in ROLLING, to E + Q
in POST, to Z in CLOSING (R43); that a position R1 counts as earlier than Sr is outside it is the model's choice:
notes/assumptions/27.md. A run is inserted into a gap list by adjacency to entries without the merged flag, as a new entry, or
into the last entry (R75); two positions half a day apart are ordered by notes/assumptions/30.md. -/
def Obligations.FullRingDropsOrOverruns : Prop :=
  (∀ (s : State) (p : Nat),
    isProtected s p = true ↔
      ∃ (i : Fin 3) (u : Take), s.takes.slots[i] = some u ∧
        let place (q : Nat) : Nat := (q + (s.day - u.sr % s.day)) % s.day
        isEarlier s.day p u.sr = false ∧ place u.next ≤ place p ∧
          (u.phase = .rolling ∨
            (u.phase = .post ∧ place p ≤ place ((u.e.getD u.sr + s.takes.postRoll) % s.day)) ∨
            (u.phase = .closing ∧ place p ≤ place (u.z.getD u.sr)))) ∧
  (∀ (D a n : Nat) (t : Take),
    let plain := if t.gapsMerged = true then t.gaps.dropLast else t.gaps
    let merged := if t.gapsMerged = true then t.gaps.drop (t.gaps.length - 1) else []
    let follows (x : GapEntry) : Prop := (x.first + x.count) % D = a
    let precedes (x : GapEntry) : Prop := (a + n) % D = x.first
    let apart (l : List GapEntry) : Prop := ∀ x ∈ l, ¬follows x ∧ ¬precedes x
    let becomes (l : List GapEntry) : Prop := insertRun D a n t = { t with gaps := l }
    (n = 0 → insertRun D a n t = t) ∧
    (0 < n →
      (∀ pre x y post, plain = pre ++ x :: y :: post → apart pre → follows x → precedes y →
        becomes (pre ++ { first := x.first, count := x.count + n + y.count } :: post ++ merged)) ∧
      (∀ pre x post, plain = pre ++ x :: post → apart pre → follows x → (∀ y, post.head? = some y → ¬precedes y) →
        becomes (pre ++ { first := x.first, count := x.count + n } :: post ++ merged)) ∧
      (∀ pre x post, plain = pre ++ x :: post → apart pre → ¬follows x → precedes x →
        becomes (pre ++ { first := a, count := n + x.count } :: post ++ merged)) ∧
      (apart plain →
        (t.gapsMerged = false → t.gaps.length < 16 → ∀ pre post, t.gaps = pre ++ post →
          (∀ x ∈ pre, isLater D x.first a = false) → (∀ x, post.head? = some x → isLater D x.first a = true) →
          becomes (pre ++ { first := a, count := n } :: post)) ∧
        (t.gapsMerged = true ∨ 16 ≤ t.gaps.length → ∀ pre x, t.gaps = pre ++ [x] →
          insertRun D a n t =
            { t with gaps := pre ++ [{ first := x.first, count := x.count + n }], gapsMerged := true })))) ∧
  ∀ (f : RingFrame) (s : State),
    (∀ g ∈ s.ring.frames, isProtected s g.pos = true → g ∈ (offerFrame f s).ring.frames) ∧
    (s.ring.frames.length < 1048576 →
      offerFrame f s = { s with ring := { s.ring with frames := s.ring.frames ++ [f] } }) ∧
    ∀ (o : RingFrame) (rest : List RingFrame), s.ring.frames = o :: rest → 1048576 ≤ rest.length + 1 →
      (isProtected s o.pos = false →
        offerFrame f s = { s with ring := { s.ring with frames := rest ++ [f] } }) ∧
      (isProtected s o.pos = true →
        (offerFrame f s).ring = { s.ring with discards := min 4294967295 (s.ring.discards + 1) } ∧
        (offerFrame f s).notices = noticeUnit (s.notices.pending ||| BitVec.twoPow 20 11) s.notices.mask ∧
        ∀ i : Fin 3, (offerFrame f s).takes.slots[i] =
          s.takes.slots[i].map fun t =>
            if t.phase = .rolling ∨
                (t.phase = .post ∧ isLater s.day f.pos (posAdd s.day (t.e.getD t.sr) s.takes.postRoll) = false) ∨
                (t.phase = .closing ∧ inRange s.day s.takes.postRoll t f.pos = true) then
              insertRun s.day f.pos 1 t
            else t)

/-- RETURN_TO_HIGH: the 64th quiet frame in succession of a DUAL track in LOW returns it to HIGH with a quiet count of 0, and
that frame already uses the high-gain reading (R9). -/
def Obligations.QuietTrackReturnsToHigh : Prop :=
  ∀ (n : Fin 16) (f : FrameIn) (s : State), s.port.phase = .run → s.front.tracks[n].kind = .dual →
    s.front.tracks[n].path = .low → s.front.tracks[n].quiet = 63 → f[n].h.toInt.natAbs < 4194304 →
    (convertAll s f)[n].word = some (trimmed s.front.rounding s.front.tracks[n] f[n].h s.front.tracks[n].k) ∧
    ∃ t, exec (.returnToHigh (n.val + 1) f) s = .next t ∧ exec (.frameArrival f) s = .next t ∧
      t.front.tracks[n] = { s.front.tracks[n] with path := .high, quiet := 0 } ∧
      t.counter.newest = (s.counter.newest + 1) % s.day

/-- CUE_FIRE: the frame stamped with the cue's position clears the cue and makes its request with that frame as the newest
position: a START cue in IDLE with the card not FULL starts a take P before it in the lowest EMPTY slot, looked up in the ring
as it stands before that frame (R49), which the take still gets; a STOP cue stops the ROLLING take at it. The slots hold no take
whose own stop falls due at the same frame. That the watch position is then the arriving frame's is the model's inference:
notes/assumptions/18.md (R39, R62, R65). -/
def Obligations.CueFiresAtItsPosition : Prop :=
  ∀ (f : FrameIn) (s : State) (q : Cue), s.port.phase = .run → s.counter.cue = some q →
    q.pos = (s.counter.newest + 1) % s.day →
    ∃ t, exec (.cueFire f) s = .next t ∧ exec (.frameArrival f) s = .next t ∧ t.counter.cue = none ∧
      t.counter.newest = q.pos ∧ t.port = s.port ∧
      (q.kind = .start → (∀ i : Fin 3, s.takes.slots[i] = none) → s.takes.pendingStart = none → cardFull s = false →
        ∃ u, t.takes.slots[(0 : Fin 3)] = some u ∧ u.phase = .rolling ∧
          u.label = { scene := s.takes.scene, number := s.takes.nextTake } ∧ u.origin = s.port.station.val ∧
          u.sr = posSub s.day q.pos s.takes.preRoll ∧ u.serial = nextSerial s.takes.serial ∧ u.watch = q.pos ∧
          u.h = (headOf .beforeFrame { s with counter := { s.counter with newest := q.pos } } u.sr).1 ∧
          (s.takes.preRoll = 0 → s.ring.frames = [] → u.h = 0 ∧ u.next = q.pos) ∧ isPending .takeStarted t = true) ∧
      (q.kind = .stop → ∀ (i : Fin 3) (u : Take), s.takes.slots[i] = some u → u.phase = .rolling →
        (∀ j : Fin 3, j ≠ i → s.takes.slots[j] = none) → s.takes.pendingStart = none → 0 < s.takes.postRoll →
        u.e = none → q.pos ≠ halfDayLimit s.day u.sr s.takes.postRoll →
        ∃ v, t.takes.slots[i] = some v ∧ v.phase = .post ∧ v.e = some q.pos ∧ v.postRoll = 0 ∧ v.label = u.label ∧
          v.sr = u.sr)

/-- AWAITED_STOP: at the frame of an awaited stop the slot becomes POST with a post-roll taken of 0, or CLOSING with Z = E when
Q is 0. No cue fires at that frame (R69). The writer's decision ends it, over the index record it may give (RecordDecided; R164).
-/
def Obligations.AwaitedStopTakesEffect : Prop :=
  ∀ (f : FrameIn) (s : State) (i : Fin 3) (u : Take), s.port.phase = .run → s.takes.slots[i] = some u →
    u.phase = .rolling → u.e = some ((s.counter.newest + 1) % s.day) →
    s.counter.cue.map Cue.pos ≠ some ((s.counter.newest + 1) % s.day) →
    ∃ t v, exec (.awaitedStop f) s = .next t ∧ exec (.frameArrival f) s = .next t ∧ t.takes.slots[i] = some v ∧
      v.e = u.e ∧ v.postRoll = 0 ∧ v.label = u.label ∧ v.origin = u.origin ∧ v.sr = u.sr ∧ v.serial = u.serial ∧
      RecordDecided s t i u v ∧
      (0 < s.takes.postRoll → v.phase = .post) ∧
      (s.takes.postRoll = 0 → v.phase = .closing ∧ v.z = some ((s.counter.newest + 1) % s.day))

/-- POST_ROLL_COMPLETE: the frame that brings the post-roll taken to Q takes the slot to CLOSING with Z = E + Q, and the next
take number and the scene follow its label. No other slot and no cue closes a take at that frame (R70, R72). The writer's decision
ends it, over the index record it may give (RecordDecided; R164). -/
def Obligations.PostRollCompletes : Prop :=
  ∀ (f : FrameIn) (s : State) (i : Fin 3) (u : Take) (e : Nat), s.port.phase = .run → s.takes.slots[i] = some u →
    u.phase = .post → u.e = some e → u.postRoll + 1 = s.takes.postRoll →
    (∀ j : Fin 3, isOpen s.takes.slots[j] = true → j = i) →
    s.counter.cue.map Cue.pos ≠ some ((s.counter.newest + 1) % s.day) →
    ∃ t v, exec (.postRollComplete f) s = .next t ∧ exec (.frameArrival f) s = .next t ∧
      t.takes.slots[i] = some v ∧ v.phase = .closing ∧ v.e = some e ∧ v.z = some ((e + s.takes.postRoll) % s.day) ∧
      v.postRoll = s.takes.postRoll ∧ v.label = u.label ∧ v.sr = u.sr ∧
      RecordDecided s t i u v ∧
      t.takes.scene = u.label.scene ∧
      t.takes.nextTake = (if u.label.number < 999 then u.label.number + 1 else 1) ∧
      t.takes.closed = appendClosed u.identity s.takes.closed

/-- HALF_DAY_STOP: at the frame at Sr + D/2 - Q a ROLLING slot is stopped there with FORCED STOP; at S + D/2 - Q a Reached
pending start is removed. No cue fires at that frame (R68, R60). The writer's decision ends it, over the index record it may give
(RecordDecided; R164). -/
def Obligations.HalfDayStopsTheTake : Prop :=
  ∀ (f : FrameIn) (s : State), s.port.phase = .run →
    s.counter.cue.map Cue.pos ≠ some ((s.counter.newest + 1) % s.day) →
    (∀ (i : Fin 3) (u : Take), s.takes.slots[i] = some u → u.phase = .rolling →
      (s.counter.newest + 1) % s.day = halfDayLimit s.day u.sr s.takes.postRoll →
      ∃ t v, exec (.halfDayStop f) s = .next t ∧ exec (.frameArrival f) s = .next t ∧ t.takes.slots[i] = some v ∧
        v.flags = { u.flags with forcedStop := true } ∧ v.e = some ((s.counter.newest + 1) % s.day) ∧
        v.postRoll = 0 ∧ v.sr = u.sr ∧ v.label = u.label ∧
        RecordDecided s t i u v ∧
        (0 < s.takes.postRoll → v.phase = .post) ∧
        (s.takes.postRoll = 0 → v.phase = .closing ∧ v.z = some ((s.counter.newest + 1) % s.day))) ∧
    (∀ q : PendingStart, s.takes.pendingStart = some q → q.reached = true →
      (s.counter.newest + 1) % s.day = halfDayLimit s.day q.start s.takes.postRoll →
      ∃ t, exec (.halfDayStop f) s = .next t ∧ exec (.frameArrival f) s = .next t ∧ t.takes.pendingStart = none ∧
        t.takes.serial = s.takes.serial)

/-- BLOCK_END: the 64th frame of a block returns the block frame count and the running peaks to 0, sends its own mix word with
the old gains, and gives every mix-enabled track the gate of R149 and the envelope of R151, from the peaks with this frame in
them (R144, R145, R148 to R151). -/
def Obligations.BlockEndUpdatesGatesAndGains : Prop :=
  ∀ (f : FrameIn) (s : State), s.port.phase = .run → mixIsEnabled s = true → s.mixer.blockCount = 63 →
    let conv := convertAll s f
    let peak (n : Fin 16) : Nat := max s.mixer.tracks[n].peak (valueOf conv[n].word).natAbs
    let gated (n : Fin 16) : MixTrack := gateUpdate { s.mixer.tracks[n] with peak := peak n }
    let target (n : Fin 16) : Nat :=
      if (∃ p : Fin 16, s.front.tracks[n].partner = some (p.val + 1) ∧ mixEnabled s p = true ∧
          (gated p).gate = .opened ∧ peak n < peak p) then s.mixer.tracks[n].settings.duck
      else s.mixer.tracks[n].settings.sustain
    ∃ t, exec (.blockEnd f) s = .next t ∧ exec (.frameArrival f) s = .next t ∧ t.mixer.blockCount = 0 ∧
      t.mixer.output = some (BitVec.ofInt 24 (stage3 s.front.rounding (mixSum s conv)).1) ∧
      ∀ n : Fin 16, t.mixer.tracks[n] =
        if mixEnabled s n then { envelopeUpdate (target n) (gated n) with peak := 0 } else s.mixer.tracks[n]

/-- The gate after a block end, by the table of R149, and the move of the envelope by the two tables of R151 (R149, R151). -/
def Obligations.GateAndEnvelopeTables : Prop :=
  ∀ (m : MixTrack) (target : Nat),
    let above (code : Nat) : Prop := code * 2 ^ 29 ≤ m.peak
    (m.gate = .closed → above m.settings.openThreshold → gateUpdate m = { m with gate := .opened, hold := 0 }) ∧
    (m.gate = .closed → ¬above m.settings.openThreshold → gateUpdate m = { m with hold := 0 }) ∧
    (m.gate = .opened → above m.settings.closeThreshold → gateUpdate m = { m with hold := 0 }) ∧
    (m.gate = .opened → ¬above m.settings.closeThreshold → m.hold + 1 ≤ m.settings.closeHold →
      gateUpdate m = { m with hold := m.hold + 1 }) ∧
    (m.gate = .opened → ¬above m.settings.closeThreshold → m.settings.closeHold < m.hold + 1 →
      gateUpdate m = { m with gate := .closed, hold := 0 }) ∧
    (m.gate = .closed → m.envelope = .closed → envelopeUpdate target m = { m with gain := 0 }) ∧
    (m.gate = .opened → m.envelope = .closed ∨ m.envelope = .release ∨ m.envelope = .attack →
      envelopeUpdate target m =
        if 4096 ≤ m.gain + m.settings.attack then { m with gain := 4096, envelope := .decay }
        else { m with gain := m.gain + m.settings.attack, envelope := .attack }) ∧
    (m.gate = .closed → m.envelope ≠ .closed →
      envelopeUpdate target m =
        if m.gain ≤ m.settings.release then { m with gain := 0, envelope := .closed }
        else { m with gain := m.gain - m.settings.release, envelope := .release }) ∧
    (m.gate = .opened → m.envelope = .decay →
      envelopeUpdate target m =
        if m.gain ≤ target + m.settings.decay then { m with gain := target, envelope := .held }
        else { m with gain := m.gain - m.settings.decay }) ∧
    (m.gate = .opened → m.envelope = .held →
      envelopeUpdate target m =
        { m with
          gain :=
            if m.gain < target then min target (m.gain + m.settings.attack)
            else max target (m.gain - m.settings.decay) })

/-- PENDING_START_PROMOTION: a Reached pending start takes the lowest EMPTY slot with its label, origin and start, a follower
when its source is PEER. A promotion that the arrival of the frame at S causes leaves S to be written, whether the ring takes
that frame before or after it (R46, R49); which comes first is left open, and the watch position with it:
notes/assumptions/18.md (R60, R67, R120). -/
def Obligations.PendingStartIsPromoted : Prop :=
  ∀ (s : State) (q : PendingStart) (i : Fin 3), s.port.phase = .run → s.takes.pendingStart = some q →
    emptySlot s = some i →
    let startedBy (t : State) (u : Take) : Prop :=
      t.takes.slots[i] = some u ∧ t.takes.pendingStart = none ∧ t.takes.serial = nextSerial s.takes.serial ∧
        isPending .takeStarted t = true ∧ t.port = s.port ∧ u.phase = .rolling ∧ u.label = q.label ∧
        u.origin = q.origin ∧ u.sr = q.start ∧ u.serial = nextSerial s.takes.serial ∧
        u.flags = { follower := decide (q.source = .peer), originLost := peerIsAbsent s q.origin } ∧
        (peerIsAbsent s q.origin = true → isPending .originLost t = true)
    (q.reached = true →
      ∃ t u, exec .pendingStartPromotion s = .next t ∧ startedBy t u ∧ t.counter = s.counter ∧ t.ring = s.ring ∧
        u.h = (headOf .afterFrame s q.start).1 ∧ u.watch = posAdd s.day s.counter.newest 1) ∧
    (q.reached = false → q.start = (s.counter.newest + 1) % s.day →
      s.counter.cue.map Cue.pos ≠ some ((s.counter.newest + 1) % s.day) → s.ring.frames.length < 1048576 →
      (∀ g ∈ s.ring.frames, g.pos % s.day ≠ q.start) → cardFull s = false →
      ∀ f : FrameIn, ∃ t u, exec (.frameArrival f) s = .next t ∧ startedBy t u ∧ t.counter.newest = q.start ∧
        u.h = 0 ∧ u.next = q.start ∧ (u.watch = q.start ∨ u.watch = (q.start + 1) % s.day))

/-- A reference pulse: ignored unless the four conditions of R33 hold; a checked one latches the in-frame offset, and beyond the
tolerance raises the drift count, up to 65,535, and REF DRIFT. The counter does not move (R33, R34). -/
def Obligations.ReferencePulseIsChecked : Prop :=
  ∀ s : State,
    let spf := samplesPerFrame s.counter.sampleRate s.counter.tcRate
    let offset := s.counter.newest % spf
    let distance : Int := if 2 * offset ≤ spf then (offset : Int) else (offset : Int) - spf
    (s.port.phase = .setup ∨ s.counter.refCheck = false ∨ s.counter.clock = .lost ∨ s.counter.frameSeen = false →
      exec .referencePulse s = .next s) ∧
    (s.port.phase = .run → s.counter.refCheck = true → s.counter.clock = .running → s.counter.frameSeen = true →
      exec .referencePulse s =
        .next
          (if distance.natAbs ≤ s.counter.refTolerance then { s with counter := { s.counter with refOffset := offset } }
          else
            { s with
              counter := { s.counter with refOffset := offset, drift := min 65535 (s.counter.drift + 1) }
              notices := noticeUnit (s.notices.pending ||| BitVec.twoPow 20 18) s.notices.mask }))

/-! ## The media writer (R157 to R175) -/

/-- WRITE_ISSUE: nothing while a write is in flight, out of NORMAL, in SETUP, with the card EXHAUSTED, or without a request the
space state allows; otherwise the arbiter's choice issued at the cursor as a first write: the earliest index request, the note
request, the fault request, the earliest ready audio block, audio first from a protected count of 786,432 on unless the card is
FULL. Every event that gives the writer a request it may issue makes that decision itself, whatever command waits next: in RUN no
command leaves one behind where none stood before it, so no completion does, and no frame arrival does whatever stood before. The
order in which slots were started is read from the serials by notes/assumptions/12.md (R158, R161 to R165). -/
def Obligations.WriteIssueFollowsTheArbiter : Prop :=
  (∀ (i : Instr) (s t : State), s.port.phase = .run →
    exec .writeIssue s = .next s ∨ (∃ f, i = .frameArrival f) → exec i s = .next t → exec .writeIssue t = .next t) ∧
  ∀ s : State,
    let closesNow (u : Take) : Prop :=
      u.phase = .closing ∧ u.indexIssued = false ∧ ∃ z, u.z = some z ∧ u.next = (z + 1) % s.day
    let indexRequest (i : Fin 3) : Prop := ∃ u, s.takes.slots[i] = some u ∧ closesNow u
    let audioRequest (i : Fin 3) : Prop := ∃ u, s.takes.slots[i] = some u ∧ (readyBlock s u).isSome = true
    let noteRequest : Prop := ∃ x ∈ s.store.notes, x.state = .pending
    let faultRequest : Prop := s.writer.skipped ≠ [] ∨ 0 < s.writer.unlisted
    let first (p : Fin 3 → Prop) (i : Fin 3) (u : Take) : Prop :=
      s.takes.slots[i] = some u ∧ p i ∧
        ∀ j v, j ≠ i → p j → s.takes.slots[j] = some v → startAge s v < startAge s u
    let urgentFirst : Prop := s.writer.space = some .full ∨ protectedCount s < 786432
    let issued (c : Nat) (x : Content) (t : State) : State :=
      { t with
        writer :=
          { t.writer with
            inFlight := some { addr := c, content := x, attempt := .first, stale := false, ofRetryCommand := false } } }
    (s.port.phase = .setup ∨ s.writer.capture ≠ .normal ∨ s.writer.inFlight ≠ none ∨ s.writer.cursor = none ∨
        s.writer.space = none ∨ s.writer.space = some .exhausted → exec .writeIssue s = .next s) ∧
    ((∀ i, ¬indexRequest i) → ¬noteRequest → ¬faultRequest → (∀ i, ¬audioRequest i) ∨ s.writer.space = some .full →
      exec .writeIssue s = .next s) ∧
    ∀ c, s.port.phase = .run → s.writer.capture = .normal → s.writer.inFlight = none → s.writer.cursor = some c →
      s.writer.space = some .ample ∨ s.writer.space = some .nearFull ∨ s.writer.space = some .full →
      (urgentFirst ∨ (∀ i, ¬audioRequest i) →
        (∀ i u, first indexRequest i u →
          exec .writeIssue s =
            .next (issued c (.index i (wordCount s) u)
              { s with takes := { s.takes with slots := s.takes.slots.set i (some { u with indexIssued := true }) } })) ∧
        ((∀ i, ¬indexRequest i) → noteRequest → ∀ older newer : List StoredNote, s.store.notes = older ++ newer →
          (older.countP (fun x => x.state == .pending) = 32 ∨
            (older.countP (fun x => x.state == .pending) < 32 ∧ ∀ x ∈ newer, x.state ≠ .pending)) →
          exec .writeIssue s =
            .next (issued c (.notes ((older.filter fun x => x.state == .pending).map StoredNote.note))
              { s with
                store :=
                  { s.store with
                    notes :=
                      (older.map fun x => if x.state = .pending then { x with state := .writing } else x) ++ newer } })) ∧
        ((∀ i, ¬indexRequest i) → ¬noteRequest → faultRequest →
          exec .writeIssue s = .next (issued c (.fault s.writer.skipped s.writer.unlisted) s))) ∧
      (s.writer.space ≠ some .full →
        786432 ≤ protectedCount s ∨ ((∀ i, ¬indexRequest i) ∧ ¬noteRequest ∧ ¬faultRequest) →
        ∀ i u frames, first audioRequest i u → readyBlock s u = some frames →
          exec .writeIssue s =
            .next (issued c (.audio i (wordCount s) u.serial u.next (u.blocks % 16777216) frames) s))

/-- A ready audio block holds 1 frame up to the capacity of floor(4,080 / (3 w)), all held in the ring, at consecutive positions
from the slot's next-to-write position, none after its Z; it is short of the capacity only at Z or before a position that is not
later than the newest. There is one whenever the run from that position reaches the capacity or Z, or ends before a HOLE or GONE
position, and none past Z or without a frame there. A gap report is due for a run of holes while no audio block of the slot is
outstanding, and for held frames only on a FULL card with none in flight, neither running past Z. It raises G and the
next-to-write position by its length, and puts held frames, and of holes those before the watch position, in the gap list. One
report of a whole held run is the model's reading: notes/assumptions/24.md (R159, R160, R76, R4). -/
def Obligations.BlocksAndGapReportsFollowTheRing : Prop :=
  (∀ (s : State) (u : Take) (frames : List RingFrame), u.next < s.day → readyBlock s u = some frames →
    0 < frames.length ∧ frames.length ≤ 4080 / (3 * wordCount s) ∧
    (∀ f ∈ frames, f ∈ s.ring.frames) ∧
    (∀ (k : Nat) (f : RingFrame), frames[k]? = some f → f.pos = (u.next + k) % s.day) ∧
    (∀ z, u.z = some z → ∀ (k : Nat) (f : RingFrame), frames[k]? = some f → f.pos = z → k + 1 = frames.length) ∧
    (frames.length < 4080 / (3 * wordCount s) →
      (∃ z, u.z = some z ∧ (u.next + (frames.length - 1)) % s.day = z) ∨
        isLater s.day ((u.next + frames.length) % s.day) s.counter.newest = false)) ∧
  (∀ s : State,
    wordCount s =
      ((List.finRange 16).countP fun n => s.front.tracks[n].kind != .off) + (if mixIsEnabled s then 1 else 0)) ∧
  (∀ (s : State) (u : Take), u.next < s.day →
    (∀ z, u.z = some z → u.next = (z + 1) % s.day → readyBlock s u = none) ∧
    ((∀ g ∈ s.ring.frames, g.pos ≠ u.next) → readyBlock s u = none) ∧
    ∀ older run newer : List RingFrame, s.ring.frames = older ++ run ++ newer → run ≠ [] →
      (∀ z, u.z = some z → u.next ≠ (z + 1) % s.day) → (∀ g ∈ older, g.pos ≠ u.next) →
      (∀ (k : Nat) (f : RingFrame), run[k]? = some f → f.pos = (u.next + k) % s.day) →
      (∀ z, u.z = some z → ∀ (k : Nat) (f : RingFrame), run[k]? = some f → f.pos = z → k + 1 = run.length) →
      let capacity := 4080 / (3 * wordCount s)
      let atEnd : Prop := ∃ z, u.z = some z ∧ (u.next + (run.length - 1)) % s.day = z
      (run.length = capacity ∨ (run.length < capacity ∧ atEnd) → readyBlock s u = some run) ∧
      (run.length < capacity → ¬atEnd → (∀ f, newer.head? = some f → f.pos ≠ (u.next + run.length) % s.day) →
        readyBlock s u =
          if isLater s.day ((u.next + run.length) % s.day) s.counter.newest = true then none else some run)) ∧
  ∀ (s : State) (i : Fin 3) (u : Take), s.takes.slots[i] = some u → u.next < s.day →
    let held : Prop := ∃ f ∈ s.ring.frames, f.pos = u.next
    let offset (q : Nat) : Nat := (q + (s.day - u.next)) % s.day
    let inReach (g : RingFrame) : Prop := offset g.pos ≤ offset s.counter.newest
    let cut (n : Nat) : Nat := match u.z with
      | none => n
      | some z => min n (countTo s.day u.next z)
    let due (holes : Bool) (n : Nat) : Prop := dueReport s i = if cut n = 0 then none else some (holes, cut n)
    (¬held → isLater s.day u.next s.counter.newest = true → dueReport s i = none) ∧
    (held → cardFull s = false ∨ audioInFlight s i = true → dueReport s i = none) ∧
    (¬held → audioOutstanding s i = true → dueReport s i = none) ∧
    (¬held → isLater s.day u.next s.counter.newest = false → audioOutstanding s i = false →
      (∀ (older newer : List RingFrame) (f : RingFrame), s.ring.frames = older ++ f :: newer →
        (∀ g ∈ older, ¬inReach g) → inReach f → due true (offset f.pos)) ∧
      ((∀ g ∈ s.ring.frames, ¬inReach g) → due true (offset s.counter.newest + 1))) ∧
    (cardFull s = true → audioInFlight s i = false →
      ∀ older run newer : List RingFrame, s.ring.frames = older ++ run ++ newer → run ≠ [] →
        (∀ g ∈ older, g.pos ≠ u.next) →
        (∀ (k : Nat) (f : RingFrame), run[k]? = some f → f.pos = (u.next + k) % s.day) →
        (∀ f, newer.head? = some f → f.pos ≠ (u.next + run.length) % s.day) → due false run.length) ∧
    (∀ holes n, dueReport s i = some (holes, n) →
      ∃ v m, (accountAll s).takes.slots[i] = some v ∧ n ≤ m ∧ v.g = u.g + m ∧ v.next = (u.next + m) % s.day ∧
        v.w = u.w ∧ v.h = u.h ∧ v.sr = u.sr ∧ v.watch = u.watch ∧ v.phase = u.phase ∧ v.flags = u.flags) ∧
    (∀ holes n, gapReport s.day holes n u =
      { insertRun s.day u.next
          (if holes = false then n else if isEarlier s.day u.next u.watch then min n (countAfter s.day u.next u.watch) else 0)
          u with
        g := u.g + n, next := (u.next + n) % s.day }) ∧
    ((∀ j, dueReport s j = none) → accountAll s = s)

/-- SUCCESSFUL_COMPLETION: the cursor advances by one and the space state with it, with what entering NEAR FULL and FULL brings
(SpaceTakesEffect); a write that is not stale has the effect of its content; the fault record of MEDIA RETRY returns the writer
to NORMAL and its held content is re-issued, held where no block is left, or dropped as an audio block on a FULL card; with no
write in flight nothing changes. A written audio block raises the clip and dropout counts of its tracks (R79, R157, R158, R160,
R163, R167, R169, R171, R174, R175, R21). -/
def Obligations.SuccessfulCompletionByContent : Prop :=
  ∀ s : State,
    (s.writer.inFlight = none → exec .successfulCompletion s = .next s) ∧
    ∀ (w : Write) (c a b : Nat), s.port.phase = .run → s.writer.inFlight = some w → s.writer.cursor = some c →
      s.writer.range = some (a, b) →
      ∃ t, exec .successfulCompletion s = .next t ∧
        t.writer.cursor = some (c + 1) ∧ t.writer.range = some (a, b) ∧ t.writer.space = some (spaceOf (b - c)) ∧
        t.writer.failed = s.writer.failed ∧ t.port = s.port ∧ t.counter = s.counter ∧ t.ring = s.ring ∧
        t.front = s.front ∧ t.mixer = s.mixer ∧
        t.store.notes.map StoredNote.note = s.store.notes.map StoredNote.note ∧
        SpaceTakesEffect s t (b - c) (if w.stale = true then none else some w.content) ∧
        (∀ x, s.writer.held = some x → (∃ i, isAudioOf i x = true) → b - c ≤ 64 → t.writer.held = none) ∧
        (w.stale = true →
          t.writer.capture = s.writer.capture ∧ t.writer.skipped = s.writer.skipped ∧
            t.writer.unlisted = s.writer.unlisted ∧ isPending .takeClosed t = isPending .takeClosed s ∧
            ∀ (i : Fin 3) (u : Take), s.takes.slots[i] = some u →
              ∃ v, t.takes.slots[i] = some v ∧ v.w = u.w ∧ v.blocks = u.blocks ∧ v.tracks = u.tracks) ∧
        (w.stale = false →
          (∀ (i : Fin 3) (words serial first seq : Nat) (frames : List RingFrame) (u : Take),
            w.content = .audio i words serial first seq frames → s.takes.slots[i] = some u →
            ∃ v, t.takes.slots[i] = some v ∧ v.w = u.w + frames.length ∧ v.blocks = u.blocks + 1 ∧
              v.firstBlock = some (u.firstBlock.getD w.addr) ∧ v.sr = u.sr ∧ v.label = u.label ∧
              ∀ (n : Fin 16) (x : TrackTally), u.tracks[n] = some x → x.clips ≤ 4294967295 → x.dropouts ≤ 4294967295 →
                ∃ y, v.tracks[n] = some y ∧ y.name = x.name ∧
                  y.dropouts =
                    min 4294967295
                      (x.dropouts + frames.countP fun f => (f.words[wordPlace u.tracks n]?).any wordIsAbsent) ∧
                  y.clips = min 4294967295 (x.clips + frames.countP fun f => f.clips.contains (n.val + 1)) ∧
                  y.firstClip =
                    x.firstClip.or ((frames.find? fun f => f.clips.contains (n.val + 1)).map RingFrame.pos)) ∧
          (∀ l : List Note, w.content = .notes l →
            ∀ (k : Nat) (x : StoredNote), s.store.notes[k]? = some x → x.state = .writing →
              t.store.notes[k]? =
                some (if x.note.id ∈ l.map Note.id then { x with state := .written } else x)) ∧
          (∀ (i : Fin 3) (words : Nat) (u : Take), w.content = .index i words u →
            isPending .takeClosed t = true ∧
            (s.takes.pendingStart = none → t.takes.slots[i] = none) ∧
            (s.writer.space = some .nearFull → 0 < b - c → b - c ≤ 64 → t.takes.slots[i] = none) ∧
            ∀ q, 64 < b - c → s.takes.pendingStart = some q → q.reached = true →
              t.takes.pendingStart = none ∧ t.takes.serial = nextSerial s.takes.serial ∧
                ∃ (j : Fin 3) (v : Take), t.takes.slots[j] = some v ∧ v.phase = .rolling ∧ v.label = q.label ∧
                  v.origin = q.origin ∧ v.sr = q.start ∧ v.serial = nextSerial s.takes.serial) ∧
          (∀ (addrs : List Nat) (n : Nat), w.content = .fault addrs n →
            t.writer.skipped = (s.writer.skipped.filter fun x => !addrs.contains x) ∧
              t.writer.unlisted = s.writer.unlisted - n) ∧
          (w.ofRetryCommand = true →
            t.writer.capture = .normal ∧
            (∀ x, s.writer.held = some x → (∀ addrs n, x ≠ .fault addrs n) →
              (64 < b - c ∨ (0 < b - c ∧ ∀ i, isAudioOf i x = false) →
                t.writer.held = none ∧
                  t.writer.inFlight =
                    some { addr := c + 1, content := x, attempt := .retry, stale := false, ofRetryCommand := false }) ∧
              (b - c ≤ 64 → (∃ i, isAudioOf i x = true) →
                ∀ y, t.writer.inFlight = some y → y.attempt = .first ∧ y.content ≠ x) ∧
              (b - c = 0 → (∀ i, isAudioOf i x = false) → t.writer.held = some x ∧ t.writer.inFlight = none)) ∧
            (∀ addrs n, s.writer.held = some (.fault addrs n) → t.writer.held = none)))

/-- FAILED_COMPLETION: the address is listed or counted, the failed-write count rises and the cursor advances, with what
entering NEAR FULL and FULL brings (SpaceTakesEffect); a first write that is not stale is re-issued at once as a retry of the
same content, held where no block is left, or dropped as an audio block on a FULL card; a retry leaves MEDIA FAULT with its
content held, and the fault record of MEDIA RETRY leaves HALTED, an audio block on a FULL card being dropped; with no write in
flight nothing changes (R79, R157, R158, R160, R163, R168, R169, R171, R174, R175). -/
def Obligations.FailedCompletionByAttempt : Prop :=
  ∀ s : State,
    (s.writer.inFlight = none → exec .failedCompletion s = .next s) ∧
    ∀ (w : Write) (c a b : Nat), s.port.phase = .run → s.writer.inFlight = some w → s.writer.cursor = some c →
      s.writer.range = some (a, b) →
      ∃ t, exec .failedCompletion s = .next t ∧
        t.writer.cursor = some (c + 1) ∧ t.writer.range = some (a, b) ∧ t.writer.space = some (spaceOf (b - c)) ∧
        t.writer.failed = min 65535 (s.writer.failed + 1) ∧
        (s.writer.skipped.length < 16 →
          t.writer.skipped = s.writer.skipped ++ [w.addr] ∧ t.writer.unlisted = s.writer.unlisted) ∧
        (16 ≤ s.writer.skipped.length →
          t.writer.skipped = s.writer.skipped ∧ t.writer.unlisted = min 65535 (s.writer.unlisted + 1)) ∧
        t.port = s.port ∧ t.counter = s.counter ∧ t.ring = s.ring ∧ t.front = s.front ∧ t.mixer = s.mixer ∧
        t.store.notes.map StoredNote.note = s.store.notes.map StoredNote.note ∧
        (∀ (i : Fin 3) (u : Take), s.takes.slots[i] = some u →
          ∃ v, t.takes.slots[i] = some v ∧ v.w = u.w ∧ v.blocks = u.blocks ∧ v.tracks = u.tracks) ∧
        SpaceTakesEffect s t (b - c) none ∧
        (w.stale = true →
          t.writer.capture = s.writer.capture ∧ isPending .mediaFault t = isPending .mediaFault s ∧
            isPending .mediaHalted t = isPending .mediaHalted s) ∧
        (w.stale = false → w.ofRetryCommand = false → w.attempt = .first →
          t.writer.capture = s.writer.capture ∧
          (64 < b - c ∨ (0 < b - c ∧ ∀ i, isAudioOf i w.content = false) →
            t.writer.held = none ∧ t.store = s.store ∧
              t.writer.inFlight = some { w with addr := c + 1, attempt := .retry }) ∧
          (b - c ≤ 64 → (∃ i, isAudioOf i w.content = true) →
            t.writer.held = none ∧ ∀ y, t.writer.inFlight = some y → y.attempt = .first ∧ y.content ≠ w.content) ∧
          (b - c = 0 → (∀ i, isAudioOf i w.content = false) →
            t.writer.held = some w.content ∧ t.writer.inFlight = none)) ∧
        (w.stale = false → w.ofRetryCommand = false → w.attempt = .retry →
          t.writer.capture = .mediaFault ∧ isPending .mediaFault t = true ∧ t.writer.inFlight = none ∧
            (64 < b - c ∨ (∀ i, isAudioOf i w.content = false) → t.writer.held = some w.content) ∧
            (b - c ≤ 64 → (∃ i, isAudioOf i w.content = true) → t.writer.held = none)) ∧
        (w.stale = false → w.ofRetryCommand = true →
          t.writer.capture = .halted ∧ isPending .mediaHalted t = true ∧ t.writer.inFlight = none ∧
            (64 < b - c ∨ (∀ x i, s.writer.held = some x → isAudioOf i x = false) → t.writer.held = s.writer.held) ∧
            (∀ x, s.writer.held = some x → (∃ i, isAudioOf i x = true) → b - c ≤ 64 → t.writer.held = none))

/-! ## The cart link (R83 to R106) -/

/-- LINE_IDLE, LINE_BUSY and DEFERRAL_EXPIRY. The line is IDLE once it has rested for 16 bit times, and WAIT IDLE then defers; a
frame that is complete by then is received, and one cut short, fewer bytes or more than its length byte calls for, is a receive
error, as is a complete one of no known kind; a start bit makes the line BUSY and sends
DEFER back to WAIT IDLE, and the receiver takes the byte by R96; the end of the deferral begins an attempt on the head frame. The
payload of a STATUS is that of the station's own state by engine phase (R88).
The model's choices: the time an event happens at is its interval's end (notes/assumptions/3.md); a row whose event cannot occur
changes nothing (notes/assumptions/4.md); LINE_BUSY takes a whole byte, its end is kept in SETUP too, and an attempt makes the
line BUSY (notes/assumptions/7.md) (R84, R88, R89, R90, R96). -/
def Obligations.LineEventsMoveTheTransmitter : Prop :=
  ∀ s : State,
    let own (phase origin : Nat) (label : Label) (start stop : Nat) : Prop :=
      txPayload s .status =
        statusBytes
          { run := s.link.run
            rateCode := if s.counter.sampleRate = .r48 then 1 else 2
            tcCode := if s.counter.tcRate = .f24 then 24 else if s.counter.tcRate = .f25 then 25 else 30
            pos := s.counter.newest
            capture := if s.writer.capture = .normal then 0 else if s.writer.capture = .mediaFault then 1 else 2
            phase := phase, origin := origin, scene := label.scene, number := label.number, start := start
            stop := stop, nextTake := s.takes.nextTake, highWater := s.store.seq }
    (∀ (i : Fin 3) (u : Take), openSlot s = some i → s.takes.slots[i] = some u →
      (u.phase = .rolling → own 2 u.origin u.label u.sr 0) ∧
      (∀ e, u.phase = .post → u.e = some e → own 3 u.origin u.label u.sr e)) ∧
    (∀ q, openSlot s = none → s.takes.pendingStart = some q → own 1 q.origin q.label q.start 0) ∧
    (openSlot s = none → s.takes.pendingStart = none →
      own 0 s.port.station.val { scene := s.takes.scene, number := 0 } 0 0) ∧
    (s.port.phase = .setup ∨ s.link.line = .idle ∨ s.link.tx = .send → exec .lineIdle s = .next s) ∧
    (s.port.phase = .run → s.link.line ≠ .idle → s.link.tx ≠ .send →
      let now := max s.time (s.link.restFrom + 16)
      let rested : Link :=
        { s.link with
          line := .idle, idleFrom := now, receiver := .ready
          tx := if s.link.tx = .waitIdle then .defer else s.link.tx }
      let ends (l : Link) : Prop :=
        ∃ t, exec .lineIdle s = .next t ∧ t.time = now ∧ t.link = l ∧ t.port = s.port ∧ t.counter = s.counter ∧
          t.ring = s.ring ∧ t.notices = s.notices
      let failed : Prop :=
        ends { rested with counts := { s.link.counts with errors := min 65535 (s.link.counts.errors + 1) } }
      (s.link.receiver = .waiting ∨ s.link.receiver = .ready ∨ (∃ own, s.link.receiver = .echo own) → ends rested) ∧
      (∀ at_ bytes, s.link.receiver = .within at_ bytes → failed) ∧
      (∀ at_ bytes, s.link.receiver = .taking at_ bytes →
        (∀ preamble kind sender length more, bytes = preamble :: kind :: sender :: length :: more →
          more.length ≠ length.toNat + 2) → failed) ∧
      (∀ (at_ : Nat) (kind : Byte) (f : HeardFrame), f.payload.length ≤ 200 → kind ∉ [1#8, 2#8, 3#8, 4#8] →
        s.link.receiver = .taking at_ (frameBytesOf kind f) → failed) ∧
      (∀ (at_ : Nat) (f : HeardFrame) (x : Byte × Instr), f.payload.length ≤ 200 →
        x ∈ [(1#8, Instr.statusFrame f), (2#8, .noteFrame f), (3#8, .noteRequestFrame f), (4#8, .noteGoneFrame f)] →
        s.link.receiver = .taking at_ (frameBytesOf x.1 f) → exec .lineIdle s = exec x.2 s)) ∧
    (∀ b : Byte, s.port.phase = .setup → (∀ at_ bytes, s.link.receiver ≠ .within at_ bytes) →
      exec (.lineBusy b) s = .next { s with link := { s.link with restFrom := max s.link.restFrom s.time + 10 } }) ∧
    (s.port.phase = .run → s.link.tx ≠ .send → ∀ b : Byte,
      let busy (rest : Nat) : Link :=
        { s.link with line := .busy, restFrom := rest, tx := if s.link.tx = .defer then .waitIdle else s.link.tx }
      let follows : Nat := max s.link.restFrom s.time + 10
      let failed (rest : Nat) : Link :=
        { busy rest with
          receiver := .waiting, counts := { s.link.counts with errors := min 65535 (s.link.counts.errors + 1) } }
      let gives (l : Link) : Prop := exec (.lineBusy b) s = .next { s with link := l }
      (s.link.receiver = .waiting → gives (busy follows)) ∧
      (s.link.receiver = .ready → b = 165#8 → gives { busy follows with receiver := .taking s.counter.newest [b] }) ∧
      (s.link.receiver = .ready → b ≠ 165#8 → gives (failed follows)) ∧
      (∀ own, s.link.receiver = .echo own → gives (failed follows)) ∧
      (∀ at_ bytes rest, (s.link.receiver = .taking at_ bytes ∧ rest = follows) ∨
          (s.link.receiver = .within at_ bytes ∧ rest = s.link.restFrom) →
        let onward : Link := { busy rest with receiver := .taking at_ (bytes ++ [b]) }
        (bytes = [] → b = 165#8 → gives onward) ∧
        (bytes = [] → b ≠ 165#8 → gives (failed rest)) ∧
        (bytes.length = 3 → 200 < b.toNat → gives (failed rest)) ∧
        (bytes.length = 1 ∨ bytes.length = 2 ∨ (bytes.length = 3 ∧ b.toNat ≤ 200) → gives onward) ∧
        (∀ (preamble kind sender length : Byte) (more : List Byte), bytes = preamble :: kind :: sender :: length :: more →
          (more.length < length.toNat + 2 → gives onward) ∧
          (more.length = length.toNat + 2 → gives (failed rest))))) ∧
    (s.port.phase = .setup ∨ s.link.tx ≠ .defer → exec .deferralExpiry s = .next s) ∧
    ∀ (x : TxEntry) (rest : List TxEntry), s.port.phase = .run → s.link.tx = .defer → s.link.queue = x :: rest →
      let now := max s.time (s.link.idleFrom + (s.port.station.val + (if s.link.penalty then 9 else 1)) * 8)
      let bytes := frameBytes (BitVec.ofNat 8 x.frame.code) (BitVec.ofNat 8 s.port.station.val) (txPayload s x.frame)
      exec .deferralExpiry s =
        .next { s with
          time := now
          link :=
            { s.link with
              tx := .send, sending := bytes, attemptFrom := now, penalty := false, line := .busy
              restFrom := now + 10 * bytes.length, receiver := .taking s.counter.newest [] } }

/-- SUCCESSFUL_SEND and COLLISION, and a byte of another station heard in SEND: the head frame leaves the queue, or stays with
its attempt count raised until the third attempt drops it; an owed STATUS takes the place that a leaving frame frees, and the
owed mark is cleared when the STATUS being sent collides; the transmitter goes on by the queue and the line. A byte that another
station begins in SEND meets the one driven bit by bit, the most significant first. At the first that differs the station that
drives the 1 hears the 0 and stops. So the greater byte collides, and its receiver goes on with the lesser; the lesser is heard
as driven and its attempt goes on. The model's choices: the time of either end (notes/assumptions/3.md); out of SEND, and with
no byte of the attempt under way, the rows change nothing (notes/assumptions/4.md); the byte under way at COLLISION is yet to be
heard (notes/assumptions/7.md) (R83, R84, R89, R91 to R94, R105). -/
def Obligations.AttemptsEndBySendOrCollision : Prop :=
  ∀ s : State,
    let n := bytesOver s
    (s.port.phase = .setup ∨ s.link.tx ≠ .send → exec .successfulSend s = .next s ∧ exec .collision s = .next s) ∧
    (s.link.sending.length ≤ n → exec .collision s = .next s) ∧
    ∀ (x : TxEntry) (rest : List TxEntry), s.port.phase = .run → s.link.tx = .send → s.link.queue = x :: rest →
      let left := rest ++ (if s.link.owed then [{ frame := .status, attempts := 0 }] else [])
      let onward (q : List TxEntry) : TxState :=
        if q = [] then .standby else if s.link.line = .idle then .defer else .waitIdle
      let stopped : Nat := max s.time (s.link.attemptFrom + 10 * n)
      let collided (r : Receiver) : Link :=
        if x.attempts < 2 then
          { s.link with
            restFrom := max (s.link.attemptFrom + 10 * (n + 1)) stopped, sending := [], receiver := r
            queue := { x with attempts := x.attempts + 1 } :: rest
            owed := if x.frame = .status then false else s.link.owed
            tx := onward [x]
            counts := { s.link.counts with collisions := min 65535 (s.link.counts.collisions + 1) } }
        else
          { s.link with
            restFrom := max (s.link.attemptFrom + 10 * (n + 1)) stopped, sending := [], receiver := r
            queue := left, owed := false, tx := onward left
            counts :=
              { s.link.counts with
                collisions := min 65535 (s.link.counts.collisions + 1)
                dropped := min 65535 (s.link.counts.dropped + 1) } }
      exec .successfulSend s =
        .next { s with
          time := max s.time s.link.restFrom
          link :=
            { s.link with
              penalty := true, receiver := .echo s.link.sending, sending := [], queue := left, owed := false
              tx := onward left, counts := { s.link.counts with sent := min 65535 (s.link.counts.sent + 1) } } } ∧
      (n < s.link.sending.length →
        exec .collision s =
          .next { s with time := stopped, link := collided (.within (arrivalPosition s) (s.link.sending.take n)) }) ∧
      ∀ (kind : Byte) (payload : List Byte) (own b : Byte), payload.length ≤ 200 →
        s.link.sending = frameBytes kind (BitVec.ofNat 8 s.port.station.val) payload → s.link.sending[n]? = some own →
        (own.toNat ≤ b.toNat →
          exec (.lineBusy b) s =
            .next { s with
              link := { s.link with receiver := .taking (arrivalPosition s) (s.link.sending.take (n + 1)) } }) ∧
        (b.toNat < own.toNat →
          ∃ t, exec (.lineBusy b) s = .next t ∧ t.time = stopped ∧ t.link.tx ≠ .send ∧ t.link.sending = [] ∧
            t.link.counts.collisions = min 65535 (s.link.counts.collisions + 1) ∧ t.link.counts.sent = s.link.counts.sent ∧
            t.link.queue = (collided s.link.receiver).queue ∧ t.port = s.port ∧ t.counter = s.counter ∧
            t.takes = s.takes ∧ t.notices = s.notices) ∧
        (b.toNat < own.toNat → ∀ l, takeByte (s.link.sending.take n) b = some l →
          exec (.lineBusy b) s =
            .next { s with time := stopped, link := collided (.taking (arrivalPosition s) l) })

/-- The three timers of the oscillator: CLOCK_LOST in RUNNING leaves LOST and raises its notice; ANNOUNCE_TIMER_EXPIRY starts
the timer again and requests a STATUS by the table of R94, and one that reaches the head of an empty queue in STANDBY waits for
an IDLE line, defers, or is sent at once (R89); PEER_ABSENT takes the peer's compatibility and offset and marks the open take
that it originated. The model's choices: the event brings the oscillator to the timer's end (notes/assumptions/3.md), and a row
whose timer does not run changes nothing: CLOCK_LOST in LOST, ANNOUNCE_TIMER_EXPIRY in SETUP, PEER_ABSENT of an ABSENT entry or
the own (notes/assumptions/4.md) (R31, R89, R90, R94, R95, R101, R121). -/
def Obligations.OscillatorTimersRunOut : Prop :=
  ∀ s : State,
    (∀ started, s.counter.clock = .running → s.counter.lossTimer = some started →
      exec .clockLost s =
        .next { s with
          time := max s.time (started + 4000)
          counter := { s.counter with clock := .lost, lossTimer := none }
          notices := noticeUnit (s.notices.pending ||| BitVec.twoPow 20 16) s.notices.mask }) ∧
    (s.counter.clock = .lost → exec .clockLost s = .next s) ∧
    (s.port.phase = .setup → exec .announceTimerExpiry s = .next s) ∧
    (∀ started, s.port.phase = .run → s.link.announce = some started →
      ∃ t, exec .announceTimerExpiry s = .next t ∧ t.time = max s.time (started + 100000) ∧
        t.link.announce = some t.time ∧ t.link.peers = s.link.peers ∧ t.link.counts = s.link.counts ∧ t.port = s.port ∧
        t.counter = s.counter ∧ t.takes = s.takes ∧ t.ring = s.ring ∧ t.store = s.store ∧ t.writer = s.writer ∧
        t.notices = s.notices ∧
        let sending := s.link.tx = .send ∧ (s.link.queue.head?.map TxEntry.frame) = some .status
        let queued := ∃ x ∈ s.link.queue, x.frame = .status
        (s.link.listenOnly = true → t.link.queue = s.link.queue ∧ t.link.owed = s.link.owed) ∧
        (s.link.listenOnly = false →
          (sending → t.link.queue = s.link.queue ∧ t.link.owed = true) ∧
          (¬sending → queued →
            t.link.owed = s.link.owed ∧
              t.link.queue = s.link.queue.map fun x => if x.frame = .status then { x with attempts := 0 } else x) ∧
          (¬queued → s.link.queue.length < 8 →
            t.link.owed = s.link.owed ∧ t.link.queue = s.link.queue ++ [{ frame := .status, attempts := 0 }]) ∧
          (s.link.queue = [] → s.link.tx = .standby →
            let deferral := (s.port.station.val + (if s.link.penalty then 9 else 1)) * 8
            let bytes := frameBytes 1#8 (BitVec.ofNat 8 s.port.station.val) (txPayload s .status)
            let entered : Link :=
              { s.link with announce := some t.time, queue := [{ frame := .status, attempts := 0 }] }
            (s.link.line ≠ .idle → t.link = { entered with tx := .waitIdle }) ∧
            (s.link.line = .idle → t.time < s.link.idleFrom + deferral → t.link = { entered with tx := .defer }) ∧
            (s.link.line = .idle → s.link.idleFrom + deferral ≤ t.time →
              t.link =
                { entered with
                  tx := .send, sending := bytes, attemptFrom := t.time, penalty := false, line := .busy
                  restFrom := t.time + 10 * bytes.length, receiver := .taking s.counter.newest [] })) ∧
          (¬queued → 8 ≤ s.link.queue.length → t.link.queue = s.link.queue ∧ t.link.owed = true))) ∧
    ∀ p : Fin 8,
      (p = s.port.station ∨ s.link.peers[p].present = false → exec (.peerAbsent p) s = .next s) ∧
      (∀ heard, p ≠ s.port.station → s.link.peers[p].present = true → s.link.peers[p].heardAt = some heard →
        let e := s.link.peers[p]
        let gone : State :=
          { s with
            time := max s.time (heard + 300000)
            link :=
              { s.link with
                peers := s.link.peers.set p { e with present := false, heardAt := none, compat := none, offset := none } } }
        ((openTake s).map Take.origin ≠ some p.val →
          exec (.peerAbsent p) s =
            .next { gone with notices := noticeUnit (s.notices.pending ||| BitVec.twoPow 20 5) s.notices.mask }) ∧
        ∀ (i : Fin 3) (u : Take), openSlot s = some i → s.takes.slots[i] = some u → u.origin = p.val →
          exec (.peerAbsent p) s =
            .next { gone with
              notices :=
                noticeUnit (s.notices.pending ||| BitVec.twoPow 20 5 ||| BitVec.twoPow 20 4) s.notices.mask
              takes :=
                { s.takes with
                  slots := s.takes.slots.set i (some { u with flags := { u.flags with originLost := true } }) } })

/-- A complete frame of any kind: the receiver comes to hear it in RUN, out of SEND, when it is ready, holds the frame's first
bytes, or holds the frame as the own echo; otherwise it is not examined. The own echo is not processed; a frame whose check,
sender or length is wrong is a receive error and acts on nothing else; one from the own number that is no echo is a station
clash; and a STATUS from a peer makes its entry PRESENT with the run, compatibility, offset and fields of R102 and R103, raising
PEER MISMATCH where R103 says so and there alone. That a frame's row is its remaining bytes and the IDLE after them is the
model's choice: notes/assumptions/7.md, and 4.md for rows that cannot occur (R84, R96 to R103). -/
def Obligations.FramesActOnThePeerTable : Prop :=
  ∀ (s : State) (f : HeardFrame),
    let kinds := [(1#8, Instr.statusFrame f), (2#8, .noteFrame f), (3#8, .noteRequestFrame f), (4#8, .noteGoneFrame f)]
    let actsOnNothing (t : State) : Prop :=
      TakesStand s t ∧ { t.store with notes := s.store.notes } = s.store ∧
        t.store.notes.map StoredNote.note = s.store.notes.map StoredNote.note
    (s.port.phase = .setup → ∀ x ∈ kinds, exec x.2 s = .next s) ∧
    (∀ x ∈ kinds,
      let whole := 165#8 :: x.1 :: f.sender :: BitVec.ofNat 8 f.payload.length :: f.payload ++ be 2 f.check.toNat
      canHear x.1 f s = true ↔
        s.port.phase = .run ∧ s.link.tx ≠ .send ∧
          (s.link.receiver = .ready ∨ s.link.receiver = .echo whole ∨
            ∃ at_ bytes, (s.link.receiver = .taking at_ bytes ∨ s.link.receiver = .within at_ bytes) ∧
              bytes <+: whole)) ∧
    (∀ x ∈ kinds, canHear x.1 f s = false → exec x.2 s = .next s) ∧
    (∀ x ∈ kinds, ∀ own, canHear x.1 f s = true → s.link.receiver = .echo own →
      ∃ t, exec x.2 s = .next t ∧ t.time = max s.time (s.link.restFrom + 16) ∧ t.link.receiver = .ready ∧
        t.link.peers = s.link.peers ∧ t.link.counts = s.link.counts ∧ t.notices = s.notices ∧ t.port = s.port ∧
        t.counter = s.counter ∧ t.ring = s.ring ∧ t.link.queue = s.link.queue ∧ actsOnNothing t) ∧
    ((∀ b, s.link.receiver ≠ .echo b) →
      (∀ x ∈ kinds, canHear x.1 f s = true →
        (f.check ≠ crc (x.1 :: f.sender :: BitVec.ofNat 8 f.payload.length :: f.payload) ∨ 7 < f.sender.toNat ∨
            200 < f.payload.length ∨ (x.1 = 1#8 ∧ f.payload.length ≠ 40) ∨ (x.1 = 3#8 ∧ f.payload.length ≠ 5) ∨
            (x.1 = 4#8 ∧ f.payload.length ≠ 6) ∨ (x.1 = 2#8 ∧ readNotePayload f.payload = none) →
          ∃ t, exec x.2 s = .next t ∧ t.link.peers = s.link.peers ∧ t.notices = s.notices ∧ t.port = s.port ∧
            t.counter = s.counter ∧ t.link.counts = { s.link.counts with errors := min 65535 (s.link.counts.errors + 1) } ∧
            t.link.queue = s.link.queue ∧ t.ring = s.ring ∧ actsOnNothing t) ∧
        (frameValid x.1 f = true → f.sender.toNat = s.port.station.val →
          ∃ t, exec x.2 s = .next t ∧ t.link.listenOnly = true ∧ t.link.queue = [] ∧ t.link.owed = false ∧
            t.link.tx = .standby ∧ t.link.peers = s.link.peers ∧ isPending .stationClash t = true ∧ t.port = s.port ∧
            t.counter = s.counter ∧ t.ring = s.ring ∧
            t.link.counts = { s.link.counts with clashes := min 65535 (s.link.counts.clashes + 1) })) ∧
      ∀ p : Fin 8, canHear 1#8 f s = true → f.sender.toNat = p.val → p ≠ s.port.station → f.payload.length = 40 →
        f.check = crc (1#8 :: f.sender :: 40#8 :: f.payload) →
        let x := readStatusPayload f.payload
        let e := s.link.peers[p]
        let offset := signedDiff s.day (arrivalPosition s) x.pos
        let sameRates := x.rateCode = s.counter.sampleRate.code ∧ x.tcCode = s.counter.tcRate.code
        ∃ t, exec (.statusFrame f) s = .next t ∧
          t.link.counts.received = min 65535 (s.link.counts.received + 1) ∧
          t.link.counts.errors = s.link.counts.errors ∧ t.port = s.port ∧ t.counter = s.counter ∧ t.ring = s.ring ∧
          (∀ q : Fin 8, q ≠ p → t.link.peers[q] = s.link.peers[q]) ∧
          t.link.peers[p].present = true ∧ t.link.peers[p].heardAt = some t.time ∧ t.link.peers[p].run = some x.run ∧
          (s.link.receiver = .ready → t.time = max s.link.restFrom s.time + 460 + 16) ∧
          t.link.peers[p].status = some x ∧
          t.link.peers[p].heardUpTo = (if e.run = none ∨ e.run = some x.run then e.heardUpTo else 0) ∧
          (¬sameRates → t.link.peers[p].compat = some .rateMismatch ∧ t.link.peers[p].offset = none) ∧
          (sameRates →
            t.link.peers[p].offset = some offset ∧
              t.link.peers[p].compat = some (if s.link.tolerance < offset.natAbs then .tcOff else .ok)) ∧
          (e.present = false → isPending .peerChange t = true) ∧
          ∀ c, t.link.peers[p].compat = some c →
            (c ≠ .ok → e.compat ≠ some c → isPending .peerMismatch t = true) ∧
            (c = .ok → e.compat = some .rateMismatch ∨ e.compat = some .tcOff → isPending .peerMismatch t = true) ∧
            (e.compat = some c ∨ (c = .ok ∧ e.compat = none) →
              isPending .peerMismatch t = isPending .peerMismatch s))

/-- A STATUS of a peer at the take engine. It leaves the takes when the peer is not followed, when it announces a closed
identity, an own one that is not held, the identity held already without a stop from its origin, or no take without departing.
Of a followed peer, in IDLE a ROLLING announcement starts a follower take, waits as a pending start, or is refused by a FULL
card; an earlier start relabels the ROLLING open take, a later one does not; a POST announcement of the open take from its
origin stops it. The model's choices: announced positions are taken modulo D (notes/assumptions/10.md), and a merge whose lookup
names no held position adds to the head shortfall (notes/assumptions/21.md) (R107, R108, R111, R112, R114, R117, R118, R68). -/
def Obligations.FollowedAnnouncementsAct : Prop :=
  (∀ (s : State) (f : HeardFrame) (p : Fin 8), HearsStatus s f p →
    let x := readStatusPayload f.payload
    let a := announcedIdentity s x
    ∃ t, exec (.statusFrame f) s = .next t ∧
      (s.takes.followMask[p] = false ∨ x.rateCode ≠ s.counter.sampleRate.code ∨ x.tcCode ≠ s.counter.tcRate.code ∨
          s.link.tolerance < (signedDiff s.day (arrivalPosition s) x.pos).natAbs → TakesStand s t) ∧
      (x.phase = 0 ∨ x.phase = 1 →
        (∀ (i : Fin 3) (u : Take), openSlot s = some i → s.takes.slots[i] = some u → u.phase = .rolling →
          u.origin ≠ p.val) → TakesStand s t) ∧
      (x.phase = 2 ∨ x.phase = 3 → 1 ≤ x.number → x.number ≤ 999 →
        (a ∈ s.takes.closed → TakesStand s t) ∧
        (a.origin = s.port.station.val → (openTake s).map Take.identity ≠ some a →
          s.takes.pendingStart.map PendingStart.identity ≠ some a → TakesStand s t) ∧
        (∀ u, openTake s = some u → a = u.identity → x.phase = 2 ∨ u.origin ≠ p.val ∨ u.phase = .post →
          TakesStand s t) ∧
        (∀ q, openSlot s = none → s.takes.pendingStart = some q → a = q.identity → TakesStand s t))) ∧
  ∀ (s : State) (f : HeardFrame) (p : Fin 8), HearsFollowed s f p →
    let x := readStatusPayload f.payload
    let a := announcedIdentity s x
    1 ≤ x.number → x.number ≤ 999 → a ∉ s.takes.closed → a.origin ≠ s.port.station.val →
    ∃ t, exec (.statusFrame f) s = .next t ∧ t.port = s.port ∧ t.counter = s.counter ∧ t.ring = s.ring ∧
      (x.phase = 2 → (∀ i : Fin 3, s.takes.slots[i] = none) → s.takes.pendingStart = none →
        (cardFull s = true →
          (∀ i : Fin 3, t.takes.slots[i] = none) ∧ t.takes.pendingStart = none ∧ isPending .startRefused t = true) ∧
        (cardFull s = false → isLater s.day a.start s.counter.newest = true →
          (∀ i : Fin 3, t.takes.slots[i] = none) ∧
            t.takes.pendingStart =
              some { label := a.label, origin := a.origin, start := a.start, source := .peer, reached := false }) ∧
        (cardFull s = false → isLater s.day a.start s.counter.newest = false →
          ∃ v, t.takes.slots[(0 : Fin 3)] = some v ∧ v.phase = .rolling ∧ v.label = a.label ∧ v.origin = a.origin ∧
            v.sr = a.start ∧ v.serial = nextSerial s.takes.serial ∧ v.flags.follower = true ∧
            v.flags.lateJoin = false ∧ v.h = (headOf .afterFrame s a.start).1 ∧ t.takes.pendingStart = none ∧
            t.takes.scene = s.takes.scene ∧ t.takes.nextTake = s.takes.nextTake ∧ isPending .takeStarted t = true)) ∧
      ∀ (i : Fin 3) (u : Take), openSlot s = some i → s.takes.slots[i] = some u → u.phase = .rolling →
        (x.phase = 2 → u.origin ≠ p.val → isEarlier s.day a.start u.sr = true →
          ∃ v, t.takes.slots[i] = some v ∧ v.phase = .rolling ∧ v.label = a.label ∧ v.origin = a.origin ∧
            v.sr = a.start ∧ v.flags.merged = true ∧ v.flags.follower = true ∧ v.serial = u.serial ∧ v.e = u.e ∧
            isPending .merged t = true ∧
            (u.former = [] → v.former = if u.label = a.label then [] else [u.label]) ∧
            (0 < u.h ∨ 0 < u.w ∨ 0 < u.g ∨ audioOutstanding s i = true →
              v.h = u.h + countAfter s.day a.start u.sr) ∧
            (u.h = 0 → u.w = 0 → u.g = 0 → audioOutstanding s i = false →
              (∀ o, lookup .afterFrame s a.start = .held o → isLater s.day o u.sr = false →
                v.h = countAfter s.day a.start o ∧ (cardFull s = false → v.next = o)) ∧
              ((∀ o, lookup .afterFrame s a.start = .held o → isLater s.day o u.sr = true) →
                v.h = countAfter s.day a.start u.sr))) ∧
        (x.phase = 2 → u.origin ≠ p.val → isEarlier s.day u.sr a.start = true →
          ∃ v, t.takes.slots[i] = some v ∧ v.phase = .rolling ∧ v.label = u.label ∧ v.origin = u.origin ∧
            v.sr = u.sr ∧ v.former = u.former ∧ v.flags = u.flags ∧ v.h = u.h ∧ v.e = u.e) ∧
        (x.phase = 3 → u.origin = p.val → a = u.identity →
          isLater s.day (x.stop % s.day) s.counter.newest = false →
          countAfter s.day (x.stop % s.day) s.counter.newest < s.takes.postRoll →
          ∃ v, t.takes.slots[i] = some v ∧ v.phase = .post ∧ v.e = some (x.stop % s.day) ∧
            v.postRoll = countAfter s.day (x.stop % s.day) s.counter.newest ∧ v.label = u.label ∧ v.sr = u.sr)

/-- The other forms in which a followed STATUS acts. In IDLE a POST announcement from the take's origin is a late join, started
and stopped at once. The origin of a ROLLING open take that announces no take, or a later one, departs: the take is stopped at
the newest position, and only a take that starts after that stop is taken up (with Q = 0 too: notes/assumptions/28.md; the
writer's decision ends the event, over the index record it may give: RecordDecided). In POST an announcement with a start after
E cuts the post-roll before it and is taken up as in IDLE. An earlier identity replaces the pending start, and a later one does
not. A merge between equal starts moves no position. Announced positions are taken modulo D: notes/assumptions/10.md (R113,
R115, R116, R119, R109, R117). -/
def Obligations.OtherAnnouncementsAct : Prop :=
  ∀ (s : State) (f : HeardFrame) (p : Fin 8), HearsFollowed s f p →
    let x := readStatusPayload f.payload
    let a := announcedIdentity s x
    let e := x.stop % s.day
    ∃ t, exec (.statusFrame f) s = .next t ∧
      (∀ (i : Fin 3) (u : Take), openSlot s = some i → s.takes.slots[i] = some u → u.phase = .rolling →
        u.origin = p.val → 0 < s.takes.postRoll → x.phase = 0 ∨ x.phase = 1 ∨ x.number = 0 →
        ∃ v, t.takes.slots[i] = some v ∧ v.phase = .post ∧ v.e = some s.counter.newest ∧ v.postRoll = 0 ∧
          v.label = u.label ∧ v.origin = u.origin ∧ v.sr = u.sr ∧ v.flags = u.flags) ∧
      (1 ≤ x.number → x.number ≤ 999 → a ∉ s.takes.closed → a.origin ≠ s.port.station.val →
        (x.phase = 3 → a.origin = p.val → (∀ i : Fin 3, s.takes.slots[i] = none) → s.takes.pendingStart = none →
          (cardFull s = true → (∀ i : Fin 3, t.takes.slots[i] = none) ∧ isPending .startRefused t = true) ∧
          (cardFull s = false → isLater s.day a.start s.counter.newest = false →
            isLater s.day e s.counter.newest = false → countAfter s.day e s.counter.newest < s.takes.postRoll →
            ∃ v, t.takes.slots[(0 : Fin 3)] = some v ∧ v.phase = .post ∧ v.label = a.label ∧ v.origin = a.origin ∧
              v.sr = a.start ∧ v.e = some e ∧ v.postRoll = countAfter s.day e s.counter.newest ∧
              v.flags = { follower := true, lateJoin := true } ∧ v.h = (headOf .afterFrame s a.start).1 ∧
              v.serial = nextSerial s.takes.serial ∧ isPending .takeStarted t = true)) ∧
        (∀ (i : Fin 3) (u : Take), x.phase = 2 → openSlot s = some i → s.takes.slots[i] = some u →
          (u.phase = .rolling → u.origin = p.val → 0 < s.takes.postRoll → isEarlier s.day u.sr a.start = true →
            isLater s.day a.start s.counter.newest = false →
            ∃ v, t.takes.slots[i] = some v ∧ v.phase = .post ∧ v.e = some s.counter.newest ∧ v.label = u.label ∧
              v.sr = u.sr) ∧
          (u.phase = .rolling → u.origin = p.val → s.takes.postRoll = 0 → s.counter.newest < s.day →
            isEarlier s.day u.sr a.start = true → isLater s.day a.start s.counter.newest = false →
            ∃ v, t.takes.slots[i] = some v ∧ v.phase = .closing ∧ v.e = some s.counter.newest ∧
              v.z = some s.counter.newest ∧ v.label = u.label ∧ v.sr = u.sr ∧
              RecordDecided s t i u v ∧
              t.takes.serial = s.takes.serial ∧ t.takes.pendingStart = s.takes.pendingStart) ∧
          (u.phase = .rolling → u.origin = p.val → isEarlier s.day u.sr a.start = true → cardFull s = false →
            isLater s.day a.start s.counter.newest = true →
            ∃ v, t.takes.slots[i] = some v ∧ v.phase = .closing ∧ v.e = some s.counter.newest ∧ v.label = u.label ∧
              v.sr = u.sr ∧
              t.takes.pendingStart =
                some { label := a.label, origin := a.origin, start := a.start, source := .peer, reached := false }) ∧
          (u.phase = .rolling → u.origin ≠ p.val → a.start = u.sr → a.origin < u.origin →
            ∃ v, t.takes.slots[i] = some v ∧ v.phase = .rolling ∧ v.label = a.label ∧ v.origin = a.origin ∧
              v.sr = u.sr ∧ v.h = u.h ∧ v.serial = u.serial ∧ v.e = u.e ∧ v.flags.merged = true ∧
              v.flags.follower = true ∧ isPending .merged t = true) ∧
          ∀ (last : Nat) (j : Fin 3), u.phase = .post → u.e = some last → isLater s.day a.start last = true →
            isLater s.day (posSub s.day a.start 1) (posAdd s.day last s.takes.postRoll) = false →
            a ≠ u.identity → cardFull s = false → isLater s.day a.start s.counter.newest = false →
            emptySlot s = some j →
            ∃ v w, t.takes.slots[i] = some v ∧ t.takes.slots[j] = some w ∧ v.phase = .closing ∧ v.e = some last ∧
              v.z = some (laterOf s.day (posSub s.day a.start 1) s.counter.newest) ∧ v.label = u.label ∧ v.sr = u.sr ∧
              t.takes.scene = u.label.scene ∧ w.phase = .rolling ∧ w.label = a.label ∧ w.origin = a.origin ∧
              w.sr = a.start ∧ w.flags.follower = true ∧ w.flags.lateJoin = false ∧
              w.h = (headOf .afterFrame s a.start).1 ∧ isPending .takeStarted t = true) ∧
        ∀ q : PendingStart, x.phase = 2 → openSlot s = none → s.takes.pendingStart = some q →
          (isEarlier s.day q.start a.start = true →
            t.takes.pendingStart = some q ∧ isPending .merged t = isPending .merged s) ∧
          (isEarlier s.day a.start q.start = true → isPending .merged t = true ∧
            (emptySlot s = none ∨ isLater s.day a.start s.counter.newest = true →
              t.takes.pendingStart =
                some
                  { label := a.label, origin := a.origin, start := a.start, source := .peer
                    reached := !isLater s.day a.start s.counter.newest }) ∧
            ∀ j : Fin 3, emptySlot s = some j → isLater s.day a.start s.counter.newest = false →
              ∃ v, t.takes.slots[j] = some v ∧ t.takes.pendingStart = none ∧ v.phase = .rolling ∧ v.label = a.label ∧
                v.origin = a.origin ∧ v.sr = a.start ∧ v.flags.follower = true ∧ isPending .takeStarted t = true))

/-- A peer at the note store. An unacceptable note is rejected and counted, and lost when it is the next one wanted; a second
copy is dropped and counted; any other joins the store, in a full one in place of the oldest WRITTEN note or not at all, and
attaches as NotesAttachToTakes says. Heard-up-to advances over every note held. A request for a held note queues up to four own
notes in order of sequence, one for a note that is not held a NOTE GONE; a NOTE GONE that adjoins what was heard moves
heard-up-to on and counts the notes lost; a STATUS with a high-water above heard-up-to queues a NOTE REQUEST, at most every 100
ms. The model's choices: a frame's row is its remaining bytes and the IDLE after them (notes/assumptions/7.md); the NOTE REQUEST
is queued before the STATUS that a change of the announced state requests, so with 7 frames queued it takes the last place
(notes/assumptions/31.md); and a change that the event undoes requests no STATUS (notes/assumptions/32.md) (R131, R136 to R141). -/
def Obligations.NoteTrafficOfAPeer : Prop :=
  ∀ (s : State) (f : HeardFrame) (p : Fin 8), (∀ b, s.link.receiver ≠ .echo b) →
    f.sender.toNat = p.val → p ≠ s.port.station →
    let e := s.link.peers[p]
    let heldIn (t : State) (run seq : Nat) : Prop :=
      ∃ y ∈ t.store.notes, y.note.id = { originator := p.val, run := run, seq := seq }
    let advanced (t : State) (run u : Nat) : Prop :=
      u ≤ t.link.peers[p].heardUpTo ∧ (∀ k, u < k → k ≤ t.link.peers[p].heardUpTo → heldIn t run k) ∧
        (t.link.peers[p].heardUpTo < 65535 → ¬heldIn t run (t.link.peers[p].heardUpTo + 1))
    let sameNotes (t : State) : Prop := t.store.notes.map StoredNote.note = s.store.notes.map StoredNote.note
    (canHear 2#8 f s = true → frameValid 2#8 f = true →
      let run := field f.payload 0 2
      let seq := field f.payload 2 2
      let u := if e.run = none ∨ e.run = some run then e.heardUpTo else 0
      ∀ raw : RawNote, readNotePayload f.payload = some raw →
        let acceptable (kind : NoteKind) : Prop :=
          noteKindOf (field f.payload 4 1) = some kind ∧ seq ≠ 0 ∧
            contentsFit s.day kind raw.ref raw.pos raw.track = true ∧
            raw.text.length ≤ (if kind = .trackName then 16 else 64)
        ∃ t, exec (.noteFrame f) s = .next t ∧ t.port = s.port ∧ t.store.seq = s.store.seq ∧ t.counter = s.counter ∧
          t.link.peers[p].present = true ∧ t.link.peers[p].run = some run ∧ t.link.peers[p].heardAt = some t.time ∧
          t.link.counts.received = min 65535 (s.link.counts.received + 1) ∧
          ((∀ kind, ¬acceptable kind) →
            sameNotes t ∧ t.store.rejected = min 65535 (s.store.rejected + 1) ∧
              t.store.duplicates = s.store.duplicates ∧ isPending .noteArrived t = isPending .noteArrived s ∧
              (seq = u + 1 →
                advanced t run (u + 1) ∧ t.store.lost = min 65535 (s.store.lost + 1) ∧ isPending .notesLost t = true) ∧
              (seq ≠ u + 1 → t.link.peers[p].heardUpTo = u ∧ t.store.lost = s.store.lost)) ∧
          ∀ kind, acceptable kind → t.store.rejected = s.store.rejected ∧ t.store.lost = s.store.lost ∧
            (seq ≤ u ∨ heldIn s run seq →
              sameNotes t ∧ t.store.duplicates = min 65535 (s.store.duplicates + 1) ∧ t.link.peers[p].heardUpTo = u ∧
                isPending .noteArrived t = isPending .noteArrived s) ∧
            (u < seq → ¬heldIn s run seq → t.store.duplicates = s.store.duplicates ∧
              (256 ≤ s.store.notes.length → (∀ x ∈ s.store.notes, x.state ≠ .written) →
                sameNotes t ∧ t.store.refused = min 65535 (s.store.refused + 1) ∧ t.link.peers[p].heardUpTo = u ∧
                  isPending .noteArrived t = isPending .noteArrived s) ∧
              ∀ kept : List StoredNote,
                (s.store.notes.length < 256 ∧ kept = s.store.notes) ∨
                  (256 ≤ s.store.notes.length ∧ ∃ older x newer, s.store.notes = older ++ x :: newer ∧
                    x.state = .written ∧ (∀ y ∈ older, y.state ≠ .written) ∧ kept = older ++ newer) →
                let n : Note :=
                  { id := { originator := p.val, run := run, seq := seq }, kind := kind, ref := raw.ref, pos := raw.pos
                    track := raw.track, text := raw.text.map printable }
                let marks (u : Take) := (u.noteRefs, u.flags, u.tracks)
                t.store.notes.map StoredNote.note = kept.map StoredNote.note ++ [n] ∧
                  t.store.refused = s.store.refused ∧ isPending .noteArrived t = true ∧ advanced t run u ∧
                  ∀ i : Fin 3, t.takes.slots[i].map marks = (tryAttach n s).takes.slots[i].map marks)) ∧
    (canHear 3#8 f s = true → frameValid 3#8 f = true →
      let run := field f.payload 1 2
      let first := field f.payload 3 2
      let own (n : Note) : Prop :=
        (∃ y ∈ s.store.notes, y.note = n) ∧ n.id.originator = s.port.station.val ∧ n.id.run = s.link.run
      ∃ t, exec (.noteRequestFrame f) s = .next t ∧ t.port = s.port ∧ t.counter = s.counter ∧
        t.link.peers[p] = { e with present := true, heardAt := some t.time } ∧ sameNotes t ∧
        (field f.payload 0 1 ≠ s.port.station.val ∨ run ≠ s.link.run ∨ s.store.seq < first →
          t.link.queue = s.link.queue) ∧
        (field f.payload 0 1 = s.port.station.val → run = s.link.run → first ≤ s.store.seq →
          s.link.listenOnly = false → s.link.queue.length + 4 ≤ 8 →
          ((∃ n, own n ∧ n.id.seq = first) →
            ∃ l : List Note, (∀ n ∈ l, own n ∧ first ≤ n.id.seq) ∧ l.Pairwise (fun m n => m.id.seq ≤ n.id.seq) ∧
              l.length ≤ 4 ∧ (∀ n, own n → first ≤ n.id.seq → n ∉ l → l.length = 4 ∧ ∀ m ∈ l, m.id.seq ≤ n.id.seq) ∧
              t.link.queue = s.link.queue ++ l.map fun n => { frame := .note n, attempts := 0 }) ∧
          ((¬∃ n, own n ∧ first ≤ n.id.seq) →
            t.link.queue =
              s.link.queue ++ [{ frame := .noteGone s.link.run first s.store.seq, attempts := 0 }]) ∧
          (∀ n, own n → first < n.id.seq → (∀ m, own m → first ≤ m.id.seq → n.id.seq ≤ m.id.seq) →
            t.link.queue =
              s.link.queue ++ [{ frame := .noteGone s.link.run first (n.id.seq - 1), attempts := 0 }]))) ∧
    (canHear 4#8 f s = true → frameValid 4#8 f = true →
      let run := field f.payload 0 2
      let a := field f.payload 2 2
      let b := field f.payload 4 2
      let lost := ((List.range (b - e.heardUpTo)).filter fun k =>
        !holdsNote s { originator := p.val, run := run, seq := e.heardUpTo + k + 1 }).length
      ∃ t, exec (.noteGoneFrame f) s = .next t ∧ t.port = s.port ∧ t.counter = s.counter ∧
        t.link.peers[p].present = true ∧ t.link.peers[p].run = e.run ∧ sameNotes t ∧
        (e.run ≠ some run ∨ e.heardUpTo + 1 < a ∨ b ≤ e.heardUpTo →
          t.link.peers[p].heardUpTo = e.heardUpTo ∧ t.store.lost = s.store.lost) ∧
        (e.run = some run → a ≤ e.heardUpTo + 1 → e.heardUpTo < b →
          t.store.lost = min 65535 (s.store.lost + lost) ∧ advanced t run b ∧
            (0 < lost → isPending .notesLost t = true))) ∧
    (canHear 1#8 f s = true → f.payload.length = 40 → f.check = crc (1#8 :: f.sender :: 40#8 :: f.payload) →
      let x := readStatusPayload f.payload
      let u := if e.run = none ∨ e.run = some x.run then e.heardUpTo else 0
      let wants (t : State) : Prop := u < x.highWater ∧ ∀ last, e.lastRequest = some last → last + 100000 ≤ t.time
      let request : TxEntry := { frame := .noteRequest p.val x.run (u + 1), attempts := 0 }
      let free : Prop := s.link.listenOnly = false ∧ s.link.queue.length < 8
      ∃ t, exec (.statusFrame f) s = .next t ∧ t.link.peers[p].heardUpTo = u ∧
        (wants t → free →
          t.link.peers[p].lastRequest = some t.time ∧ request ∈ t.link.queue ∧
            (announcedState t = announcedState s → t.link.queue = s.link.queue ++ [request])) ∧
        (¬wants t ∨ ¬free →
          t.link.peers[p].lastRequest = e.lastRequest ∧
            (announcedState t = announcedState s → t.link.queue = s.link.queue)) ∧
        (wants t → s.link.listenOnly = false → 8 ≤ s.link.queue.length →
          t.link.counts.refused = min 65535 (s.link.counts.refused + 1)) ∧
        (¬wants t → t.link.counts.refused = s.link.counts.refused))

/-! ## Words, integers, positions and payloads (R1, R17, R18, R191) -/

/-- Stage 2 normalises the product N of b binary digits to 19 digits, rounds it by the mode with the carry of an overflowing
significand, takes the path exponent off the exponent, and flushes a word with an exponent below 1 to exact zero; it never passes
65,535/4,096, gives exact zero for a reading or a trim of 0, keeps the reading's sign and stores a product of at most 19 digits
exactly; Stage 3 rounds the exact sum by the mode and clamps it; and the signed difference is the
representative of b - a modulo D in the range R1 gives it (R1, R17, R18; R12 to R16 in part). -/
def Obligations.WordsIntegersAndDifferences : Prop :=
  (∀ (mode : Rounding) (t : Track) (x : BitVec 24) (k : Nat), t.trim ≤ 65535 →
    let v := wordUnits (trimmed mode t x k)
    let n := x.toInt.natAbs * t.trim
    v.natAbs ≤ 65535 * 2 ^ 33 ∧ (n = 0 → trimmed mode t x k = FieldWord.zero) ∧ (v < 0 → x.toInt < 0) ∧
      (0 < v → 0 < x.toInt) ∧ (k = 0 → 256 ≤ n → n < 524288 → v.natAbs = n * 2 ^ 10)) ∧
  (∀ (mode : Rounding) (t : Track) (x : BitVec 24) (k b : Nat),
    let n := x.toInt.natAbs * t.trim
    0 < b → 2 ^ (b - 1) ≤ n → n < 2 ^ b →
    let m :=
      if b ≤ 19 then n * 2 ^ (19 - b)
      else if mode = .round then (n + 2 ^ (b - 20)) / 2 ^ (b - 19)
      else n / 2 ^ (b - 19)
    let e : Int := 11 + ((b : Int) - 19) - k + (if m = 524288 then 1 else 0)
    (e < 1 → trimmed mode t x k = { sign := false, exponent := 0, fraction := 0 }) ∧
    (1 ≤ e → trimmed mode t x k =
      { sign := decide (x.toInt < 0), exponent := BitVec.ofInt 5 e
        fraction := if m = 524288 then 0 else BitVec.ofNat 18 (m - 262144) })) ∧
  (∀ sum : Int,
    let chopped : Int := if sum < 0 then -((sum.natAbs / 2 ^ 34 : Nat) : Int) else ((sum.natAbs / 2 ^ 34 : Nat) : Int)
    let rounded : Int :=
      if sum < 0 then -(((sum.natAbs + 2 ^ 33) / 2 ^ 34 : Nat) : Int) else (((sum.natAbs + 2 ^ 33) / 2 ^ 34 : Nat) : Int)
    ∀ mode : Rounding,
      let v := if mode = .round then rounded else chopped
      (stage3 mode sum).1 = max (-8388608) (min 8388607 v) ∧
        ((stage3 mode sum).2 = true ↔ v < -8388608 ∨ 8388607 < v)) ∧
  ∀ D a b : Nat, 0 < D → D % 2 = 0 →
    -(D : Int) < 2 * signedDiff D a b ∧ 2 * signedDiff D a b ≤ (D : Int) ∧
      (D : Int) ∣ ((b : Int) - (a : Int) - signedDiff D a b) ∧ (signedDiff D a b = 0 ↔ a % D = b % D) ∧
      (isLater D b a = true ↔ 0 < signedDiff D a b) ∧ (isEarlier D b a = true ↔ signedDiff D a b < 0) ∧
      isLater D ((a + D / 2) % D) a = true

/-- What the station writes it reads back: the fields of a STATUS in the ranges of R87, and the optional fields and the text of
a NOTE. What a selection's bytes are to the port: each code of R194 with its announced argument bytes is its command, a code
that names none is UNKNOWN, a first byte of 0x00 is a response read, and an incomplete message is a release; bytes after a
complete message, or after one that power-on or RESET discarded, belong to no command. The command joins the queue of
notes/assumptions/13.md (R87, R189, R191, R193, R194). -/
def Obligations.PayloadsAndMessagesReadBack : Prop :=
  let scene (l : Text) : Prop := 1 ≤ l.length ∧ l.length ≤ 12 ∧ ∀ ch ∈ l, 32 ≤ ch.toNat ∧ ch.toNat ≤ 126
  (∀ x : StatusFields, x.run < 65536 → x.rateCode < 256 → x.tcCode < 256 → x.pos < 2 ^ 40 → x.capture < 256 →
    x.phase < 256 → x.origin < 256 → scene x.scene → x.number < 65536 → x.start < 2 ^ 40 → x.stop < 2 ^ 40 →
    x.nextTake < 65536 → x.highWater < 65536 →
    (statusBytes x).length = 40 ∧ readStatusPayload (statusBytes x) = x) ∧
  (∀ n : Note, n.id.run < 65536 → n.id.seq < 65536 → (∀ r, n.ref = some r → scene r.scene ∧ r.number < 65536) →
    (∀ q, n.pos = some q → q < 2 ^ 40) → (∀ k, n.track = some k → k < 256) → n.text.length ≤ 64 →
    (noteBytes n).length ≤ 91 ∧ field (noteBytes n) 0 2 = n.id.run ∧ field (noteBytes n) 2 2 = n.id.seq ∧
      noteKindOf (field (noteBytes n) 4 1) = some n.kind ∧
      readNotePayload (noteBytes n) = some { ref := n.ref, pos := n.pos, track := n.track, text := n.text }) ∧
  ∀ (args more : List Byte), args.length ≤ 255 →
    let message (code : Byte) : List Byte := code :: BitVec.ofNat 8 args.length :: args ++ more
    (∀ x ∈ [(0x01#8, Instr.configureClock args), (0x02#8, .configureTrack args), (0x03#8, .configureCapture args),
        (0x04#8, .configureMedia args), (0x05#8, .setRunNumber args), (0x06#8, .commit args), (0x10#8, .setTrim args),
        (0x11#8, .setGate args), (0x12#8, .setScene args), (0x13#8, .setNextTake args), (0x14#8, .jamTimecode args),
        (0x20#8, .start args), (0x21#8, .stop args), (0x22#8, .addNote args), (0x23#8, .setCue args),
        (0x24#8, .cancelCue args), (0x25#8, .clearClip args), (0x26#8, .mediaRetry args),
        (0x27#8, .captureRestart args), (0x30#8, .readStatus args), (0x31#8, .readSlot args), (0x32#8, .readPeer args),
        (0x33#8, .readNote args), (0x34#8, .readClip args), (0x35#8, .readNotices args), (0x36#8, .setNoticeMask args),
        (0x37#8, .ackNotices args)], readMessage (message x.1) = x.2) ∧
    (∀ code, namesNoCommand code = true → readMessage (message code) = .unknownCommand code args) ∧
    readMessage (0#8 :: more) = .responseRead ∧
    (isPartialMessage more = true → readMessage more = .selectionReleased more) ∧
    ∀ s : State,
      s.deliver (args ++ more) =
        { s with
          port := { s.port with selection := .released }, pending := s.pending ++ [readMessage (args ++ more)] } ∧
      ∀ b : Byte,
        (∀ bytes, s.port.selection = .receiving bytes → isPartialMessage (bytes ++ [b]) = true →
          s.hostByte b = { s with port := { s.port with selection := .receiving (bytes ++ [b]) } }) ∧
        (∀ bytes, s.port.selection = .receiving bytes → isPartialMessage (bytes ++ [b]) = false →
          s.hostByte b =
            { s with port := { s.port with selection := .spent }, pending := s.pending ++ [readMessage (bytes ++ [b])] }) ∧
        (s.port.selection = .spent → s.hostByte b = s ∧ s.release.pending = s.pending)

/-! ## What every step keeps -/

/-- The attention line is asserted exactly while some pending notice kind is not masked, at every step from every state in which
it is; and a kind leaves the pending set only when ACK NOTICES names it, at power-on or at the RESET line (R187, R185). -/
def Obligations.AttentionIsAlwaysDriven : Prop :=
  KeptByEveryStep AttentionDriven ∧
  ∀ (i : Instr) (s t : State) (k : Notice), exec i s = .next t → isPending k s = true → isPending k t = false →
    (∃ args v, i = .ackNotices args ∧ readNumber 4 args = some v ∧ v.testBit k.bit = true) ∨
      (∃ strap, i = .powerOn strap ∨ i = .reset strap)

/-- SETUP stays quiet: ring, slots, pending start, cue, store, queue, peer table and card are untouched until COMMIT
(R176, R52, R55, R38, R84, R100). -/
def Obligations.SetupStaysQuiet : Prop := KeptByEveryStep SetupQuiet

/-- There is at most one open take, and no pending start beside it (R55, R59). -/
def Obligations.AtMostOneTakeIsOpen : Prop := KeptByEveryStep OneOpenTake

/-- Every position of every take is counted once, as written, gap or head shortfall (R78). -/
def Obligations.EveryPositionIsAccounted : Prop := KeptByEveryStep TakesAccounted

/-- The take records, the closed-identity list, the ring and the mix stay within their limits (R44, R56, R75, R110, R117, R133,
R144, R149, R151, R153). -/
def Obligations.RecordsRingAndMixStayBounded : Prop :=
  KeptByEveryStep RecordsBounded ∧ KeptByEveryStep RingBounded ∧ KeptByEveryStep MixSound

/-- The note store never holds two notes with one identity, nor the transmit queue two STATUS frames, and both stay within their
limits (R93, R94, R126, R129). -/
def Obligations.StoreAndQueueStaySound : Prop := KeptByEveryStep StoreSound ∧ KeptByEveryStep QueueSound

/-- Cursor, space state and the write in flight stay in step with the card range; between resets the cursor never decreases, and
it moves by one at a completion alone (R157, R158, R163, R164). -/
def Obligations.CursorNeverGoesBack : Prop :=
  KeptByEveryStep CardSound ∧
  ∀ (i : Instr) (s t : State) (c : Nat), CardSound s → exec i s = .next t → s.writer.cursor = some c →
    (∃ strap, i = .powerOn strap ∨ i = .reset strap) ∨ t.writer.cursor = some c ∨
      (t.writer.cursor = some (c + 1) ∧ (i = .successfulCompletion ∨ i = .failedCompletion) ∧
        ∃ w, s.writer.inFlight = some w ∧ w.addr = c)

end
end

