-- ==== Sys2Proof/Laws/State.lean ====
section
/-! SUPPORT. The blocks of State that each elementary update leaves alone: one lemma per block per update, true by rfl. -/

namespace Sys2Proof.Machine

open Sys2Proof

/-! ### raise -/

@[simp] theorem raise_time (k : Notice) (s : State) : (raise k s).time = s.time := rfl
@[simp] theorem raise_port (k : Notice) (s : State) : (raise k s).port = s.port := rfl
@[simp] theorem raise_counter (k : Notice) (s : State) : (raise k s).counter = s.counter := rfl
@[simp] theorem raise_front (k : Notice) (s : State) : (raise k s).front = s.front := rfl
@[simp] theorem raise_mixer (k : Notice) (s : State) : (raise k s).mixer = s.mixer := rfl
@[simp] theorem raise_ring (k : Notice) (s : State) : (raise k s).ring = s.ring := rfl
@[simp] theorem raise_takes (k : Notice) (s : State) : (raise k s).takes = s.takes := rfl
@[simp] theorem raise_link (k : Notice) (s : State) : (raise k s).link = s.link := rfl
@[simp] theorem raise_store (k : Notice) (s : State) : (raise k s).store = s.store := rfl
@[simp] theorem raise_writer (k : Notice) (s : State) : (raise k s).writer = s.writer := rfl
@[simp] theorem raise_orders (k : Notice) (s : State) : (raise k s).orders = s.orders := rfl
@[simp] theorem raise_pending (k : Notice) (s : State) : (raise k s).pending = s.pending := rfl

/-! ### respond -/

@[simp] theorem respond_time (c : ResponseCode) (d : List Byte) (s : State) : (respond c d s).time = s.time := rfl
@[simp] theorem respond_notices (c : ResponseCode) (d : List Byte) (s : State) : (respond c d s).notices = s.notices := rfl
@[simp] theorem respond_counter (c : ResponseCode) (d : List Byte) (s : State) : (respond c d s).counter = s.counter := rfl
@[simp] theorem respond_front (c : ResponseCode) (d : List Byte) (s : State) : (respond c d s).front = s.front := rfl
@[simp] theorem respond_mixer (c : ResponseCode) (d : List Byte) (s : State) : (respond c d s).mixer = s.mixer := rfl
@[simp] theorem respond_ring (c : ResponseCode) (d : List Byte) (s : State) : (respond c d s).ring = s.ring := rfl
@[simp] theorem respond_takes (c : ResponseCode) (d : List Byte) (s : State) : (respond c d s).takes = s.takes := rfl
@[simp] theorem respond_link (c : ResponseCode) (d : List Byte) (s : State) : (respond c d s).link = s.link := rfl
@[simp] theorem respond_store (c : ResponseCode) (d : List Byte) (s : State) : (respond c d s).store = s.store := rfl
@[simp] theorem respond_writer (c : ResponseCode) (d : List Byte) (s : State) : (respond c d s).writer = s.writer := rfl
@[simp] theorem respond_orders (c : ResponseCode) (d : List Byte) (s : State) : (respond c d s).orders = s.orders := rfl
@[simp] theorem respond_pending (c : ResponseCode) (d : List Byte) (s : State) : (respond c d s).pending = s.pending := rfl

/-! ### advanceTime -/

@[simp] theorem advanceTime_port (t : Nat) (s : State) : (advanceTime t s).port = s.port := rfl
@[simp] theorem advanceTime_notices (t : Nat) (s : State) : (advanceTime t s).notices = s.notices := rfl
@[simp] theorem advanceTime_counter (t : Nat) (s : State) : (advanceTime t s).counter = s.counter := rfl
@[simp] theorem advanceTime_front (t : Nat) (s : State) : (advanceTime t s).front = s.front := rfl
@[simp] theorem advanceTime_mixer (t : Nat) (s : State) : (advanceTime t s).mixer = s.mixer := rfl
@[simp] theorem advanceTime_ring (t : Nat) (s : State) : (advanceTime t s).ring = s.ring := rfl
@[simp] theorem advanceTime_takes (t : Nat) (s : State) : (advanceTime t s).takes = s.takes := rfl
@[simp] theorem advanceTime_link (t : Nat) (s : State) : (advanceTime t s).link = s.link := rfl
@[simp] theorem advanceTime_store (t : Nat) (s : State) : (advanceTime t s).store = s.store := rfl
@[simp] theorem advanceTime_writer (t : Nat) (s : State) : (advanceTime t s).writer = s.writer := rfl
@[simp] theorem advanceTime_orders (t : Nat) (s : State) : (advanceTime t s).orders = s.orders := rfl
@[simp] theorem advanceTime_pending (t : Nat) (s : State) : (advanceTime t s).pending = s.pending := rfl

/-! ### setSlot -/

@[simp] theorem setSlot_time (i : Fin 3) (t : Option Take) (s : State) : (setSlot i t s).time = s.time := rfl
@[simp] theorem setSlot_port (i : Fin 3) (t : Option Take) (s : State) : (setSlot i t s).port = s.port := rfl
@[simp] theorem setSlot_notices (i : Fin 3) (t : Option Take) (s : State) : (setSlot i t s).notices = s.notices := rfl
@[simp] theorem setSlot_counter (i : Fin 3) (t : Option Take) (s : State) : (setSlot i t s).counter = s.counter := rfl
@[simp] theorem setSlot_front (i : Fin 3) (t : Option Take) (s : State) : (setSlot i t s).front = s.front := rfl
@[simp] theorem setSlot_mixer (i : Fin 3) (t : Option Take) (s : State) : (setSlot i t s).mixer = s.mixer := rfl
@[simp] theorem setSlot_ring (i : Fin 3) (t : Option Take) (s : State) : (setSlot i t s).ring = s.ring := rfl
@[simp] theorem setSlot_link (i : Fin 3) (t : Option Take) (s : State) : (setSlot i t s).link = s.link := rfl
@[simp] theorem setSlot_store (i : Fin 3) (t : Option Take) (s : State) : (setSlot i t s).store = s.store := rfl
@[simp] theorem setSlot_writer (i : Fin 3) (t : Option Take) (s : State) : (setSlot i t s).writer = s.writer := rfl
@[simp] theorem setSlot_orders (i : Fin 3) (t : Option Take) (s : State) : (setSlot i t s).orders = s.orders := rfl
@[simp] theorem setSlot_pending (i : Fin 3) (t : Option Take) (s : State) : (setSlot i t s).pending = s.pending := rfl

/-! ### setPeer -/

@[simp] theorem setPeer_time (p : Fin 8) (e : Peer) (s : State) : (setPeer p e s).time = s.time := rfl
@[simp] theorem setPeer_port (p : Fin 8) (e : Peer) (s : State) : (setPeer p e s).port = s.port := rfl
@[simp] theorem setPeer_notices (p : Fin 8) (e : Peer) (s : State) : (setPeer p e s).notices = s.notices := rfl
@[simp] theorem setPeer_counter (p : Fin 8) (e : Peer) (s : State) : (setPeer p e s).counter = s.counter := rfl
@[simp] theorem setPeer_front (p : Fin 8) (e : Peer) (s : State) : (setPeer p e s).front = s.front := rfl
@[simp] theorem setPeer_mixer (p : Fin 8) (e : Peer) (s : State) : (setPeer p e s).mixer = s.mixer := rfl
@[simp] theorem setPeer_ring (p : Fin 8) (e : Peer) (s : State) : (setPeer p e s).ring = s.ring := rfl
@[simp] theorem setPeer_takes (p : Fin 8) (e : Peer) (s : State) : (setPeer p e s).takes = s.takes := rfl
@[simp] theorem setPeer_store (p : Fin 8) (e : Peer) (s : State) : (setPeer p e s).store = s.store := rfl
@[simp] theorem setPeer_writer (p : Fin 8) (e : Peer) (s : State) : (setPeer p e s).writer = s.writer := rfl
@[simp] theorem setPeer_orders (p : Fin 8) (e : Peer) (s : State) : (setPeer p e s).orders = s.orders := rfl
@[simp] theorem setPeer_pending (p : Fin 8) (e : Peer) (s : State) : (setPeer p e s).pending = s.pending := rfl

/-! ### sendMix -/

@[simp] theorem sendMix_time (v : Int) (s : State) : (sendMix v s).time = s.time := rfl
@[simp] theorem sendMix_port (v : Int) (s : State) : (sendMix v s).port = s.port := rfl
@[simp] theorem sendMix_notices (v : Int) (s : State) : (sendMix v s).notices = s.notices := rfl
@[simp] theorem sendMix_counter (v : Int) (s : State) : (sendMix v s).counter = s.counter := rfl
@[simp] theorem sendMix_front (v : Int) (s : State) : (sendMix v s).front = s.front := rfl
@[simp] theorem sendMix_ring (v : Int) (s : State) : (sendMix v s).ring = s.ring := rfl
@[simp] theorem sendMix_takes (v : Int) (s : State) : (sendMix v s).takes = s.takes := rfl
@[simp] theorem sendMix_link (v : Int) (s : State) : (sendMix v s).link = s.link := rfl
@[simp] theorem sendMix_store (v : Int) (s : State) : (sendMix v s).store = s.store := rfl
@[simp] theorem sendMix_writer (v : Int) (s : State) : (sendMix v s).writer = s.writer := rfl
@[simp] theorem sendMix_orders (v : Int) (s : State) : (sendMix v s).orders = s.orders := rfl
@[simp] theorem sendMix_pending (v : Int) (s : State) : (sendMix v s).pending = s.pending := rfl

/-! ### raisePeaks -/

@[simp] theorem raisePeaks_time (c : Vector Converted 16) (s : State) : (raisePeaks c s).time = s.time := rfl
@[simp] theorem raisePeaks_port (c : Vector Converted 16) (s : State) : (raisePeaks c s).port = s.port := rfl
@[simp] theorem raisePeaks_notices (c : Vector Converted 16) (s : State) : (raisePeaks c s).notices = s.notices := rfl
@[simp] theorem raisePeaks_counter (c : Vector Converted 16) (s : State) : (raisePeaks c s).counter = s.counter := rfl
@[simp] theorem raisePeaks_front (c : Vector Converted 16) (s : State) : (raisePeaks c s).front = s.front := rfl
@[simp] theorem raisePeaks_ring (c : Vector Converted 16) (s : State) : (raisePeaks c s).ring = s.ring := rfl
@[simp] theorem raisePeaks_takes (c : Vector Converted 16) (s : State) : (raisePeaks c s).takes = s.takes := rfl
@[simp] theorem raisePeaks_link (c : Vector Converted 16) (s : State) : (raisePeaks c s).link = s.link := rfl
@[simp] theorem raisePeaks_store (c : Vector Converted 16) (s : State) : (raisePeaks c s).store = s.store := rfl
@[simp] theorem raisePeaks_writer (c : Vector Converted 16) (s : State) : (raisePeaks c s).writer = s.writer := rfl
@[simp] theorem raisePeaks_orders (c : Vector Converted 16) (s : State) : (raisePeaks c s).orders = s.orders := rfl
@[simp] theorem raisePeaks_pending (c : Vector Converted 16) (s : State) : (raisePeaks c s).pending = s.pending := rfl

/-! ### blockEndUpdate -/

@[simp] theorem blockEndUpdate_time (s : State) : (blockEndUpdate s).time = s.time := rfl
@[simp] theorem blockEndUpdate_port (s : State) : (blockEndUpdate s).port = s.port := rfl
@[simp] theorem blockEndUpdate_notices (s : State) : (blockEndUpdate s).notices = s.notices := rfl
@[simp] theorem blockEndUpdate_counter (s : State) : (blockEndUpdate s).counter = s.counter := rfl
@[simp] theorem blockEndUpdate_front (s : State) : (blockEndUpdate s).front = s.front := rfl
@[simp] theorem blockEndUpdate_ring (s : State) : (blockEndUpdate s).ring = s.ring := rfl
@[simp] theorem blockEndUpdate_takes (s : State) : (blockEndUpdate s).takes = s.takes := rfl
@[simp] theorem blockEndUpdate_link (s : State) : (blockEndUpdate s).link = s.link := rfl
@[simp] theorem blockEndUpdate_store (s : State) : (blockEndUpdate s).store = s.store := rfl
@[simp] theorem blockEndUpdate_writer (s : State) : (blockEndUpdate s).writer = s.writer := rfl
@[simp] theorem blockEndUpdate_orders (s : State) : (blockEndUpdate s).orders = s.orders := rfl
@[simp] theorem blockEndUpdate_pending (s : State) : (blockEndUpdate s).pending = s.pending := rfl

/-! ### emptyRing -/

@[simp] theorem emptyRing_time (s : State) : (emptyRing s).time = s.time := rfl
@[simp] theorem emptyRing_port (s : State) : (emptyRing s).port = s.port := rfl
@[simp] theorem emptyRing_notices (s : State) : (emptyRing s).notices = s.notices := rfl
@[simp] theorem emptyRing_counter (s : State) : (emptyRing s).counter = s.counter := rfl
@[simp] theorem emptyRing_front (s : State) : (emptyRing s).front = s.front := rfl
@[simp] theorem emptyRing_mixer (s : State) : (emptyRing s).mixer = s.mixer := rfl
@[simp] theorem emptyRing_takes (s : State) : (emptyRing s).takes = s.takes := rfl
@[simp] theorem emptyRing_link (s : State) : (emptyRing s).link = s.link := rfl
@[simp] theorem emptyRing_store (s : State) : (emptyRing s).store = s.store := rfl
@[simp] theorem emptyRing_writer (s : State) : (emptyRing s).writer = s.writer := rfl
@[simp] theorem emptyRing_orders (s : State) : (emptyRing s).orders = s.orders := rfl
@[simp] theorem emptyRing_pending (s : State) : (emptyRing s).pending = s.pending := rfl

/-! ### makePending -/

@[simp] theorem makePending_time (p : PendingStart) (s : State) : (makePending p s).time = s.time := rfl
@[simp] theorem makePending_port (p : PendingStart) (s : State) : (makePending p s).port = s.port := rfl
@[simp] theorem makePending_notices (p : PendingStart) (s : State) : (makePending p s).notices = s.notices := rfl
@[simp] theorem makePending_counter (p : PendingStart) (s : State) : (makePending p s).counter = s.counter := rfl
@[simp] theorem makePending_front (p : PendingStart) (s : State) : (makePending p s).front = s.front := rfl
@[simp] theorem makePending_mixer (p : PendingStart) (s : State) : (makePending p s).mixer = s.mixer := rfl
@[simp] theorem makePending_ring (p : PendingStart) (s : State) : (makePending p s).ring = s.ring := rfl
@[simp] theorem makePending_link (p : PendingStart) (s : State) : (makePending p s).link = s.link := rfl
@[simp] theorem makePending_store (p : PendingStart) (s : State) : (makePending p s).store = s.store := rfl
@[simp] theorem makePending_writer (p : PendingStart) (s : State) : (makePending p s).writer = s.writer := rfl
@[simp] theorem makePending_orders (p : PendingStart) (s : State) : (makePending p s).orders = s.orders := rfl
@[simp] theorem makePending_pending (p : PendingStart) (s : State) : (makePending p s).pending = s.pending := rfl

/-! ### dropPending -/

@[simp] theorem dropPending_time (s : State) : (dropPending s).time = s.time := rfl
@[simp] theorem dropPending_port (s : State) : (dropPending s).port = s.port := rfl
@[simp] theorem dropPending_notices (s : State) : (dropPending s).notices = s.notices := rfl
@[simp] theorem dropPending_counter (s : State) : (dropPending s).counter = s.counter := rfl
@[simp] theorem dropPending_front (s : State) : (dropPending s).front = s.front := rfl
@[simp] theorem dropPending_mixer (s : State) : (dropPending s).mixer = s.mixer := rfl
@[simp] theorem dropPending_ring (s : State) : (dropPending s).ring = s.ring := rfl
@[simp] theorem dropPending_link (s : State) : (dropPending s).link = s.link := rfl
@[simp] theorem dropPending_store (s : State) : (dropPending s).store = s.store := rfl
@[simp] theorem dropPending_writer (s : State) : (dropPending s).writer = s.writer := rfl
@[simp] theorem dropPending_orders (s : State) : (dropPending s).orders = s.orders := rfl
@[simp] theorem dropPending_pending (s : State) : (dropPending s).pending = s.pending := rfl

/-! ### closeSlot -/

@[simp] theorem closeSlot_time (i : Fin 3) (t : Take) (s : State) : (closeSlot i t s).time = s.time := rfl
@[simp] theorem closeSlot_port (i : Fin 3) (t : Take) (s : State) : (closeSlot i t s).port = s.port := rfl
@[simp] theorem closeSlot_notices (i : Fin 3) (t : Take) (s : State) : (closeSlot i t s).notices = s.notices := rfl
@[simp] theorem closeSlot_counter (i : Fin 3) (t : Take) (s : State) : (closeSlot i t s).counter = s.counter := rfl
@[simp] theorem closeSlot_front (i : Fin 3) (t : Take) (s : State) : (closeSlot i t s).front = s.front := rfl
@[simp] theorem closeSlot_mixer (i : Fin 3) (t : Take) (s : State) : (closeSlot i t s).mixer = s.mixer := rfl
@[simp] theorem closeSlot_ring (i : Fin 3) (t : Take) (s : State) : (closeSlot i t s).ring = s.ring := rfl
@[simp] theorem closeSlot_link (i : Fin 3) (t : Take) (s : State) : (closeSlot i t s).link = s.link := rfl
@[simp] theorem closeSlot_store (i : Fin 3) (t : Take) (s : State) : (closeSlot i t s).store = s.store := rfl
@[simp] theorem closeSlot_writer (i : Fin 3) (t : Take) (s : State) : (closeSlot i t s).writer = s.writer := rfl
@[simp] theorem closeSlot_orders (i : Fin 3) (t : Take) (s : State) : (closeSlot i t s).orders = s.orders := rfl
@[simp] theorem closeSlot_pending (i : Fin 3) (t : Take) (s : State) : (closeSlot i t s).pending = s.pending := rfl

/-! ### countError -/

@[simp] theorem countError_time (s : State) : (countError s).time = s.time := rfl
@[simp] theorem countError_port (s : State) : (countError s).port = s.port := rfl
@[simp] theorem countError_notices (s : State) : (countError s).notices = s.notices := rfl
@[simp] theorem countError_counter (s : State) : (countError s).counter = s.counter := rfl
@[simp] theorem countError_front (s : State) : (countError s).front = s.front := rfl
@[simp] theorem countError_mixer (s : State) : (countError s).mixer = s.mixer := rfl
@[simp] theorem countError_ring (s : State) : (countError s).ring = s.ring := rfl
@[simp] theorem countError_takes (s : State) : (countError s).takes = s.takes := rfl
@[simp] theorem countError_store (s : State) : (countError s).store = s.store := rfl
@[simp] theorem countError_writer (s : State) : (countError s).writer = s.writer := rfl
@[simp] theorem countError_orders (s : State) : (countError s).orders = s.orders := rfl
@[simp] theorem countError_pending (s : State) : (countError s).pending = s.pending := rfl

/-! ### stationClash -/

@[simp] theorem stationClash_time (s : State) : (stationClash s).time = s.time := rfl
@[simp] theorem stationClash_port (s : State) : (stationClash s).port = s.port := rfl
@[simp] theorem stationClash_counter (s : State) : (stationClash s).counter = s.counter := rfl
@[simp] theorem stationClash_front (s : State) : (stationClash s).front = s.front := rfl
@[simp] theorem stationClash_mixer (s : State) : (stationClash s).mixer = s.mixer := rfl
@[simp] theorem stationClash_ring (s : State) : (stationClash s).ring = s.ring := rfl
@[simp] theorem stationClash_takes (s : State) : (stationClash s).takes = s.takes := rfl
@[simp] theorem stationClash_store (s : State) : (stationClash s).store = s.store := rfl
@[simp] theorem stationClash_writer (s : State) : (stationClash s).writer = s.writer := rfl
@[simp] theorem stationClash_orders (s : State) : (stationClash s).orders = s.orders := rfl
@[simp] theorem stationClash_pending (s : State) : (stationClash s).pending = s.pending := rfl

/-! ### issueWrite -/

@[simp] theorem issueWrite_time (x : Content) (a : Attempt) (r : Bool) (s : State) : (issueWrite x a r s).time = s.time := rfl
@[simp] theorem issueWrite_port (x : Content) (a : Attempt) (r : Bool) (s : State) : (issueWrite x a r s).port = s.port := rfl
@[simp] theorem issueWrite_notices (x : Content) (a : Attempt) (r : Bool) (s : State) : (issueWrite x a r s).notices = s.notices := rfl
@[simp] theorem issueWrite_counter (x : Content) (a : Attempt) (r : Bool) (s : State) : (issueWrite x a r s).counter = s.counter := rfl
@[simp] theorem issueWrite_front (x : Content) (a : Attempt) (r : Bool) (s : State) : (issueWrite x a r s).front = s.front := rfl
@[simp] theorem issueWrite_mixer (x : Content) (a : Attempt) (r : Bool) (s : State) : (issueWrite x a r s).mixer = s.mixer := rfl
@[simp] theorem issueWrite_ring (x : Content) (a : Attempt) (r : Bool) (s : State) : (issueWrite x a r s).ring = s.ring := rfl
@[simp] theorem issueWrite_takes (x : Content) (a : Attempt) (r : Bool) (s : State) : (issueWrite x a r s).takes = s.takes := rfl
@[simp] theorem issueWrite_link (x : Content) (a : Attempt) (r : Bool) (s : State) : (issueWrite x a r s).link = s.link := rfl
@[simp] theorem issueWrite_store (x : Content) (a : Attempt) (r : Bool) (s : State) : (issueWrite x a r s).store = s.store := rfl
@[simp] theorem issueWrite_orders (x : Content) (a : Attempt) (r : Bool) (s : State) : (issueWrite x a r s).orders = s.orders := rfl
@[simp] theorem issueWrite_pending (x : Content) (a : Attempt) (r : Bool) (s : State) : (issueWrite x a r s).pending = s.pending := rfl

/-! ### clearFlight -/

@[simp] theorem clearFlight_time (s : State) : (clearFlight s).time = s.time := rfl
@[simp] theorem clearFlight_port (s : State) : (clearFlight s).port = s.port := rfl
@[simp] theorem clearFlight_notices (s : State) : (clearFlight s).notices = s.notices := rfl
@[simp] theorem clearFlight_counter (s : State) : (clearFlight s).counter = s.counter := rfl
@[simp] theorem clearFlight_front (s : State) : (clearFlight s).front = s.front := rfl
@[simp] theorem clearFlight_mixer (s : State) : (clearFlight s).mixer = s.mixer := rfl
@[simp] theorem clearFlight_ring (s : State) : (clearFlight s).ring = s.ring := rfl
@[simp] theorem clearFlight_takes (s : State) : (clearFlight s).takes = s.takes := rfl
@[simp] theorem clearFlight_link (s : State) : (clearFlight s).link = s.link := rfl
@[simp] theorem clearFlight_store (s : State) : (clearFlight s).store = s.store := rfl
@[simp] theorem clearFlight_orders (s : State) : (clearFlight s).orders = s.orders := rfl
@[simp] theorem clearFlight_pending (s : State) : (clearFlight s).pending = s.pending := rfl

/-! ### clearListed -/

@[simp] theorem clearListed_time (l : List Nat) (n : Nat) (s : State) : (clearListed l n s).time = s.time := rfl
@[simp] theorem clearListed_port (l : List Nat) (n : Nat) (s : State) : (clearListed l n s).port = s.port := rfl
@[simp] theorem clearListed_notices (l : List Nat) (n : Nat) (s : State) : (clearListed l n s).notices = s.notices := rfl
@[simp] theorem clearListed_counter (l : List Nat) (n : Nat) (s : State) : (clearListed l n s).counter = s.counter := rfl
@[simp] theorem clearListed_front (l : List Nat) (n : Nat) (s : State) : (clearListed l n s).front = s.front := rfl
@[simp] theorem clearListed_mixer (l : List Nat) (n : Nat) (s : State) : (clearListed l n s).mixer = s.mixer := rfl
@[simp] theorem clearListed_ring (l : List Nat) (n : Nat) (s : State) : (clearListed l n s).ring = s.ring := rfl
@[simp] theorem clearListed_takes (l : List Nat) (n : Nat) (s : State) : (clearListed l n s).takes = s.takes := rfl
@[simp] theorem clearListed_link (l : List Nat) (n : Nat) (s : State) : (clearListed l n s).link = s.link := rfl
@[simp] theorem clearListed_store (l : List Nat) (n : Nat) (s : State) : (clearListed l n s).store = s.store := rfl
@[simp] theorem clearListed_orders (l : List Nat) (n : Nat) (s : State) : (clearListed l n s).orders = s.orders := rfl
@[simp] theorem clearListed_pending (l : List Nat) (n : Nat) (s : State) : (clearListed l n s).pending = s.pending := rfl

/-! ### restartMix -/

@[simp] theorem restartMix_time (s : State) : (restartMix s).time = s.time := rfl
@[simp] theorem restartMix_port (s : State) : (restartMix s).port = s.port := rfl
@[simp] theorem restartMix_notices (s : State) : (restartMix s).notices = s.notices := rfl
@[simp] theorem restartMix_counter (s : State) : (restartMix s).counter = s.counter := rfl
@[simp] theorem restartMix_front (s : State) : (restartMix s).front = s.front := rfl
@[simp] theorem restartMix_ring (s : State) : (restartMix s).ring = s.ring := rfl
@[simp] theorem restartMix_takes (s : State) : (restartMix s).takes = s.takes := rfl
@[simp] theorem restartMix_link (s : State) : (restartMix s).link = s.link := rfl
@[simp] theorem restartMix_store (s : State) : (restartMix s).store = s.store := rfl
@[simp] theorem restartMix_writer (s : State) : (restartMix s).writer = s.writer := rfl
@[simp] theorem restartMix_orders (s : State) : (restartMix s).orders = s.orders := rfl
@[simp] theorem restartMix_pending (s : State) : (restartMix s).pending = s.pending := rfl

/-! ### restartWriter -/

@[simp] theorem restartWriter_time (s : State) : (restartWriter s).time = s.time := rfl
@[simp] theorem restartWriter_port (s : State) : (restartWriter s).port = s.port := rfl
@[simp] theorem restartWriter_notices (s : State) : (restartWriter s).notices = s.notices := rfl
@[simp] theorem restartWriter_counter (s : State) : (restartWriter s).counter = s.counter := rfl
@[simp] theorem restartWriter_front (s : State) : (restartWriter s).front = s.front := rfl
@[simp] theorem restartWriter_mixer (s : State) : (restartWriter s).mixer = s.mixer := rfl
@[simp] theorem restartWriter_ring (s : State) : (restartWriter s).ring = s.ring := rfl
@[simp] theorem restartWriter_takes (s : State) : (restartWriter s).takes = s.takes := rfl
@[simp] theorem restartWriter_link (s : State) : (restartWriter s).link = s.link := rfl
@[simp] theorem restartWriter_store (s : State) : (restartWriter s).store = s.store := rfl
@[simp] theorem restartWriter_orders (s : State) : (restartWriter s).orders = s.orders := rfl
@[simp] theorem restartWriter_pending (s : State) : (restartWriter s).pending = s.pending := rfl

/-! ### restartNotes -/

@[simp] theorem restartNotes_time (s : State) : (restartNotes s).time = s.time := rfl
@[simp] theorem restartNotes_port (s : State) : (restartNotes s).port = s.port := rfl
@[simp] theorem restartNotes_notices (s : State) : (restartNotes s).notices = s.notices := rfl
@[simp] theorem restartNotes_counter (s : State) : (restartNotes s).counter = s.counter := rfl
@[simp] theorem restartNotes_front (s : State) : (restartNotes s).front = s.front := rfl
@[simp] theorem restartNotes_mixer (s : State) : (restartNotes s).mixer = s.mixer := rfl
@[simp] theorem restartNotes_ring (s : State) : (restartNotes s).ring = s.ring := rfl
@[simp] theorem restartNotes_takes (s : State) : (restartNotes s).takes = s.takes := rfl
@[simp] theorem restartNotes_link (s : State) : (restartNotes s).link = s.link := rfl
@[simp] theorem restartNotes_writer (s : State) : (restartNotes s).writer = s.writer := rfl
@[simp] theorem restartNotes_orders (s : State) : (restartNotes s).orders = s.orders := rfl
@[simp] theorem restartNotes_pending (s : State) : (restartNotes s).pending = s.pending := rfl

/-! ### storeNote -/

@[simp] theorem storeNote_time (n : Note) (s : State) : (storeNote n s).time = s.time := rfl
@[simp] theorem storeNote_port (n : Note) (s : State) : (storeNote n s).port = s.port := rfl
@[simp] theorem storeNote_notices (n : Note) (s : State) : (storeNote n s).notices = s.notices := rfl
@[simp] theorem storeNote_counter (n : Note) (s : State) : (storeNote n s).counter = s.counter := rfl
@[simp] theorem storeNote_front (n : Note) (s : State) : (storeNote n s).front = s.front := rfl
@[simp] theorem storeNote_mixer (n : Note) (s : State) : (storeNote n s).mixer = s.mixer := rfl
@[simp] theorem storeNote_ring (n : Note) (s : State) : (storeNote n s).ring = s.ring := rfl
@[simp] theorem storeNote_takes (n : Note) (s : State) : (storeNote n s).takes = s.takes := rfl
@[simp] theorem storeNote_link (n : Note) (s : State) : (storeNote n s).link = s.link := rfl
@[simp] theorem storeNote_writer (n : Note) (s : State) : (storeNote n s).writer = s.writer := rfl
@[simp] theorem storeNote_orders (n : Note) (s : State) : (storeNote n s).orders = s.orders := rfl
@[simp] theorem storeNote_pending (n : Note) (s : State) : (storeNote n s).pending = s.pending := rfl

/-! ### afterAttempt -/

@[simp] theorem afterAttempt_time (s : State) : (afterAttempt s).time = s.time := rfl
@[simp] theorem afterAttempt_port (s : State) : (afterAttempt s).port = s.port := rfl
@[simp] theorem afterAttempt_notices (s : State) : (afterAttempt s).notices = s.notices := rfl
@[simp] theorem afterAttempt_counter (s : State) : (afterAttempt s).counter = s.counter := rfl
@[simp] theorem afterAttempt_front (s : State) : (afterAttempt s).front = s.front := rfl
@[simp] theorem afterAttempt_mixer (s : State) : (afterAttempt s).mixer = s.mixer := rfl
@[simp] theorem afterAttempt_ring (s : State) : (afterAttempt s).ring = s.ring := rfl
@[simp] theorem afterAttempt_takes (s : State) : (afterAttempt s).takes = s.takes := rfl
@[simp] theorem afterAttempt_store (s : State) : (afterAttempt s).store = s.store := rfl
@[simp] theorem afterAttempt_writer (s : State) : (afterAttempt s).writer = s.writer := rfl
@[simp] theorem afterAttempt_orders (s : State) : (afterAttempt s).orders = s.orders := rfl
@[simp] theorem afterAttempt_pending (s : State) : (afterAttempt s).pending = s.pending := rfl

end Sys2Proof.Machine
end

