-- ==== Sys2Proof/Laws/Frames.lean ====
section
/-! SUPPORT. The blocks of State that each shared operation and each command's action leaves alone: one lemma per function, a
conjunction over the blocks it does not own. Later proofs cite these and do not unfold the function. -/

namespace Sys2Proof.Machine

open Sys2Proof

@[simp] theorem raiseIf_frame (c : Bool) (k : Notice) (s : State) :
    (raiseIf c k s).time = s.time ∧ (raiseIf c k s).port = s.port ∧ (raiseIf c k s).counter = s.counter ∧
      (raiseIf c k s).front = s.front ∧ (raiseIf c k s).mixer = s.mixer ∧ (raiseIf c k s).ring = s.ring ∧
      (raiseIf c k s).takes = s.takes ∧ (raiseIf c k s).link = s.link ∧ (raiseIf c k s).store = s.store ∧
      (raiseIf c k s).writer = s.writer ∧ (raiseIf c k s).orders = s.orders ∧
      (raiseIf c k s).pending = s.pending := by
  and_intros <;> (unfold raiseIf; repeat' split) <;> simp

@[simp] theorem offerClip_frame (src : ClipSource) (o : Option Nat) (p : Nat) (s : State) :
    (offerClip src o p s).time = s.time ∧ (offerClip src o p s).port = s.port ∧ (offerClip src o p s).counter = s.counter ∧
      (offerClip src o p s).mixer = s.mixer ∧ (offerClip src o p s).ring = s.ring ∧ (offerClip src o p s).takes = s.takes ∧
      (offerClip src o p s).link = s.link ∧ (offerClip src o p s).store = s.store ∧ (offerClip src o p s).writer = s.writer ∧
      (offerClip src o p s).orders = s.orders ∧
      (offerClip src o p s).pending = s.pending := by
  and_intros <;> (unfold offerClip; repeat' split) <;> simp

@[simp] theorem modifySlot_frame (i : Fin 3) (f : Take → Take) (s : State) :
    (modifySlot i f s).time = s.time ∧ (modifySlot i f s).port = s.port ∧ (modifySlot i f s).notices = s.notices ∧
      (modifySlot i f s).counter = s.counter ∧ (modifySlot i f s).front = s.front ∧ (modifySlot i f s).mixer = s.mixer ∧
      (modifySlot i f s).ring = s.ring ∧ (modifySlot i f s).link = s.link ∧ (modifySlot i f s).store = s.store ∧
      (modifySlot i f s).writer = s.writer ∧ (modifySlot i f s).orders = s.orders ∧
      (modifySlot i f s).pending = s.pending := by
  and_intros <;> (unfold modifySlot; repeat' split) <;> simp

@[simp] theorem markOriginLost_frame (i : Fin 3) (s : State) :
    (markOriginLost i s).time = s.time ∧ (markOriginLost i s).port = s.port ∧ (markOriginLost i s).counter = s.counter ∧
      (markOriginLost i s).front = s.front ∧ (markOriginLost i s).mixer = s.mixer ∧ (markOriginLost i s).ring = s.ring ∧
      (markOriginLost i s).link = s.link ∧ (markOriginLost i s).store = s.store ∧ (markOriginLost i s).writer = s.writer ∧
      (markOriginLost i s).orders = s.orders ∧
      (markOriginLost i s).pending = s.pending := by
  and_intros <;> (unfold markOriginLost) <;> simp

@[simp] theorem convertFrame_frame (c : Vector Converted 16) (s : State) :
    (convertFrame c s).time = s.time ∧ (convertFrame c s).port = s.port ∧ (convertFrame c s).counter = s.counter ∧
      (convertFrame c s).mixer = s.mixer ∧ (convertFrame c s).ring = s.ring ∧ (convertFrame c s).takes = s.takes ∧
      (convertFrame c s).link = s.link ∧ (convertFrame c s).store = s.store ∧ (convertFrame c s).writer = s.writer ∧
      (convertFrame c s).orders = s.orders ∧
      (convertFrame c s).pending = s.pending := by
  and_intros <;> (unfold convertFrame; repeat' split) <;> simp

@[simp] theorem countBlockFrame_frame (s : State) :
    (countBlockFrame s).time = s.time ∧ (countBlockFrame s).port = s.port ∧ (countBlockFrame s).notices = s.notices ∧
      (countBlockFrame s).counter = s.counter ∧ (countBlockFrame s).front = s.front ∧ (countBlockFrame s).ring = s.ring ∧
      (countBlockFrame s).takes = s.takes ∧ (countBlockFrame s).link = s.link ∧ (countBlockFrame s).store = s.store ∧
      (countBlockFrame s).writer = s.writer ∧ (countBlockFrame s).orders = s.orders ∧
      (countBlockFrame s).pending = s.pending := by
  and_intros <;> (unfold countBlockFrame; repeat' split) <;> simp

@[simp] theorem mixClip_frame (s : State) :
    (mixClip s).time = s.time ∧ (mixClip s).port = s.port ∧ (mixClip s).counter = s.counter ∧
      (mixClip s).ring = s.ring ∧ (mixClip s).takes = s.takes ∧ (mixClip s).link = s.link ∧
      (mixClip s).store = s.store ∧ (mixClip s).writer = s.writer ∧ (mixClip s).orders = s.orders ∧
      (mixClip s).pending = s.pending := by
  and_intros <;> (unfold mixClip) <;> simp

@[simp] theorem mixFrame_frame (c : Vector Converted 16) (s : State) :
    (mixFrame c s).1.time = s.time ∧ (mixFrame c s).1.port = s.port ∧ (mixFrame c s).1.counter = s.counter ∧
      (mixFrame c s).1.ring = s.ring ∧ (mixFrame c s).1.takes = s.takes ∧ (mixFrame c s).1.link = s.link ∧
      (mixFrame c s).1.store = s.store ∧ (mixFrame c s).1.writer = s.writer ∧ (mixFrame c s).1.orders = s.orders ∧
      (mixFrame c s).1.pending = s.pending := by
  and_intros <;> (unfold mixFrame; dsimp only; repeat' split) <;> simp

@[simp] theorem stopTake_frame (i : Fin 3) (t : Take) (e : Nat) (s : State) :
    (stopTake i t e s).time = s.time ∧ (stopTake i t e s).port = s.port ∧ (stopTake i t e s).notices = s.notices ∧
      (stopTake i t e s).counter = s.counter ∧ (stopTake i t e s).front = s.front ∧ (stopTake i t e s).mixer = s.mixer ∧
      (stopTake i t e s).ring = s.ring ∧ (stopTake i t e s).link = s.link ∧ (stopTake i t e s).store = s.store ∧
      (stopTake i t e s).writer = s.writer ∧ (stopTake i t e s).orders = s.orders ∧
      (stopTake i t e s).pending = s.pending := by
  and_intros <;> (unfold stopTake; dsimp only; repeat' split) <;> simp

@[simp] theorem applyStop_frame (i : Fin 3) (e : Nat) (s : State) :
    (applyStop i e s).time = s.time ∧ (applyStop i e s).port = s.port ∧ (applyStop i e s).notices = s.notices ∧
      (applyStop i e s).counter = s.counter ∧ (applyStop i e s).front = s.front ∧ (applyStop i e s).mixer = s.mixer ∧
      (applyStop i e s).ring = s.ring ∧ (applyStop i e s).link = s.link ∧ (applyStop i e s).store = s.store ∧
      (applyStop i e s).writer = s.writer ∧ (applyStop i e s).orders = s.orders ∧
      (applyStop i e s).pending = s.pending := by
  and_intros <;> (unfold applyStop; repeat' split) <;> simp

@[simp] theorem cutPostRoll_frame (i : Fin 3) (c : Nat) (s : State) :
    (cutPostRoll i c s).time = s.time ∧ (cutPostRoll i c s).port = s.port ∧ (cutPostRoll i c s).notices = s.notices ∧
      (cutPostRoll i c s).counter = s.counter ∧ (cutPostRoll i c s).front = s.front ∧ (cutPostRoll i c s).mixer = s.mixer ∧
      (cutPostRoll i c s).ring = s.ring ∧ (cutPostRoll i c s).link = s.link ∧ (cutPostRoll i c s).store = s.store ∧
      (cutPostRoll i c s).writer = s.writer ∧ (cutPostRoll i c s).orders = s.orders ∧
      (cutPostRoll i c s).pending = s.pending := by
  and_intros <;> (unfold cutPostRoll; repeat' split) <;> simp

@[simp] theorem forcedStop_frame (s : State) :
    (forcedStop s).time = s.time ∧ (forcedStop s).port = s.port ∧ (forcedStop s).notices = s.notices ∧
      (forcedStop s).counter = s.counter ∧ (forcedStop s).front = s.front ∧ (forcedStop s).mixer = s.mixer ∧
      (forcedStop s).ring = s.ring ∧ (forcedStop s).link = s.link ∧ (forcedStop s).store = s.store ∧
      (forcedStop s).writer = s.writer ∧ (forcedStop s).orders = s.orders ∧
      (forcedStop s).pending = s.pending := by
  and_intros <;> (unfold forcedStop; repeat' split) <;> simp

@[simp] theorem startSlot_frame (v : RingView) (l : Label) (o p : Nat) (f : TakeFlags) (s : State) :
    (startSlot v l o p f s).time = s.time ∧ (startSlot v l o p f s).port = s.port ∧ (startSlot v l o p f s).counter = s.counter ∧
      (startSlot v l o p f s).front = s.front ∧ (startSlot v l o p f s).mixer = s.mixer ∧ (startSlot v l o p f s).ring = s.ring ∧
      (startSlot v l o p f s).link = s.link ∧ (startSlot v l o p f s).store = s.store ∧ (startSlot v l o p f s).writer = s.writer ∧
      (startSlot v l o p f s).orders = s.orders ∧
      (startSlot v l o p f s).pending = s.pending := by
  and_intros <;> (unfold startSlot; repeat' split) <;> simp

@[simp] theorem promote_frame (v : RingView) (s : State) :
    (promote v s).time = s.time ∧ (promote v s).port = s.port ∧ (promote v s).counter = s.counter ∧
      (promote v s).front = s.front ∧ (promote v s).mixer = s.mixer ∧ (promote v s).ring = s.ring ∧
      (promote v s).link = s.link ∧ (promote v s).store = s.store ∧ (promote v s).writer = s.writer ∧
      (promote v s).orders = s.orders ∧
      (promote v s).pending = s.pending := by
  and_intros <;> (unfold promote; repeat' split) <;> simp

@[simp] theorem startLocal_frame (v : RingView) (x : Source) (s : State) :
    (startLocal v x s).time = s.time ∧ (startLocal v x s).port = s.port ∧ (startLocal v x s).counter = s.counter ∧
      (startLocal v x s).front = s.front ∧ (startLocal v x s).mixer = s.mixer ∧ (startLocal v x s).ring = s.ring ∧
      (startLocal v x s).link = s.link ∧ (startLocal v x s).store = s.store ∧ (startLocal v x s).writer = s.writer ∧
      (startLocal v x s).orders = s.orders ∧
      (startLocal v x s).pending = s.pending := by
  and_intros <;> (unfold startLocal; repeat' split) <;> simp

@[simp] theorem localStart_frame (v : RingView) (x : Source) (s : State) :
    (localStart v x s).2.time = s.time ∧ (localStart v x s).2.port = s.port ∧ (localStart v x s).2.counter = s.counter ∧
      (localStart v x s).2.front = s.front ∧ (localStart v x s).2.mixer = s.mixer ∧ (localStart v x s).2.ring = s.ring ∧
      (localStart v x s).2.link = s.link ∧ (localStart v x s).2.store = s.store ∧ (localStart v x s).2.writer = s.writer ∧
      (localStart v x s).2.orders = s.orders ∧
      (localStart v x s).2.pending = s.pending := by
  and_intros <;> (unfold localStart; repeat' split) <;> simp

@[simp] theorem localStop_frame (s : State) :
    (localStop s).2.time = s.time ∧ (localStop s).2.port = s.port ∧ (localStop s).2.notices = s.notices ∧
      (localStop s).2.counter = s.counter ∧ (localStop s).2.front = s.front ∧ (localStop s).2.mixer = s.mixer ∧
      (localStop s).2.ring = s.ring ∧ (localStop s).2.link = s.link ∧ (localStop s).2.store = s.store ∧
      (localStop s).2.writer = s.writer ∧ (localStop s).2.orders = s.orders ∧
      (localStop s).2.pending = s.pending := by
  and_intros <;> (unfold localStop; repeat' split) <;> simp

@[simp] theorem cueRequest_frame (k : CueKind) (s : State) :
    (cueRequest k s).time = s.time ∧ (cueRequest k s).port = s.port ∧ (cueRequest k s).counter = s.counter ∧
      (cueRequest k s).front = s.front ∧ (cueRequest k s).mixer = s.mixer ∧ (cueRequest k s).ring = s.ring ∧
      (cueRequest k s).link = s.link ∧ (cueRequest k s).store = s.store ∧ (cueRequest k s).writer = s.writer ∧
      (cueRequest k s).orders = s.orders ∧
      (cueRequest k s).pending = s.pending := by
  and_intros <;> (unfold cueRequest; repeat' split) <;> simp

@[simp] theorem arriveSlot_frame (i : Fin 3) (s : State) :
    (arriveSlot i s).time = s.time ∧ (arriveSlot i s).port = s.port ∧ (arriveSlot i s).notices = s.notices ∧
      (arriveSlot i s).counter = s.counter ∧ (arriveSlot i s).front = s.front ∧ (arriveSlot i s).mixer = s.mixer ∧
      (arriveSlot i s).ring = s.ring ∧ (arriveSlot i s).link = s.link ∧ (arriveSlot i s).store = s.store ∧
      (arriveSlot i s).writer = s.writer ∧ (arriveSlot i s).orders = s.orders ∧
      (arriveSlot i s).pending = s.pending := by
  and_intros <;> (unfold arriveSlot; repeat' split) <;> simp

@[simp] theorem arrivePending_frame (s : State) :
    (arrivePending s).time = s.time ∧ (arrivePending s).port = s.port ∧ (arrivePending s).counter = s.counter ∧
      (arrivePending s).front = s.front ∧ (arrivePending s).mixer = s.mixer ∧ (arrivePending s).ring = s.ring ∧
      (arrivePending s).link = s.link ∧ (arrivePending s).store = s.store ∧ (arrivePending s).writer = s.writer ∧
      (arrivePending s).orders = s.orders ∧
      (arrivePending s).pending = s.pending := by
  and_intros <;> (unfold arrivePending; repeat' split) <;> simp

@[simp] theorem takeArrival_frame (s : State) :
    (takeArrival s).time = s.time ∧ (takeArrival s).port = s.port ∧ (takeArrival s).counter = s.counter ∧
      (takeArrival s).front = s.front ∧ (takeArrival s).mixer = s.mixer ∧ (takeArrival s).ring = s.ring ∧
      (takeArrival s).link = s.link ∧ (takeArrival s).store = s.store ∧ (takeArrival s).writer = s.writer ∧
      (takeArrival s).orders = s.orders ∧
      (takeArrival s).pending = s.pending := by
  and_intros <;> (unfold takeArrival) <;> simp

@[simp] theorem promoteAtStamp_frame (s : State) :
    (promoteAtStamp s).time = s.time ∧ (promoteAtStamp s).port = s.port ∧
      (promoteAtStamp s).counter = s.counter ∧ (promoteAtStamp s).front = s.front ∧
      (promoteAtStamp s).mixer = s.mixer ∧ (promoteAtStamp s).ring = s.ring ∧ (promoteAtStamp s).link = s.link ∧
      (promoteAtStamp s).store = s.store ∧ (promoteAtStamp s).writer = s.writer ∧
      (promoteAtStamp s).pending = s.pending := by
  and_intros <;> (unfold promoteAtStamp; repeat' split) <;> simp

@[simp] theorem reportDiscard_frame (i : Fin 3) (p : Nat) (s : State) :
    (reportDiscard i p s).time = s.time ∧ (reportDiscard i p s).port = s.port ∧ (reportDiscard i p s).notices = s.notices ∧
      (reportDiscard i p s).counter = s.counter ∧ (reportDiscard i p s).front = s.front ∧ (reportDiscard i p s).mixer = s.mixer ∧
      (reportDiscard i p s).ring = s.ring ∧ (reportDiscard i p s).link = s.link ∧ (reportDiscard i p s).store = s.store ∧
      (reportDiscard i p s).writer = s.writer ∧ (reportDiscard i p s).orders = s.orders ∧
      (reportDiscard i p s).pending = s.pending := by
  and_intros <;> (unfold reportDiscard) <;> simp

@[simp] theorem overrun_frame (p : Nat) (s : State) :
    (overrun p s).time = s.time ∧ (overrun p s).port = s.port ∧ (overrun p s).counter = s.counter ∧
      (overrun p s).front = s.front ∧ (overrun p s).mixer = s.mixer ∧ (overrun p s).link = s.link ∧
      (overrun p s).store = s.store ∧ (overrun p s).writer = s.writer ∧ (overrun p s).orders = s.orders ∧
      (overrun p s).pending = s.pending := by
  and_intros <;> (unfold overrun) <;> simp

@[simp] theorem offerFrame_frame (f : RingFrame) (s : State) :
    (offerFrame f s).time = s.time ∧ (offerFrame f s).port = s.port ∧ (offerFrame f s).counter = s.counter ∧
      (offerFrame f s).front = s.front ∧ (offerFrame f s).mixer = s.mixer ∧ (offerFrame f s).link = s.link ∧
      (offerFrame f s).store = s.store ∧ (offerFrame f s).writer = s.writer ∧ (offerFrame f s).orders = s.orders ∧
      (offerFrame f s).pending = s.pending := by
  and_intros <;> (unfold offerFrame; repeat' split) <;> simp

@[simp] theorem beginAttempt_frame (s : State) :
    (beginAttempt s).time = s.time ∧ (beginAttempt s).port = s.port ∧ (beginAttempt s).notices = s.notices ∧
      (beginAttempt s).counter = s.counter ∧ (beginAttempt s).front = s.front ∧ (beginAttempt s).mixer = s.mixer ∧
      (beginAttempt s).ring = s.ring ∧ (beginAttempt s).takes = s.takes ∧ (beginAttempt s).store = s.store ∧
      (beginAttempt s).writer = s.writer ∧ (beginAttempt s).orders = s.orders ∧
      (beginAttempt s).pending = s.pending := by
  and_intros <;> (unfold beginAttempt; repeat' split) <;> simp

@[simp] theorem kickTransmitter_frame (s : State) :
    (kickTransmitter s).time = s.time ∧ (kickTransmitter s).port = s.port ∧ (kickTransmitter s).notices = s.notices ∧
      (kickTransmitter s).counter = s.counter ∧ (kickTransmitter s).front = s.front ∧ (kickTransmitter s).mixer = s.mixer ∧
      (kickTransmitter s).ring = s.ring ∧ (kickTransmitter s).takes = s.takes ∧ (kickTransmitter s).store = s.store ∧
      (kickTransmitter s).writer = s.writer ∧ (kickTransmitter s).orders = s.orders ∧
      (kickTransmitter s).pending = s.pending := by
  and_intros <;> (unfold kickTransmitter; repeat' split) <;> simp

@[simp] theorem appendEntry_frame (f : TxFrame) (s : State) :
    (appendEntry f s).time = s.time ∧ (appendEntry f s).port = s.port ∧ (appendEntry f s).notices = s.notices ∧
      (appendEntry f s).counter = s.counter ∧ (appendEntry f s).front = s.front ∧ (appendEntry f s).mixer = s.mixer ∧
      (appendEntry f s).ring = s.ring ∧ (appendEntry f s).takes = s.takes ∧ (appendEntry f s).store = s.store ∧
      (appendEntry f s).writer = s.writer ∧ (appendEntry f s).orders = s.orders ∧
      (appendEntry f s).pending = s.pending := by
  and_intros <;> (unfold appendEntry) <;> simp

@[simp] theorem queueFrame_frame (f : TxFrame) (s : State) :
    (queueFrame f s).time = s.time ∧ (queueFrame f s).port = s.port ∧ (queueFrame f s).notices = s.notices ∧
      (queueFrame f s).counter = s.counter ∧ (queueFrame f s).front = s.front ∧ (queueFrame f s).mixer = s.mixer ∧
      (queueFrame f s).ring = s.ring ∧ (queueFrame f s).takes = s.takes ∧ (queueFrame f s).store = s.store ∧
      (queueFrame f s).writer = s.writer ∧ (queueFrame f s).orders = s.orders ∧
      (queueFrame f s).pending = s.pending := by
  and_intros <;> (unfold queueFrame; repeat' split) <;> simp

@[simp] theorem requestStatus_frame (s : State) :
    (requestStatus s).time = s.time ∧ (requestStatus s).port = s.port ∧ (requestStatus s).notices = s.notices ∧
      (requestStatus s).counter = s.counter ∧ (requestStatus s).front = s.front ∧ (requestStatus s).mixer = s.mixer ∧
      (requestStatus s).ring = s.ring ∧ (requestStatus s).takes = s.takes ∧ (requestStatus s).store = s.store ∧
      (requestStatus s).writer = s.writer ∧ (requestStatus s).orders = s.orders ∧
      (requestStatus s).pending = s.pending := by
  and_intros <;> (unfold requestStatus; repeat' split) <;> simp

@[simp] theorem leaveQueue_frame (s : State) :
    (leaveQueue s).time = s.time ∧ (leaveQueue s).port = s.port ∧ (leaveQueue s).notices = s.notices ∧
      (leaveQueue s).counter = s.counter ∧ (leaveQueue s).front = s.front ∧ (leaveQueue s).mixer = s.mixer ∧
      (leaveQueue s).ring = s.ring ∧ (leaveQueue s).takes = s.takes ∧ (leaveQueue s).store = s.store ∧
      (leaveQueue s).writer = s.writer ∧ (leaveQueue s).orders = s.orders ∧
      (leaveQueue s).pending = s.pending := by
  and_intros <;> (unfold leaveQueue; repeat' split) <;> simp

@[simp] theorem receiveByte_frame (b : Byte) (s : State) :
    (receiveByte b s).time = s.time ∧ (receiveByte b s).port = s.port ∧ (receiveByte b s).notices = s.notices ∧
      (receiveByte b s).counter = s.counter ∧ (receiveByte b s).front = s.front ∧ (receiveByte b s).mixer = s.mixer ∧
      (receiveByte b s).ring = s.ring ∧ (receiveByte b s).takes = s.takes ∧ (receiveByte b s).store = s.store ∧
      (receiveByte b s).writer = s.writer ∧ (receiveByte b s).orders = s.orders ∧
      (receiveByte b s).pending = s.pending := by
  and_intros <;> (unfold receiveByte; dsimp only; repeat' split) <;> simp

@[simp] theorem peerHeard_frame (p : Fin 8) (s : State) :
    (peerHeard p s).time = s.time ∧ (peerHeard p s).port = s.port ∧ (peerHeard p s).counter = s.counter ∧
      (peerHeard p s).front = s.front ∧ (peerHeard p s).mixer = s.mixer ∧ (peerHeard p s).ring = s.ring ∧
      (peerHeard p s).takes = s.takes ∧ (peerHeard p s).store = s.store ∧ (peerHeard p s).writer = s.writer ∧
      (peerHeard p s).orders = s.orders ∧
      (peerHeard p s).pending = s.pending := by
  and_intros <;> (unfold peerHeard) <;> simp

@[simp] theorem applyRun_frame (p : Fin 8) (r : Nat) (s : State) :
    (applyRun p r s).time = s.time ∧ (applyRun p r s).port = s.port ∧ (applyRun p r s).notices = s.notices ∧
      (applyRun p r s).counter = s.counter ∧ (applyRun p r s).front = s.front ∧ (applyRun p r s).mixer = s.mixer ∧
      (applyRun p r s).ring = s.ring ∧ (applyRun p r s).takes = s.takes ∧ (applyRun p r s).store = s.store ∧
      (applyRun p r s).writer = s.writer ∧ (applyRun p r s).orders = s.orders ∧
      (applyRun p r s).pending = s.pending := by
  and_intros <;> (unfold applyRun; dsimp only; repeat' split) <;> simp

@[simp] theorem applyStatus_frame (p : Fin 8) (f : StatusFields) (a : Nat) (s : State) :
    (applyStatus p f a s).time = s.time ∧ (applyStatus p f a s).port = s.port ∧ (applyStatus p f a s).counter = s.counter ∧
      (applyStatus p f a s).front = s.front ∧ (applyStatus p f a s).mixer = s.mixer ∧ (applyStatus p f a s).ring = s.ring ∧
      (applyStatus p f a s).takes = s.takes ∧ (applyStatus p f a s).store = s.store ∧ (applyStatus p f a s).writer = s.writer ∧
      (applyStatus p f a s).orders = s.orders ∧
      (applyStatus p f a s).pending = s.pending := by
  and_intros <;> (unfold applyStatus) <;> simp

@[simp] theorem tryAttach_frame (n : Note) (s : State) :
    (tryAttach n s).time = s.time ∧ (tryAttach n s).port = s.port ∧ (tryAttach n s).notices = s.notices ∧
      (tryAttach n s).counter = s.counter ∧ (tryAttach n s).front = s.front ∧ (tryAttach n s).mixer = s.mixer ∧
      (tryAttach n s).ring = s.ring ∧ (tryAttach n s).link = s.link ∧ (tryAttach n s).store = s.store ∧
      (tryAttach n s).writer = s.writer ∧ (tryAttach n s).orders = s.orders ∧
      (tryAttach n s).pending = s.pending := by
  and_intros <;> (unfold tryAttach; repeat' split) <;> simp

@[simp] theorem setHeard_frame (p : Fin 8) (u : Nat) (s : State) :
    (setHeard p u s).time = s.time ∧ (setHeard p u s).port = s.port ∧ (setHeard p u s).notices = s.notices ∧
      (setHeard p u s).counter = s.counter ∧ (setHeard p u s).front = s.front ∧ (setHeard p u s).mixer = s.mixer ∧
      (setHeard p u s).ring = s.ring ∧ (setHeard p u s).takes = s.takes ∧ (setHeard p u s).store = s.store ∧
      (setHeard p u s).writer = s.writer ∧ (setHeard p u s).orders = s.orders ∧
      (setHeard p u s).pending = s.pending := by
  and_intros <;> (unfold setHeard; dsimp only; repeat' split) <;> simp

@[simp] theorem rejectNote_frame (p : Fin 8) (q : Nat) (s : State) :
    (rejectNote p q s).time = s.time ∧ (rejectNote p q s).port = s.port ∧ (rejectNote p q s).counter = s.counter ∧
      (rejectNote p q s).front = s.front ∧ (rejectNote p q s).mixer = s.mixer ∧ (rejectNote p q s).ring = s.ring ∧
      (rejectNote p q s).takes = s.takes ∧ (rejectNote p q s).writer = s.writer ∧ (rejectNote p q s).orders = s.orders ∧
      (rejectNote p q s).pending = s.pending := by
  and_intros <;> (unfold rejectNote; dsimp only; repeat' split) <;> simp

@[simp] theorem acceptNote_frame (p : Fin 8) (n : Note) (s : State) :
    (acceptNote p n s).time = s.time ∧ (acceptNote p n s).port = s.port ∧ (acceptNote p n s).counter = s.counter ∧
      (acceptNote p n s).front = s.front ∧ (acceptNote p n s).mixer = s.mixer ∧ (acceptNote p n s).ring = s.ring ∧
      (acceptNote p n s).writer = s.writer ∧ (acceptNote p n s).orders = s.orders ∧
      (acceptNote p n s).pending = s.pending := by
  and_intros <;> (unfold acceptNote; dsimp only; repeat' split) <;> simp

@[simp] theorem takePeerNote_frame (p : Fin 8) (l : List Byte) (s : State) :
    (takePeerNote p l s).time = s.time ∧ (takePeerNote p l s).port = s.port ∧ (takePeerNote p l s).counter = s.counter ∧
      (takePeerNote p l s).front = s.front ∧ (takePeerNote p l s).mixer = s.mixer ∧ (takePeerNote p l s).ring = s.ring ∧
      (takePeerNote p l s).writer = s.writer ∧ (takePeerNote p l s).orders = s.orders ∧
      (takePeerNote p l s).pending = s.pending := by
  and_intros <;> (unfold takePeerNote; dsimp only; repeat' split) <;> simp

@[simp] theorem testCatchUp_frame (p : Fin 8) (h : Nat) (s : State) :
    (testCatchUp p h s).time = s.time ∧ (testCatchUp p h s).port = s.port ∧ (testCatchUp p h s).notices = s.notices ∧
      (testCatchUp p h s).counter = s.counter ∧ (testCatchUp p h s).front = s.front ∧ (testCatchUp p h s).mixer = s.mixer ∧
      (testCatchUp p h s).ring = s.ring ∧ (testCatchUp p h s).takes = s.takes ∧ (testCatchUp p h s).store = s.store ∧
      (testCatchUp p h s).writer = s.writer ∧ (testCatchUp p h s).orders = s.orders ∧
      (testCatchUp p h s).pending = s.pending := by
  and_intros <;> (unfold testCatchUp; dsimp only; repeat' split) <;> simp

@[simp] theorem answerRequest_frame (r f : Nat) (s : State) :
    (answerRequest r f s).time = s.time ∧ (answerRequest r f s).port = s.port ∧ (answerRequest r f s).notices = s.notices ∧
      (answerRequest r f s).counter = s.counter ∧ (answerRequest r f s).front = s.front ∧ (answerRequest r f s).mixer = s.mixer ∧
      (answerRequest r f s).ring = s.ring ∧ (answerRequest r f s).takes = s.takes ∧ (answerRequest r f s).store = s.store ∧
      (answerRequest r f s).writer = s.writer ∧ (answerRequest r f s).orders = s.orders ∧
      (answerRequest r f s).pending = s.pending := by
  unfold answerRequest
  have fold (l : List Note) (u : State) : ∀ w, w = l.foldl (fun st n => queueFrame (.note n) st) u →
      w.time = u.time ∧ w.port = u.port ∧ w.notices = u.notices ∧ w.counter = u.counter ∧ w.front = u.front ∧
        w.mixer = u.mixer ∧ w.ring = u.ring ∧ w.takes = u.takes ∧ w.store = u.store ∧ w.writer = u.writer ∧
        w.orders = u.orders ∧ w.pending = u.pending := by
    induction l generalizing u with
    | nil => rintro w rfl; simp
    | cons x l ih => rintro w rfl; simp [ih _ _ rfl]
  split_ifs
  · simp
  · exact fold _ _ _ rfl
  · simp

@[simp] theorem takeRequest_frame (l : List Byte) (s : State) :
    (takeRequest l s).time = s.time ∧ (takeRequest l s).port = s.port ∧ (takeRequest l s).notices = s.notices ∧
      (takeRequest l s).counter = s.counter ∧ (takeRequest l s).front = s.front ∧ (takeRequest l s).mixer = s.mixer ∧
      (takeRequest l s).ring = s.ring ∧ (takeRequest l s).takes = s.takes ∧ (takeRequest l s).store = s.store ∧
      (takeRequest l s).writer = s.writer ∧ (takeRequest l s).orders = s.orders ∧
      (takeRequest l s).pending = s.pending := by
  and_intros <;> (unfold takeRequest; repeat' split) <;> simp

@[simp] theorem takeGone_frame (p : Fin 8) (l : List Byte) (s : State) :
    (takeGone p l s).time = s.time ∧ (takeGone p l s).port = s.port ∧ (takeGone p l s).counter = s.counter ∧
      (takeGone p l s).front = s.front ∧ (takeGone p l s).mixer = s.mixer ∧ (takeGone p l s).ring = s.ring ∧
      (takeGone p l s).takes = s.takes ∧ (takeGone p l s).writer = s.writer ∧ (takeGone p l s).orders = s.orders ∧
      (takeGone p l s).pending = s.pending := by
  and_intros <;> (unfold takeGone; dsimp only; repeat' split) <;> simp

@[simp] theorem setSpace_frame (s : State) :
    (setSpace s).time = s.time ∧ (setSpace s).port = s.port ∧ (setSpace s).counter = s.counter ∧
      (setSpace s).front = s.front ∧ (setSpace s).mixer = s.mixer ∧ (setSpace s).ring = s.ring ∧
      (setSpace s).link = s.link ∧ (setSpace s).store = s.store ∧ (setSpace s).orders = s.orders ∧
      (setSpace s).pending = s.pending := by
  and_intros <;> (unfold setSpace; dsimp only; repeat' split) <;> simp

@[simp] theorem advanceCursor_frame (s : State) :
    (advanceCursor s).time = s.time ∧ (advanceCursor s).port = s.port ∧ (advanceCursor s).counter = s.counter ∧
      (advanceCursor s).front = s.front ∧ (advanceCursor s).mixer = s.mixer ∧ (advanceCursor s).ring = s.ring ∧
      (advanceCursor s).link = s.link ∧ (advanceCursor s).store = s.store ∧ (advanceCursor s).orders = s.orders ∧
      (advanceCursor s).pending = s.pending := by
  and_intros <;> (unfold advanceCursor) <;> simp

@[simp] theorem accountSlot_frame (i : Fin 3) (n : Nat) (s : State) :
    (accountSlot i n s).time = s.time ∧ (accountSlot i n s).port = s.port ∧ (accountSlot i n s).notices = s.notices ∧
      (accountSlot i n s).counter = s.counter ∧ (accountSlot i n s).front = s.front ∧ (accountSlot i n s).mixer = s.mixer ∧
      (accountSlot i n s).ring = s.ring ∧ (accountSlot i n s).link = s.link ∧ (accountSlot i n s).store = s.store ∧
      (accountSlot i n s).writer = s.writer ∧ (accountSlot i n s).orders = s.orders ∧
      (accountSlot i n s).pending = s.pending := by
  induction n generalizing s with
  | zero => simp [accountSlot]
  | succ n ih =>
    unfold accountSlot
    split <;> simp [ih]

@[simp] theorem accountAll_frame (s : State) :
    (accountAll s).time = s.time ∧ (accountAll s).port = s.port ∧ (accountAll s).notices = s.notices ∧
      (accountAll s).counter = s.counter ∧ (accountAll s).front = s.front ∧ (accountAll s).mixer = s.mixer ∧
      (accountAll s).ring = s.ring ∧ (accountAll s).link = s.link ∧ (accountAll s).store = s.store ∧
      (accountAll s).writer = s.writer ∧ (accountAll s).orders = s.orders ∧
      (accountAll s).pending = s.pending := by
  and_intros <;> (unfold accountAll) <;> simp

@[simp] theorem dropHeldAudio_frame (s : State) :
    (dropHeldAudio s).time = s.time ∧ (dropHeldAudio s).port = s.port ∧ (dropHeldAudio s).notices = s.notices ∧
      (dropHeldAudio s).counter = s.counter ∧ (dropHeldAudio s).front = s.front ∧ (dropHeldAudio s).mixer = s.mixer ∧
      (dropHeldAudio s).ring = s.ring ∧ (dropHeldAudio s).takes = s.takes ∧ (dropHeldAudio s).link = s.link ∧
      (dropHeldAudio s).store = s.store ∧ (dropHeldAudio s).orders = s.orders ∧
      (dropHeldAudio s).pending = s.pending := by
  and_intros <;> (unfold dropHeldAudio; repeat' split) <;> simp

@[simp] theorem issueRequest_frame (r : Request) (s : State) :
    (issueRequest r s).time = s.time ∧ (issueRequest r s).port = s.port ∧ (issueRequest r s).notices = s.notices ∧
      (issueRequest r s).counter = s.counter ∧ (issueRequest r s).front = s.front ∧ (issueRequest r s).mixer = s.mixer ∧
      (issueRequest r s).ring = s.ring ∧ (issueRequest r s).link = s.link ∧ (issueRequest r s).orders = s.orders ∧
      (issueRequest r s).pending = s.pending := by
  and_intros <;> (unfold issueRequest; repeat' split) <;> simp

@[simp] theorem makeDecision_frame (s : State) :
    (makeDecision s).time = s.time ∧ (makeDecision s).port = s.port ∧ (makeDecision s).notices = s.notices ∧
      (makeDecision s).counter = s.counter ∧ (makeDecision s).front = s.front ∧ (makeDecision s).mixer = s.mixer ∧
      (makeDecision s).ring = s.ring ∧ (makeDecision s).link = s.link ∧ (makeDecision s).orders = s.orders ∧
      (makeDecision s).pending = s.pending := by
  and_intros <;> (unfold makeDecision; repeat' split) <;> simp

@[simp] theorem settle_frame (s : State) :
    (settle s).time = s.time ∧ (settle s).port = s.port ∧ (settle s).notices = s.notices ∧
      (settle s).counter = s.counter ∧ (settle s).front = s.front ∧ (settle s).mixer = s.mixer ∧
      (settle s).ring = s.ring ∧ (settle s).link = s.link ∧ (settle s).store = s.store ∧
      (settle s).orders = s.orders ∧ (settle s).pending = s.pending := by
  and_intros <;> (unfold settle; split) <;> simp

@[simp] theorem announceChange_frame (b s : State) :
    (announceChange b s).time = s.time ∧ (announceChange b s).port = s.port ∧ (announceChange b s).notices = s.notices ∧
      (announceChange b s).counter = s.counter ∧ (announceChange b s).front = s.front ∧ (announceChange b s).mixer = s.mixer ∧
      (announceChange b s).ring = s.ring ∧ (announceChange b s).takes = s.takes ∧ (announceChange b s).store = s.store ∧
      (announceChange b s).writer = s.writer ∧ (announceChange b s).orders = s.orders ∧
      (announceChange b s).pending = s.pending := by
  and_intros <;> (unfold announceChange; repeat' split) <;> simp

@[simp] theorem finish_frame (b s : State) :
    (finish b s).time = s.time ∧ (finish b s).port = s.port ∧ (finish b s).notices = s.notices ∧
      (finish b s).counter = s.counter ∧ (finish b s).front = s.front ∧ (finish b s).mixer = s.mixer ∧
      (finish b s).ring = s.ring ∧ (finish b s).orders = s.orders ∧
      (finish b s).pending = s.pending := by
  and_intros <;> (unfold finish) <;> simp

@[simp] theorem reissue_frame (x : Content) (s : State) :
    (reissue x s).time = s.time ∧ (reissue x s).port = s.port ∧ (reissue x s).notices = s.notices ∧
      (reissue x s).counter = s.counter ∧ (reissue x s).front = s.front ∧ (reissue x s).mixer = s.mixer ∧
      (reissue x s).ring = s.ring ∧ (reissue x s).takes = s.takes ∧ (reissue x s).link = s.link ∧
      (reissue x s).store = s.store ∧ (reissue x s).orders = s.orders ∧
      (reissue x s).pending = s.pending := by
  and_intros <;> (unfold reissue; repeat' split) <;> simp

@[simp] theorem listFailure_frame (a : Nat) (s : State) :
    (listFailure a s).time = s.time ∧ (listFailure a s).port = s.port ∧ (listFailure a s).notices = s.notices ∧
      (listFailure a s).counter = s.counter ∧ (listFailure a s).front = s.front ∧ (listFailure a s).mixer = s.mixer ∧
      (listFailure a s).ring = s.ring ∧ (listFailure a s).takes = s.takes ∧ (listFailure a s).link = s.link ∧
      (listFailure a s).store = s.store ∧ (listFailure a s).orders = s.orders ∧
      (listFailure a s).pending = s.pending := by
  and_intros <;> (unfold listFailure; repeat' split) <;> simp

@[simp] theorem contentWritten_frame (a : Nat) (x : Content) (s : State) :
    (contentWritten a x s).time = s.time ∧ (contentWritten a x s).port = s.port ∧ (contentWritten a x s).counter = s.counter ∧
      (contentWritten a x s).front = s.front ∧ (contentWritten a x s).mixer = s.mixer ∧ (contentWritten a x s).ring = s.ring ∧
      (contentWritten a x s).link = s.link ∧ (contentWritten a x s).orders = s.orders ∧
      (contentWritten a x s).pending = s.pending := by
  and_intros <;> (unfold contentWritten; repeat' split) <;> simp

@[simp] theorem retrySucceeded_frame (s : State) :
    (retrySucceeded s).time = s.time ∧ (retrySucceeded s).port = s.port ∧ (retrySucceeded s).notices = s.notices ∧
      (retrySucceeded s).counter = s.counter ∧ (retrySucceeded s).front = s.front ∧ (retrySucceeded s).mixer = s.mixer ∧
      (retrySucceeded s).ring = s.ring ∧ (retrySucceeded s).takes = s.takes ∧ (retrySucceeded s).link = s.link ∧
      (retrySucceeded s).store = s.store ∧ (retrySucceeded s).orders = s.orders ∧
      (retrySucceeded s).pending = s.pending := by
  and_intros <;> (unfold retrySucceeded; dsimp only; repeat' split) <;> simp

@[simp] theorem completeOk_frame (w : Write) (s : State) :
    (completeOk w s).time = s.time ∧ (completeOk w s).port = s.port ∧ (completeOk w s).counter = s.counter ∧
      (completeOk w s).front = s.front ∧ (completeOk w s).mixer = s.mixer ∧ (completeOk w s).ring = s.ring ∧
      (completeOk w s).link = s.link ∧ (completeOk w s).orders = s.orders ∧
      (completeOk w s).pending = s.pending := by
  and_intros <;> (unfold completeOk; repeat' split) <;> simp

@[simp] theorem failedOutcome_frame (w : Write) (s : State) :
    (failedOutcome w s).time = s.time ∧ (failedOutcome w s).port = s.port ∧ (failedOutcome w s).counter = s.counter ∧
      (failedOutcome w s).front = s.front ∧ (failedOutcome w s).mixer = s.mixer ∧ (failedOutcome w s).ring = s.ring ∧
      (failedOutcome w s).takes = s.takes ∧ (failedOutcome w s).link = s.link ∧ (failedOutcome w s).store = s.store ∧
      (failedOutcome w s).orders = s.orders ∧
      (failedOutcome w s).pending = s.pending := by
  and_intros <;> (unfold failedOutcome; repeat' split) <;> simp

@[simp] theorem completeFailed_frame (w : Write) (s : State) :
    (completeFailed w s).time = s.time ∧ (completeFailed w s).port = s.port ∧ (completeFailed w s).counter = s.counter ∧
      (completeFailed w s).front = s.front ∧ (completeFailed w s).mixer = s.mixer ∧ (completeFailed w s).ring = s.ring ∧
      (completeFailed w s).link = s.link ∧ (completeFailed w s).store = s.store ∧ (completeFailed w s).orders = s.orders ∧
      (completeFailed w s).pending = s.pending := by
  and_intros <;> (unfold completeFailed; repeat' split) <;> simp

@[simp] theorem pendAnnounced_frame (x : Identity) (r : Bool) (s : State) :
    (pendAnnounced x r s).time = s.time ∧ (pendAnnounced x r s).port = s.port ∧ (pendAnnounced x r s).counter = s.counter ∧
      (pendAnnounced x r s).front = s.front ∧ (pendAnnounced x r s).mixer = s.mixer ∧ (pendAnnounced x r s).ring = s.ring ∧
      (pendAnnounced x r s).link = s.link ∧ (pendAnnounced x r s).store = s.store ∧ (pendAnnounced x r s).writer = s.writer ∧
      (pendAnnounced x r s).orders = s.orders ∧
      (pendAnnounced x r s).pending = s.pending := by
  and_intros <;> (unfold pendAnnounced) <;> simp

@[simp] theorem followRolling_frame (x : Identity) (s : State) :
    (followRolling x s).time = s.time ∧ (followRolling x s).port = s.port ∧ (followRolling x s).counter = s.counter ∧
      (followRolling x s).front = s.front ∧ (followRolling x s).mixer = s.mixer ∧ (followRolling x s).ring = s.ring ∧
      (followRolling x s).link = s.link ∧ (followRolling x s).store = s.store ∧ (followRolling x s).writer = s.writer ∧
      (followRolling x s).orders = s.orders ∧
      (followRolling x s).pending = s.pending := by
  and_intros <;> (unfold followRolling; repeat' split) <;> simp

@[simp] theorem lateJoin_frame (x : Identity) (e : Nat) (s : State) :
    (lateJoin x e s).time = s.time ∧ (lateJoin x e s).port = s.port ∧ (lateJoin x e s).counter = s.counter ∧
      (lateJoin x e s).front = s.front ∧ (lateJoin x e s).mixer = s.mixer ∧ (lateJoin x e s).ring = s.ring ∧
      (lateJoin x e s).link = s.link ∧ (lateJoin x e s).store = s.store ∧ (lateJoin x e s).writer = s.writer ∧
      (lateJoin x e s).orders = s.orders ∧
      (lateJoin x e s).pending = s.pending := by
  and_intros <;> (unfold lateJoin; repeat' split) <;> simp

@[simp] theorem followIdle_frame (p : Fin 8) (a : Announced) (s : State) :
    (followIdle p a s).time = s.time ∧ (followIdle p a s).port = s.port ∧ (followIdle p a s).counter = s.counter ∧
      (followIdle p a s).front = s.front ∧ (followIdle p a s).mixer = s.mixer ∧ (followIdle p a s).ring = s.ring ∧
      (followIdle p a s).link = s.link ∧ (followIdle p a s).store = s.store ∧ (followIdle p a s).writer = s.writer ∧
      (followIdle p a s).orders = s.orders ∧
      (followIdle p a s).pending = s.pending := by
  and_intros <;> (unfold followIdle; repeat' split) <;> simp

@[simp] theorem sameTake_frame (p : Fin 8) (a : Announced) (i : Fin 3) (s : State) :
    (sameTake p a i s).time = s.time ∧ (sameTake p a i s).port = s.port ∧ (sameTake p a i s).notices = s.notices ∧
      (sameTake p a i s).counter = s.counter ∧ (sameTake p a i s).front = s.front ∧ (sameTake p a i s).mixer = s.mixer ∧
      (sameTake p a i s).ring = s.ring ∧ (sameTake p a i s).link = s.link ∧ (sameTake p a i s).store = s.store ∧
      (sameTake p a i s).writer = s.writer ∧ (sameTake p a i s).orders = s.orders ∧
      (sameTake p a i s).pending = s.pending := by
  and_intros <;> (unfold sameTake; repeat' split) <;> simp

@[simp] theorem mergeInto_frame (x : Identity) (i : Fin 3) (t : Take) (s : State) :
    (mergeInto x i t s).time = s.time ∧ (mergeInto x i t s).port = s.port ∧ (mergeInto x i t s).counter = s.counter ∧
      (mergeInto x i t s).front = s.front ∧ (mergeInto x i t s).mixer = s.mixer ∧ (mergeInto x i t s).ring = s.ring ∧
      (mergeInto x i t s).link = s.link ∧ (mergeInto x i t s).store = s.store ∧ (mergeInto x i t s).writer = s.writer ∧
      (mergeInto x i t s).orders = s.orders ∧
      (mergeInto x i t s).pending = s.pending := by
  and_intros <;> (unfold mergeInto; repeat' split) <;> simp

@[simp] theorem newTake_frame (p : Fin 8) (a : Announced) (i : Fin 3) (s : State) :
    (newTake p a i s).time = s.time ∧ (newTake p a i s).port = s.port ∧ (newTake p a i s).counter = s.counter ∧
      (newTake p a i s).front = s.front ∧ (newTake p a i s).mixer = s.mixer ∧ (newTake p a i s).ring = s.ring ∧
      (newTake p a i s).link = s.link ∧ (newTake p a i s).store = s.store ∧ (newTake p a i s).writer = s.writer ∧
      (newTake p a i s).orders = s.orders ∧
      (newTake p a i s).pending = s.pending := by
  and_intros <;> (unfold newTake) <;> simp

@[simp] theorem meetPending_frame (a : Announced) (q : PendingStart) (s : State) :
    (meetPending a q s).time = s.time ∧ (meetPending a q s).port = s.port ∧ (meetPending a q s).counter = s.counter ∧
      (meetPending a q s).front = s.front ∧ (meetPending a q s).mixer = s.mixer ∧ (meetPending a q s).ring = s.ring ∧
      (meetPending a q s).link = s.link ∧ (meetPending a q s).store = s.store ∧ (meetPending a q s).writer = s.writer ∧
      (meetPending a q s).orders = s.orders ∧
      (meetPending a q s).pending = s.pending := by
  and_intros <;> (unfold meetPending; repeat' split) <;> simp

@[simp] theorem meetAnnouncement_frame (p : Fin 8) (a : Announced) (s : State) :
    (meetAnnouncement p a s).time = s.time ∧ (meetAnnouncement p a s).port = s.port ∧ (meetAnnouncement p a s).counter = s.counter ∧
      (meetAnnouncement p a s).front = s.front ∧ (meetAnnouncement p a s).mixer = s.mixer ∧ (meetAnnouncement p a s).ring = s.ring ∧
      (meetAnnouncement p a s).link = s.link ∧ (meetAnnouncement p a s).store = s.store ∧ (meetAnnouncement p a s).writer = s.writer ∧
      (meetAnnouncement p a s).orders = s.orders ∧
      (meetAnnouncement p a s).pending = s.pending := by
  and_intros <;> (unfold meetAnnouncement; repeat' split) <;> simp

@[simp] theorem depart_frame (i : Fin 3) (s : State) :
    (depart i s).time = s.time ∧ (depart i s).port = s.port ∧ (depart i s).notices = s.notices ∧
      (depart i s).counter = s.counter ∧ (depart i s).front = s.front ∧ (depart i s).mixer = s.mixer ∧
      (depart i s).ring = s.ring ∧ (depart i s).link = s.link ∧ (depart i s).store = s.store ∧
      (depart i s).writer = s.writer ∧ (depart i s).orders = s.orders ∧
      (depart i s).pending = s.pending := by
  and_intros <;> (unfold depart) <;> simp

@[simp] theorem afterDeparture_frame (p : Fin 8) (a : Announced) (i : Fin 3) (s : State) :
    (afterDeparture p a i s).time = s.time ∧ (afterDeparture p a i s).port = s.port ∧ (afterDeparture p a i s).counter = s.counter ∧
      (afterDeparture p a i s).front = s.front ∧ (afterDeparture p a i s).mixer = s.mixer ∧ (afterDeparture p a i s).ring = s.ring ∧
      (afterDeparture p a i s).link = s.link ∧ (afterDeparture p a i s).store = s.store ∧ (afterDeparture p a i s).writer = s.writer ∧
      (afterDeparture p a i s).orders = s.orders ∧
      (afterDeparture p a i s).pending = s.pending := by
  and_intros <;> (unfold afterDeparture; repeat' split) <;> simp

@[simp] theorem takeAnnouncement_frame (p : Fin 8) (f : StatusFields) (s : State) :
    (takeAnnouncement p f s).time = s.time ∧ (takeAnnouncement p f s).port = s.port ∧ (takeAnnouncement p f s).counter = s.counter ∧
      (takeAnnouncement p f s).front = s.front ∧ (takeAnnouncement p f s).mixer = s.mixer ∧ (takeAnnouncement p f s).ring = s.ring ∧
      (takeAnnouncement p f s).link = s.link ∧ (takeAnnouncement p f s).store = s.store ∧ (takeAnnouncement p f s).writer = s.writer ∧
      (takeAnnouncement p f s).orders = s.orders ∧
      (takeAnnouncement p f s).pending = s.pending := by
  and_intros <;> (unfold takeAnnouncement; repeat' split) <;> simp

@[simp] theorem takeStatus_frame (p : Fin 8) (l : List Byte) (a : Nat) (s : State) :
    (takeStatus p l a s).time = s.time ∧ (takeStatus p l a s).port = s.port ∧ (takeStatus p l a s).counter = s.counter ∧
      (takeStatus p l a s).front = s.front ∧ (takeStatus p l a s).mixer = s.mixer ∧ (takeStatus p l a s).ring = s.ring ∧
      (takeStatus p l a s).store = s.store ∧ (takeStatus p l a s).writer = s.writer ∧ (takeStatus p l a s).orders = s.orders ∧
      (takeStatus p l a s).pending = s.pending := by
  and_intros <;> (unfold takeStatus; dsimp only; repeat' split) <;> simp

@[simp] theorem takeNote_frame (p : Fin 8) (l : List Byte) (s : State) :
    (takeNote p l s).time = s.time ∧ (takeNote p l s).port = s.port ∧ (takeNote p l s).counter = s.counter ∧
      (takeNote p l s).front = s.front ∧ (takeNote p l s).mixer = s.mixer ∧ (takeNote p l s).ring = s.ring ∧
      (takeNote p l s).writer = s.writer ∧ (takeNote p l s).orders = s.orders ∧
      (takeNote p l s).pending = s.pending := by
  and_intros <;> (unfold takeNote) <;> simp

@[simp] theorem handOn_frame (k : Byte) (p : Fin 8) (l : List Byte) (a : Nat) (s : State) :
    (handOn k p l a s).time = s.time ∧ (handOn k p l a s).port = s.port ∧ (handOn k p l a s).counter = s.counter ∧
      (handOn k p l a s).front = s.front ∧ (handOn k p l a s).mixer = s.mixer ∧ (handOn k p l a s).ring = s.ring ∧
      (handOn k p l a s).writer = s.writer ∧ (handOn k p l a s).orders = s.orders ∧
      (handOn k p l a s).pending = s.pending := by
  and_intros <;> (unfold handOn; repeat' split) <;> simp

@[simp] theorem processFrame_frame (k : Byte) (f : HeardFrame) (a : Nat) (s : State) :
    (processFrame k f a s).time = s.time ∧ (processFrame k f a s).port = s.port ∧ (processFrame k f a s).counter = s.counter ∧
      (processFrame k f a s).front = s.front ∧ (processFrame k f a s).mixer = s.mixer ∧ (processFrame k f a s).ring = s.ring ∧
      (processFrame k f a s).writer = s.writer ∧ (processFrame k f a s).orders = s.orders ∧
      (processFrame k f a s).pending = s.pending := by
  and_intros <;> (unfold processFrame; repeat' split) <;> simp

@[simp] theorem stampFrame_frame (s : State) :
    (stampFrame s).time = s.time ∧ (stampFrame s).port = s.port ∧ (stampFrame s).front = s.front ∧
      (stampFrame s).mixer = s.mixer ∧ (stampFrame s).ring = s.ring ∧ (stampFrame s).takes = s.takes ∧
      (stampFrame s).link = s.link ∧ (stampFrame s).store = s.store ∧ (stampFrame s).writer = s.writer ∧
      (stampFrame s).orders = s.orders ∧
      (stampFrame s).pending = s.pending := by
  and_intros <;> (unfold stampFrame) <;> simp

@[simp] theorem fireCue_frame (s : State) :
    (fireCue s).time = s.time ∧ (fireCue s).port = s.port ∧ (fireCue s).front = s.front ∧
      (fireCue s).mixer = s.mixer ∧ (fireCue s).ring = s.ring ∧ (fireCue s).link = s.link ∧
      (fireCue s).store = s.store ∧ (fireCue s).writer = s.writer ∧ (fireCue s).orders = s.orders ∧
      (fireCue s).pending = s.pending := by
  and_intros <;> (unfold fireCue; repeat' split) <;> simp

@[simp] theorem runFrame_frame (f : FrameIn) (s : State) :
    (runFrame f s).time = s.time ∧ (runFrame f s).port = s.port ∧ (runFrame f s).link = s.link ∧
      (runFrame f s).store = s.store ∧ (runFrame f s).writer = s.writer ∧ (runFrame f s).pending = s.pending := by
  and_intros <;> (unfold runFrame; dsimp only) <;> simp

@[simp] theorem arriveFrame_frame (f : FrameIn) (s : State) :
    (arriveFrame f s).time = s.time ∧ (arriveFrame f s).port = s.port ∧ (arriveFrame f s).pending = s.pending := by
  and_intros <;> (unfold arriveFrame; repeat' split) <;> simp

@[simp] theorem referencePulse_frame (s : State) :
    (referencePulse s).time = s.time ∧ (referencePulse s).port = s.port ∧ (referencePulse s).front = s.front ∧
      (referencePulse s).mixer = s.mixer ∧ (referencePulse s).ring = s.ring ∧ (referencePulse s).takes = s.takes ∧
      (referencePulse s).link = s.link ∧ (referencePulse s).store = s.store ∧ (referencePulse s).writer = s.writer ∧
      (referencePulse s).orders = s.orders ∧
      (referencePulse s).pending = s.pending := by
  and_intros <;> (unfold referencePulse; dsimp only; repeat' split) <;> simp

@[simp] theorem successfulCompletion_frame (s : State) :
    (successfulCompletion s).time = s.time ∧ (successfulCompletion s).port = s.port ∧ (successfulCompletion s).counter = s.counter ∧
      (successfulCompletion s).front = s.front ∧ (successfulCompletion s).mixer = s.mixer ∧ (successfulCompletion s).ring = s.ring ∧
      (successfulCompletion s).orders = s.orders ∧
      (successfulCompletion s).pending = s.pending := by
  and_intros <;> (unfold successfulCompletion; repeat' split) <;> simp

@[simp] theorem failedCompletion_frame (s : State) :
    (failedCompletion s).time = s.time ∧ (failedCompletion s).port = s.port ∧ (failedCompletion s).counter = s.counter ∧
      (failedCompletion s).front = s.front ∧ (failedCompletion s).mixer = s.mixer ∧ (failedCompletion s).ring = s.ring ∧
      (failedCompletion s).orders = s.orders ∧
      (failedCompletion s).pending = s.pending := by
  and_intros <;> (unfold failedCompletion; repeat' split) <;> simp

@[simp] theorem successfulSend_frame (s : State) :
    (successfulSend s).port = s.port ∧ (successfulSend s).notices = s.notices ∧ (successfulSend s).counter = s.counter ∧
      (successfulSend s).front = s.front ∧ (successfulSend s).mixer = s.mixer ∧ (successfulSend s).ring = s.ring ∧
      (successfulSend s).takes = s.takes ∧ (successfulSend s).store = s.store ∧ (successfulSend s).writer = s.writer ∧
      (successfulSend s).orders = s.orders ∧
      (successfulSend s).pending = s.pending := by
  and_intros <;> (unfold successfulSend; repeat' split) <;> simp

@[simp] theorem collideHead_frame (s : State) :
    (collideHead s).time = s.time ∧ (collideHead s).port = s.port ∧ (collideHead s).notices = s.notices ∧
      (collideHead s).counter = s.counter ∧ (collideHead s).front = s.front ∧ (collideHead s).mixer = s.mixer ∧
      (collideHead s).ring = s.ring ∧ (collideHead s).takes = s.takes ∧ (collideHead s).store = s.store ∧
      (collideHead s).writer = s.writer ∧ (collideHead s).orders = s.orders ∧
      (collideHead s).pending = s.pending := by
  and_intros <;> (unfold collideHead; repeat' split) <;> simp

@[simp] theorem endByCollision_frame (n : Nat) (s : State) :
    (endByCollision n s).port = s.port ∧ (endByCollision n s).notices = s.notices ∧
      (endByCollision n s).counter = s.counter ∧ (endByCollision n s).front = s.front ∧
      (endByCollision n s).mixer = s.mixer ∧ (endByCollision n s).ring = s.ring ∧
      (endByCollision n s).takes = s.takes ∧ (endByCollision n s).store = s.store ∧
      (endByCollision n s).writer = s.writer ∧ (endByCollision n s).orders = s.orders ∧
      (endByCollision n s).pending = s.pending := by
  and_intros <;> (unfold endByCollision; dsimp only) <;> simp

@[simp] theorem hearByte_frame (b : Byte) (s : State) :
    (hearByte b s).time = s.time ∧ (hearByte b s).port = s.port ∧ (hearByte b s).notices = s.notices ∧
      (hearByte b s).counter = s.counter ∧ (hearByte b s).front = s.front ∧ (hearByte b s).mixer = s.mixer ∧
      (hearByte b s).ring = s.ring ∧ (hearByte b s).takes = s.takes ∧ (hearByte b s).store = s.store ∧
      (hearByte b s).writer = s.writer ∧ (hearByte b s).orders = s.orders ∧ (hearByte b s).pending = s.pending := by
  and_intros <;> (unfold hearByte) <;> simp

@[simp] theorem hearAgainst_frame (b o : Byte) (n : Nat) (s : State) :
    (hearAgainst b o n s).port = s.port ∧ (hearAgainst b o n s).notices = s.notices ∧
      (hearAgainst b o n s).counter = s.counter ∧ (hearAgainst b o n s).front = s.front ∧
      (hearAgainst b o n s).mixer = s.mixer ∧ (hearAgainst b o n s).ring = s.ring ∧
      (hearAgainst b o n s).takes = s.takes ∧ (hearAgainst b o n s).store = s.store ∧
      (hearAgainst b o n s).writer = s.writer ∧ (hearAgainst b o n s).orders = s.orders ∧
      (hearAgainst b o n s).pending = s.pending := by
  and_intros <;> (unfold hearAgainst; dsimp only; repeat' split) <;> simp

@[simp] theorem hearInSend_frame (b : Byte) (s : State) :
    (hearInSend b s).port = s.port ∧ (hearInSend b s).notices = s.notices ∧
      (hearInSend b s).counter = s.counter ∧ (hearInSend b s).front = s.front ∧ (hearInSend b s).mixer = s.mixer ∧
      (hearInSend b s).ring = s.ring ∧ (hearInSend b s).takes = s.takes ∧ (hearInSend b s).store = s.store ∧
      (hearInSend b s).writer = s.writer ∧ (hearInSend b s).orders = s.orders ∧
      (hearInSend b s).pending = s.pending := by
  and_intros <;> (unfold hearInSend; repeat' split) <;> simp

@[simp] theorem lineBusy_frame (b : Byte) (s : State) :
    (lineBusy b s).port = s.port ∧ (lineBusy b s).notices = s.notices ∧ (lineBusy b s).counter = s.counter ∧
      (lineBusy b s).front = s.front ∧ (lineBusy b s).mixer = s.mixer ∧ (lineBusy b s).ring = s.ring ∧
      (lineBusy b s).takes = s.takes ∧ (lineBusy b s).store = s.store ∧ (lineBusy b s).writer = s.writer ∧
      (lineBusy b s).orders = s.orders ∧ (lineBusy b s).pending = s.pending := by
  and_intros <;> (unfold lineBusy; repeat' split) <;> simp

@[simp] theorem endReception_frame (s : State) :
    (endReception s).time = s.time ∧ (endReception s).port = s.port ∧ (endReception s).counter = s.counter ∧
      (endReception s).front = s.front ∧ (endReception s).mixer = s.mixer ∧ (endReception s).ring = s.ring ∧
      (endReception s).writer = s.writer ∧ (endReception s).orders = s.orders ∧
      (endReception s).pending = s.pending := by
  and_intros <;> (unfold endReception; repeat' split) <;> simp

@[simp] theorem becomeIdle_frame (s : State) :
    (becomeIdle s).port = s.port ∧ (becomeIdle s).notices = s.notices ∧ (becomeIdle s).counter = s.counter ∧
      (becomeIdle s).front = s.front ∧ (becomeIdle s).mixer = s.mixer ∧ (becomeIdle s).ring = s.ring ∧
      (becomeIdle s).takes = s.takes ∧ (becomeIdle s).store = s.store ∧ (becomeIdle s).writer = s.writer ∧
      (becomeIdle s).orders = s.orders ∧
      (becomeIdle s).pending = s.pending := by
  and_intros <;> (unfold becomeIdle) <;> simp

@[simp] theorem lineIdle_frame (s : State) :
    (lineIdle s).port = s.port ∧ (lineIdle s).counter = s.counter ∧ (lineIdle s).front = s.front ∧
      (lineIdle s).mixer = s.mixer ∧ (lineIdle s).ring = s.ring ∧ (lineIdle s).orders = s.orders ∧
      (lineIdle s).pending = s.pending := by
  and_intros <;> (unfold lineIdle; repeat' split) <;> simp

@[simp] theorem hearFrame_frame (k : Byte) (f : HeardFrame) (s : State) :
    (hearFrame k f s).time = s.time ∧ (hearFrame k f s).port = s.port ∧ (hearFrame k f s).notices = s.notices ∧
      (hearFrame k f s).counter = s.counter ∧ (hearFrame k f s).front = s.front ∧
      (hearFrame k f s).mixer = s.mixer ∧ (hearFrame k f s).ring = s.ring ∧ (hearFrame k f s).takes = s.takes ∧
      (hearFrame k f s).store = s.store ∧ (hearFrame k f s).writer = s.writer ∧
      (hearFrame k f s).orders = s.orders ∧ (hearFrame k f s).pending = s.pending := by
  and_intros <;> (unfold hearFrame; dsimp only)

@[simp] theorem receiveFrame_frame (k : Byte) (f : HeardFrame) (s : State) :
    (receiveFrame k f s).port = s.port ∧ (receiveFrame k f s).counter = s.counter ∧
      (receiveFrame k f s).front = s.front ∧ (receiveFrame k f s).mixer = s.mixer ∧
      (receiveFrame k f s).ring = s.ring ∧ (receiveFrame k f s).orders = s.orders ∧
      (receiveFrame k f s).pending = s.pending := by
  and_intros <;> (unfold receiveFrame; repeat' split) <;> simp

@[simp] theorem deferralExpiry_frame (s : State) :
    (deferralExpiry s).port = s.port ∧ (deferralExpiry s).notices = s.notices ∧ (deferralExpiry s).counter = s.counter ∧
      (deferralExpiry s).front = s.front ∧ (deferralExpiry s).mixer = s.mixer ∧ (deferralExpiry s).ring = s.ring ∧
      (deferralExpiry s).takes = s.takes ∧ (deferralExpiry s).store = s.store ∧ (deferralExpiry s).writer = s.writer ∧
      (deferralExpiry s).orders = s.orders ∧
      (deferralExpiry s).pending = s.pending := by
  and_intros <;> (unfold deferralExpiry; repeat' split) <;> simp

@[simp] theorem collision_frame (s : State) :
    (collision s).port = s.port ∧ (collision s).notices = s.notices ∧ (collision s).counter = s.counter ∧
      (collision s).front = s.front ∧ (collision s).mixer = s.mixer ∧ (collision s).ring = s.ring ∧
      (collision s).takes = s.takes ∧ (collision s).store = s.store ∧ (collision s).writer = s.writer ∧
      (collision s).orders = s.orders ∧ (collision s).pending = s.pending := by
  and_intros <;> (unfold collision; repeat' split) <;> simp

@[simp] theorem announceTimerExpiry_frame (s : State) :
    (announceTimerExpiry s).port = s.port ∧ (announceTimerExpiry s).notices = s.notices ∧ (announceTimerExpiry s).counter = s.counter ∧
      (announceTimerExpiry s).front = s.front ∧ (announceTimerExpiry s).mixer = s.mixer ∧ (announceTimerExpiry s).ring = s.ring ∧
      (announceTimerExpiry s).takes = s.takes ∧ (announceTimerExpiry s).store = s.store ∧ (announceTimerExpiry s).writer = s.writer ∧
      (announceTimerExpiry s).orders = s.orders ∧
      (announceTimerExpiry s).pending = s.pending := by
  and_intros <;> (unfold announceTimerExpiry; repeat' split) <;> simp

@[simp] theorem loseOrigin_frame (p : Fin 8) (s : State) :
    (loseOrigin p s).time = s.time ∧ (loseOrigin p s).port = s.port ∧ (loseOrigin p s).counter = s.counter ∧
      (loseOrigin p s).front = s.front ∧ (loseOrigin p s).mixer = s.mixer ∧ (loseOrigin p s).ring = s.ring ∧
      (loseOrigin p s).link = s.link ∧ (loseOrigin p s).store = s.store ∧ (loseOrigin p s).writer = s.writer ∧
      (loseOrigin p s).orders = s.orders ∧
      (loseOrigin p s).pending = s.pending := by
  and_intros <;> (unfold loseOrigin; repeat' split) <;> simp

@[simp] theorem peerAbsent_frame (p : Fin 8) (s : State) :
    (peerAbsent p s).port = s.port ∧ (peerAbsent p s).counter = s.counter ∧ (peerAbsent p s).front = s.front ∧
      (peerAbsent p s).mixer = s.mixer ∧ (peerAbsent p s).ring = s.ring ∧ (peerAbsent p s).store = s.store ∧
      (peerAbsent p s).writer = s.writer ∧ (peerAbsent p s).orders = s.orders ∧
      (peerAbsent p s).pending = s.pending := by
  and_intros <;> (unfold peerAbsent; repeat' split) <;> simp

@[simp] theorem configureClock_frame (a : ClockArgs) (s : State) :
    (configureClock a s).time = s.time ∧ (configureClock a s).notices = s.notices ∧ (configureClock a s).front = s.front ∧
      (configureClock a s).mixer = s.mixer ∧ (configureClock a s).ring = s.ring ∧ (configureClock a s).takes = s.takes ∧
      (configureClock a s).link = s.link ∧ (configureClock a s).store = s.store ∧ (configureClock a s).writer = s.writer ∧
      (configureClock a s).orders = s.orders ∧
      (configureClock a s).pending = s.pending := by
  and_intros <;> (unfold configureClock; repeat' split) <;> simp

@[simp] theorem configureTrack_frame (a : TrackArgs) (s : State) :
    (configureTrack a s).time = s.time ∧ (configureTrack a s).notices = s.notices ∧ (configureTrack a s).counter = s.counter ∧
      (configureTrack a s).mixer = s.mixer ∧ (configureTrack a s).ring = s.ring ∧ (configureTrack a s).takes = s.takes ∧
      (configureTrack a s).link = s.link ∧ (configureTrack a s).store = s.store ∧ (configureTrack a s).writer = s.writer ∧
      (configureTrack a s).orders = s.orders ∧
      (configureTrack a s).pending = s.pending := by
  and_intros <;> (unfold configureTrack; repeat' split) <;> simp

@[simp] theorem configureCapture_frame (a : CaptureArgs) (s : State) :
    (configureCapture a s).time = s.time ∧ (configureCapture a s).notices = s.notices ∧ (configureCapture a s).counter = s.counter ∧
      (configureCapture a s).mixer = s.mixer ∧ (configureCapture a s).ring = s.ring ∧ (configureCapture a s).store = s.store ∧
      (configureCapture a s).writer = s.writer ∧ (configureCapture a s).orders = s.orders ∧
      (configureCapture a s).pending = s.pending := by
  and_intros <;> (unfold configureCapture; repeat' split) <;> simp

@[simp] theorem configureMedia_frame (a : Nat × Nat) (s : State) :
    (configureMedia a s).time = s.time ∧ (configureMedia a s).notices = s.notices ∧ (configureMedia a s).counter = s.counter ∧
      (configureMedia a s).front = s.front ∧ (configureMedia a s).mixer = s.mixer ∧ (configureMedia a s).ring = s.ring ∧
      (configureMedia a s).takes = s.takes ∧ (configureMedia a s).link = s.link ∧ (configureMedia a s).store = s.store ∧
      (configureMedia a s).orders = s.orders ∧
      (configureMedia a s).pending = s.pending := by
  and_intros <;> (unfold configureMedia; repeat' split) <;> simp

@[simp] theorem setRunNumber_frame (n : Nat) (s : State) :
    (setRunNumber n s).time = s.time ∧ (setRunNumber n s).notices = s.notices ∧ (setRunNumber n s).counter = s.counter ∧
      (setRunNumber n s).front = s.front ∧ (setRunNumber n s).mixer = s.mixer ∧ (setRunNumber n s).ring = s.ring ∧
      (setRunNumber n s).takes = s.takes ∧ (setRunNumber n s).store = s.store ∧ (setRunNumber n s).writer = s.writer ∧
      (setRunNumber n s).orders = s.orders ∧
      (setRunNumber n s).pending = s.pending := by
  and_intros <;> (unfold setRunNumber; repeat' split) <;> simp

@[simp] theorem enterRun_frame (s : State) :
    (enterRun s).time = s.time ∧ (enterRun s).counter = s.counter ∧ (enterRun s).front = s.front ∧
      (enterRun s).mixer = s.mixer ∧ (enterRun s).ring = s.ring ∧ (enterRun s).store = s.store ∧
      (enterRun s).orders = s.orders ∧
      (enterRun s).pending = s.pending := by
  and_intros <;> (unfold enterRun) <;> simp

@[simp] theorem commit_frame (u : Unit) (s : State) :
    (commit u s).time = s.time ∧ (commit u s).counter = s.counter ∧ (commit u s).front = s.front ∧
      (commit u s).mixer = s.mixer ∧ (commit u s).ring = s.ring ∧ (commit u s).store = s.store ∧
      (commit u s).orders = s.orders ∧
      (commit u s).pending = s.pending := by
  and_intros <;> (unfold commit; repeat' split) <;> simp

@[simp] theorem setTrim_frame (a : Nat × Nat) (s : State) :
    (setTrim a s).time = s.time ∧ (setTrim a s).notices = s.notices ∧ (setTrim a s).counter = s.counter ∧
      (setTrim a s).mixer = s.mixer ∧ (setTrim a s).ring = s.ring ∧ (setTrim a s).takes = s.takes ∧
      (setTrim a s).link = s.link ∧ (setTrim a s).store = s.store ∧ (setTrim a s).writer = s.writer ∧
      (setTrim a s).orders = s.orders ∧
      (setTrim a s).pending = s.pending := by
  and_intros <;> (unfold setTrim; repeat' split) <;> simp

@[simp] theorem setGate_frame (a : Nat × GateSettings) (s : State) :
    (setGate a s).time = s.time ∧ (setGate a s).notices = s.notices ∧ (setGate a s).counter = s.counter ∧
      (setGate a s).front = s.front ∧ (setGate a s).ring = s.ring ∧ (setGate a s).takes = s.takes ∧
      (setGate a s).link = s.link ∧ (setGate a s).store = s.store ∧ (setGate a s).writer = s.writer ∧
      (setGate a s).orders = s.orders ∧
      (setGate a s).pending = s.pending := by
  and_intros <;> (unfold setGate; repeat' split) <;> simp

@[simp] theorem setScene_frame (l : Text) (s : State) :
    (setScene l s).time = s.time ∧ (setScene l s).notices = s.notices ∧ (setScene l s).counter = s.counter ∧
      (setScene l s).front = s.front ∧ (setScene l s).mixer = s.mixer ∧ (setScene l s).ring = s.ring ∧
      (setScene l s).store = s.store ∧ (setScene l s).writer = s.writer ∧ (setScene l s).orders = s.orders ∧
      (setScene l s).pending = s.pending := by
  and_intros <;> (unfold setScene) <;> simp

@[simp] theorem setNextTake_frame (n : Nat) (s : State) :
    (setNextTake n s).time = s.time ∧ (setNextTake n s).notices = s.notices ∧ (setNextTake n s).counter = s.counter ∧
      (setNextTake n s).front = s.front ∧ (setNextTake n s).mixer = s.mixer ∧ (setNextTake n s).ring = s.ring ∧
      (setNextTake n s).store = s.store ∧ (setNextTake n s).writer = s.writer ∧ (setNextTake n s).orders = s.orders ∧
      (setNextTake n s).pending = s.pending := by
  and_intros <;> (unfold setNextTake) <;> simp

@[simp] theorem jamTo_frame (j : Nat) (s : State) :
    (jamTo j s).time = s.time ∧ (jamTo j s).port = s.port ∧ (jamTo j s).notices = s.notices ∧
      (jamTo j s).front = s.front ∧ (jamTo j s).mixer = s.mixer ∧ (jamTo j s).takes = s.takes ∧
      (jamTo j s).link = s.link ∧ (jamTo j s).store = s.store ∧ (jamTo j s).writer = s.writer ∧
      (jamTo j s).orders = s.orders ∧
      (jamTo j s).pending = s.pending := by
  and_intros <;> (unfold jamTo) <;> simp

@[simp] theorem jamTimecode_frame (a : Nat × Nat × Nat × Nat) (s : State) :
    (jamTimecode a s).time = s.time ∧ (jamTimecode a s).notices = s.notices ∧ (jamTimecode a s).front = s.front ∧
      (jamTimecode a s).mixer = s.mixer ∧ (jamTimecode a s).takes = s.takes ∧ (jamTimecode a s).link = s.link ∧
      (jamTimecode a s).store = s.store ∧ (jamTimecode a s).writer = s.writer ∧ (jamTimecode a s).orders = s.orders ∧
      (jamTimecode a s).pending = s.pending := by
  and_intros <;> (unfold jamTimecode; repeat' split) <;> simp

@[simp] theorem endRequest_frame (s : State) (r : ResponseCode × State) :
    (endRequest s r).time = r.2.time ∧ (endRequest s r).port = r.2.port ∧ (endRequest s r).notices = r.2.notices ∧
      (endRequest s r).counter = r.2.counter ∧ (endRequest s r).front = r.2.front ∧
      (endRequest s r).mixer = r.2.mixer ∧ (endRequest s r).ring = r.2.ring ∧ (endRequest s r).orders = r.2.orders ∧
      (endRequest s r).pending = r.2.pending := by
  and_intros <;> (unfold endRequest; split) <;> simp

@[simp] theorem startCommand_frame (u : Unit) (s : State) :
    (startCommand u s).time = s.time ∧ (startCommand u s).counter = s.counter ∧ (startCommand u s).front = s.front ∧
      (startCommand u s).mixer = s.mixer ∧ (startCommand u s).ring = s.ring ∧ (startCommand u s).orders = s.orders ∧
      (startCommand u s).pending = s.pending := by
  and_intros <;> (unfold startCommand) <;> simp

@[simp] theorem stopCommand_frame (u : Unit) (s : State) :
    (stopCommand u s).time = s.time ∧ (stopCommand u s).notices = s.notices ∧ (stopCommand u s).counter = s.counter ∧
      (stopCommand u s).front = s.front ∧ (stopCommand u s).mixer = s.mixer ∧ (stopCommand u s).ring = s.ring ∧
      (stopCommand u s).orders = s.orders ∧
      (stopCommand u s).pending = s.pending := by
  and_intros <;> (unfold stopCommand) <;> simp

@[simp] theorem recordKey_frame (s : State) :
    (recordKey s).time = s.time ∧ (recordKey s).port = s.port ∧ (recordKey s).counter = s.counter ∧
      (recordKey s).front = s.front ∧ (recordKey s).mixer = s.mixer ∧ (recordKey s).ring = s.ring ∧
      (recordKey s).orders = s.orders ∧
      (recordKey s).pending = s.pending := by
  and_intros <;> (unfold recordKey; repeat' split) <;> simp

@[simp] theorem storeLocal_frame (n : Note) (s : State) :
    (storeLocal n s).time = s.time ∧ (storeLocal n s).port = s.port ∧ (storeLocal n s).notices = s.notices ∧
      (storeLocal n s).counter = s.counter ∧ (storeLocal n s).front = s.front ∧ (storeLocal n s).mixer = s.mixer ∧
      (storeLocal n s).ring = s.ring ∧ (storeLocal n s).writer = s.writer ∧ (storeLocal n s).orders = s.orders ∧
      (storeLocal n s).pending = s.pending := by
  and_intros <;> (unfold storeLocal) <;> simp

@[simp] theorem addNote_frame (a : NoteArgs) (s : State) :
    (addNote a s).time = s.time ∧ (addNote a s).notices = s.notices ∧ (addNote a s).counter = s.counter ∧
      (addNote a s).front = s.front ∧ (addNote a s).mixer = s.mixer ∧ (addNote a s).ring = s.ring ∧
      (addNote a s).orders = s.orders ∧
      (addNote a s).pending = s.pending := by
  and_intros <;> (unfold addNote; repeat' split) <;> simp

@[simp] theorem setCue_frame (a : Nat × Nat) (s : State) :
    (setCue a s).time = s.time ∧ (setCue a s).notices = s.notices ∧ (setCue a s).front = s.front ∧
      (setCue a s).mixer = s.mixer ∧ (setCue a s).ring = s.ring ∧ (setCue a s).takes = s.takes ∧
      (setCue a s).link = s.link ∧ (setCue a s).store = s.store ∧ (setCue a s).writer = s.writer ∧
      (setCue a s).orders = s.orders ∧
      (setCue a s).pending = s.pending := by
  and_intros <;> (unfold setCue; repeat' split) <;> simp

@[simp] theorem cancelCue_frame (u : Unit) (s : State) :
    (cancelCue u s).time = s.time ∧ (cancelCue u s).notices = s.notices ∧ (cancelCue u s).front = s.front ∧
      (cancelCue u s).mixer = s.mixer ∧ (cancelCue u s).ring = s.ring ∧ (cancelCue u s).takes = s.takes ∧
      (cancelCue u s).link = s.link ∧ (cancelCue u s).store = s.store ∧ (cancelCue u s).writer = s.writer ∧
      (cancelCue u s).orders = s.orders ∧
      (cancelCue u s).pending = s.pending := by
  and_intros <;> (unfold cancelCue; repeat' split) <;> simp

@[simp] theorem clearClip_frame (u : Unit) (s : State) :
    (clearClip u s).time = s.time ∧ (clearClip u s).notices = s.notices ∧ (clearClip u s).counter = s.counter ∧
      (clearClip u s).mixer = s.mixer ∧ (clearClip u s).ring = s.ring ∧ (clearClip u s).takes = s.takes ∧
      (clearClip u s).link = s.link ∧ (clearClip u s).store = s.store ∧ (clearClip u s).writer = s.writer ∧
      (clearClip u s).orders = s.orders ∧
      (clearClip u s).pending = s.pending := by
  and_intros <;> (unfold clearClip; repeat' split) <;> simp

@[simp] theorem mediaRetry_frame (u : Unit) (s : State) :
    (mediaRetry u s).time = s.time ∧ (mediaRetry u s).notices = s.notices ∧ (mediaRetry u s).counter = s.counter ∧
      (mediaRetry u s).front = s.front ∧ (mediaRetry u s).mixer = s.mixer ∧ (mediaRetry u s).ring = s.ring ∧
      (mediaRetry u s).takes = s.takes ∧ (mediaRetry u s).link = s.link ∧ (mediaRetry u s).store = s.store ∧
      (mediaRetry u s).orders = s.orders ∧
      (mediaRetry u s).pending = s.pending := by
  and_intros <;> (unfold mediaRetry; repeat' split) <;> simp

@[simp] theorem restartTakes_frame (s : State) :
    (restartTakes s).time = s.time ∧ (restartTakes s).port = s.port ∧ (restartTakes s).counter = s.counter ∧
      (restartTakes s).front = s.front ∧ (restartTakes s).mixer = s.mixer ∧ (restartTakes s).ring = s.ring ∧
      (restartTakes s).link = s.link ∧ (restartTakes s).store = s.store ∧ (restartTakes s).writer = s.writer ∧
      (restartTakes s).orders = s.orders ∧
      (restartTakes s).pending = s.pending := by
  and_intros <;> (unfold restartTakes) <;> simp

@[simp] theorem restartAll_frame (s : State) :
    (restartAll s).time = s.time ∧ (restartAll s).port = s.port ∧ (restartAll s).counter = s.counter ∧
      (restartAll s).front = s.front ∧ (restartAll s).link = s.link ∧ (restartAll s).orders = s.orders ∧
      (restartAll s).pending = s.pending := by
  and_intros <;> (unfold restartAll) <;> simp

@[simp] theorem captureRestart_frame (u : Unit) (s : State) :
    (captureRestart u s).time = s.time ∧ (captureRestart u s).counter = s.counter ∧ (captureRestart u s).front = s.front ∧
      (captureRestart u s).orders = s.orders ∧
      (captureRestart u s).pending = s.pending := by
  and_intros <;> (unfold captureRestart) <;> simp

@[simp] theorem answerRead_frame (d : Option (List Byte)) (s : State) :
    (answerRead d s).time = s.time ∧ (answerRead d s).notices = s.notices ∧ (answerRead d s).counter = s.counter ∧
      (answerRead d s).front = s.front ∧ (answerRead d s).mixer = s.mixer ∧ (answerRead d s).ring = s.ring ∧
      (answerRead d s).takes = s.takes ∧ (answerRead d s).link = s.link ∧ (answerRead d s).store = s.store ∧
      (answerRead d s).writer = s.writer ∧ (answerRead d s).orders = s.orders ∧
      (answerRead d s).pending = s.pending := by
  and_intros <;> (unfold answerRead; repeat' split) <;> simp

@[simp] theorem setNoticeMask_frame (v : Nat) (s : State) :
    (setNoticeMask v s).time = s.time ∧ (setNoticeMask v s).counter = s.counter ∧ (setNoticeMask v s).front = s.front ∧
      (setNoticeMask v s).mixer = s.mixer ∧ (setNoticeMask v s).ring = s.ring ∧ (setNoticeMask v s).takes = s.takes ∧
      (setNoticeMask v s).link = s.link ∧ (setNoticeMask v s).store = s.store ∧ (setNoticeMask v s).writer = s.writer ∧
      (setNoticeMask v s).orders = s.orders ∧
      (setNoticeMask v s).pending = s.pending := by
  and_intros <;> (unfold setNoticeMask; repeat' split) <;> simp

@[simp] theorem ackNotices_frame (v : Nat) (s : State) :
    (ackNotices v s).time = s.time ∧ (ackNotices v s).counter = s.counter ∧ (ackNotices v s).front = s.front ∧
      (ackNotices v s).mixer = s.mixer ∧ (ackNotices v s).ring = s.ring ∧ (ackNotices v s).takes = s.takes ∧
      (ackNotices v s).link = s.link ∧ (ackNotices v s).store = s.store ∧ (ackNotices v s).writer = s.writer ∧
      (ackNotices v s).orders = s.orders ∧
      (ackNotices v s).pending = s.pending := by
  and_intros <;> (unfold ackNotices; repeat' split) <;> simp

@[simp] theorem tick_frame (s : State) :
    (tick s).port = s.port ∧ (tick s).notices = s.notices ∧ (tick s).counter = s.counter ∧
      (tick s).front = s.front ∧ (tick s).mixer = s.mixer ∧ (tick s).ring = s.ring ∧
      (tick s).takes = s.takes ∧ (tick s).link = s.link ∧ (tick s).store = s.store ∧
      (tick s).writer = s.writer ∧ (tick s).orders = s.orders := by
  and_intros <;> (unfold tick) <;> simp

end Sys2Proof.Machine
end

