-- ==== Sys2Proof/Laws/Ops.lean ====
section
/-! SUPPORT. What the shared operations do, said once: slots, notices, the command port's checks, the end of an event, and the
integers of the byte layouts. -/

namespace Sys2Proof.Machine

open Sys2Proof

/-! ## Slots -/

/-- Reading back the slots after one was replaced. -/
theorem setSlot_slots (i j : Fin 3) (t : Option Take) (s : State) :
    (setSlot i t s).takes.slots[j] = if i = j then t else s.takes.slots[j] := by
  by_cases h : i = j
  · subst h; simp [setSlot]
  · have : (i : Nat) ≠ (j : Nat) := fun e => h (Fin.ext e)
    simp [setSlot, h, this]

/-- Reading back the slots after the take in one was changed. -/
theorem modifySlot_slots (i j : Fin 3) (f : Take → Take) (s : State) :
    (modifySlot i f s).takes.slots[j] = if i = j then s.takes.slots[j].map f else s.takes.slots[j] := by
  unfold modifySlot
  split
  · rename_i h; by_cases e : i = j
    · subst e; simp [h]
    · simp [e]
  · rename_i t h; rw [setSlot_slots]; by_cases e : i = j
    · subst e; simp [h]
    · simp [e]

/-- What findSlot answers: the lowest slot that meets p, or none when no slot does. -/
theorem findSlot_spec (p : Option Take → Bool) (s : State) :
    (∃ i, findSlot p s = some i ∧ p s.takes.slots[i] = true ∧ ∀ j < i, p s.takes.slots[j] = false) ∨
      (findSlot p s = none ∧ ∀ j : Fin 3, p s.takes.slots[j] = false) := by
  unfold findSlot
  by_cases h0 : p s.takes.slots[0] = true
  · exact .inl ⟨0, by simp [h0], h0, fun j hj => absurd hj (by omega)⟩
  by_cases h1 : p s.takes.slots[1] = true
  · refine .inl ⟨1, by simp [h0, h1], h1, fun j hj => ?_⟩
    have : j = 0 := by omega
    subst this; simpa using h0
  by_cases h2 : p s.takes.slots[2] = true
  · refine .inl ⟨2, by simp [h0, h1, h2], h2, fun j hj => ?_⟩
    have : j = 0 ∨ j = 1 := by omega
    rcases this with rfl | rfl
    · simpa using h0
    · simpa using h1
  · refine .inr ⟨by simp [h0, h1, h2], fun j => ?_⟩
    have : j = 0 ∨ j = 1 ∨ j = 2 := by omega
    rcases this with rfl | rfl | rfl
    · simpa using h0
    · simpa using h1
    · simpa using h2

/-! ## Notices -/

/-- The attention line over the kinds one by one. -/
theorem attentionOf_iff (pending mask : BitVec 20) :
    attentionOf pending mask = true ↔ ∃ k : Fin 20, pending[k] = true ∧ mask[k] = false := by
  unfold attentionOf
  rw [bne_iff_ne]
  constructor
  · intro h
    by_contra none
    simp only [not_exists, not_and] at none
    refine h (BitVec.eq_of_getElem_eq fun i hi => ?_)
    have := none ⟨i, hi⟩
    simp only [Fin.getElem_fin] at this
    cases hp : pending[i] <;> cases hm : mask[i] <;> simp_all
  · rintro ⟨k, hp, hm⟩ h
    have := congrArg (fun v : BitVec 20 => v[k.val]) h
    simp only [Fin.getElem_fin] at hp hm
    simp [hp, hm] at this

/-- The kinds pending after a raise. -/
theorem isPending_raise (j k : Notice) (s : State) : isPending j (raise k s) = (isPending j s || decide (j = k)) := by
  unfold isPending raise noticeUnit
  simp only [BitVec.getLsbD_or]
  congr 1
  cases j <;> cases k <;> decide

/-! ## The command port (R177) -/

/-- A command out of its phase. -/
theorem hostCommand_wrongPhase {α : Type} {p : TakenIn} {s : State} (o : Option α) (act : α → State → State)
    (h : takenNow p s.port.phase = false) : hostCommand p o act s = respond .wrongPhase [] s := by
  simp [hostCommand, h]

/-- A command in its phase whose argument length does not match. -/
theorem hostCommand_badLength {α : Type} {p : TakenIn} {s : State} (act : α → State → State)
    (h : takenNow p s.port.phase = true) : hostCommand p none act s = respond .badValue [] s := by
  simp [hostCommand, h]

/-- A command taken. -/
theorem hostCommand_taken {α : Type} {p : TakenIn} {s : State} (a : α) (act : α → State → State)
    (h : takenNow p s.port.phase = true) : hostCommand p (some a) act s = act a s := by
  simp [hostCommand, h]

/-! ## The end of an event (R95, R164) -/

/-- Out of RUN the writer settles nothing. -/
theorem settle_of_setup {s : State} (h : s.port.phase = .setup) : settle s = s := by
  simp [settle, State.inRun, h]

/-- In RUN a held audio block is dropped on a FULL card and the gap reports that are due are made. -/
theorem settle_of_run {s : State} (run : s.inRun = true) : settle s = accountAll (dropHeldAudio s) := by
  simp [settle, run]

/-- The best of the slots that meet p, if there is one, meets p. -/
theorem bestSlot_meets {better : Nat → Nat → Bool} {p : Fin 3 → Take → Bool} {s : State} {i : Fin 3}
    (h : bestSlot better p s = some i) : ∃ t, s.takes.slots[i] = some t ∧ p i t = true := by
  have one : ∀ (best : Option (Fin 3 × Nat)) (j : Fin 3) (r : Fin 3 × Nat),
      (match s.takes.slots[j] with
        | none => best
        | some t =>
          if p j t then
            match best with
            | none => some (j, startAge s t)
            | some (k, a) => if better (startAge s t) a then some (j, startAge s t) else some (k, a)
          else best) = some r →
      best = some r ∨ (r.1 = j ∧ ∃ t, s.takes.slots[j] = some t ∧ p j t = true) := by
    intro best j r hr
    cases hs : s.takes.slots[j] with
    | none => rw [hs] at hr; exact .inl hr
    | some t =>
      rw [hs] at hr
      by_cases hp : p j t = true
      · simp only [hp, if_true] at hr
        cases best with
        | none => cases hr; exact .inr ⟨rfl, t, rfl, hp⟩
        | some x =>
          dsimp only at hr
          split at hr
          · cases hr; exact .inr ⟨rfl, t, rfl, hp⟩
          · exact .inl hr
      · simp only [hp] at hr
        exact .inl hr
  simp only [bestSlot, Option.map_eq_some_iff] at h
  obtain ⟨r, hr, rfl⟩ := h
  rcases one _ 2 r hr with hr | ⟨e, t⟩
  · rcases one _ 1 r hr with hr | ⟨e, t⟩
    · rcases one _ 0 r hr with hr | ⟨e, t⟩
      · cases hr
      · rw [e]; exact t
    · rw [e]; exact t
  · rw [e]; exact t

/-- A decision answers the arbiter's choice, or leaves the state (R164). -/
theorem makeDecision_cases (s : State) :
    makeDecision s = s ∨ ∃ r, mayIssue s = true ∧ choose s = some r ∧ makeDecision s = issueRequest r s := by
  unfold makeDecision
  split
  · split
    · exact .inr ⟨_, ‹_›, ‹_›, rfl⟩
    · exact .inl rfl
  · exact .inl rfl

/-- A writer that may issue makes the arbiter's choice (R164). -/
theorem makeDecision_of_choose {s : State} {r : Request} (m : mayIssue s = true) (h : choose s = some r) :
    makeDecision s = issueRequest r s := by
  simp [makeDecision, m, h]

/-- An urgent request for an index record is that of a slot that has one (R161, R165). -/
theorem urgentRequest_index {s : State} {i : Fin 3} (h : urgentRequest s = some (.index i)) :
    ∃ t, s.takes.slots[i] = some t ∧ hasIndexRequest s.day t = true := by
  unfold urgentRequest at h
  split at h
  · cases h
    exact bestSlot_meets ‹_›
  · split at h
    · cases h
    · split at h <;> cases h

/-- A bulk request is that of a slot that has a ready audio block (R159, R165). -/
theorem bulkRequest_eq_some {s : State} {r : Request} (h : bulkRequest s = some r) :
    ∃ i t, r = .audio i ∧ s.takes.slots[i] = some t ∧ (readyBlock s t).isSome = true := by
  simp only [bulkRequest, Option.map_eq_some_iff] at h
  obtain ⟨i, h, rfl⟩ := h
  obtain ⟨t, ht, p⟩ := bestSlot_meets h
  exact ⟨i, t, rfl, ht, p⟩

/-- The arbiter's choice is the urgent request or the bulk request taken first (R165). -/
theorem choose_cases {s : State} {r : Request} (h : choose s = some r) :
    urgentRequest s = some r ∨ bulkRequest s = some r := by
  unfold choose at h
  split at h
  · cases h
  · cases h
  · exact .inl h
  · split at h
    · split at h
      · cases h; exact .inl ‹_›
      · exact .inr h
    · split at h
      · cases h; exact .inr ‹_›
      · exact .inl h

/-- The arbiter chooses an index record only where R161 gives the slot the request. -/
theorem choose_index {s : State} {i : Fin 3} (h : choose s = some (.index i)) :
    ∃ t, s.takes.slots[i] = some t ∧ hasIndexRequest s.day t = true := by
  rcases choose_cases h with h | h
  · exact urgentRequest_index h
  · obtain ⟨_, _, e, -⟩ := bulkRequest_eq_some h
    cases e

/-- The arbiter chooses an audio block only for a slot that has one ready (R159). -/
theorem choose_audio {s : State} {i : Fin 3} (h : choose s = some (.audio i)) :
    ∃ t frames, s.takes.slots[i] = some t ∧ readyBlock s t = some frames := by
  rcases choose_cases h with h | h
  · unfold urgentRequest at h
    split at h
    · cases h
    · split at h
      · cases h
      · split at h <;> cases h
  · obtain ⟨_, t, e, ht, ready⟩ := bulkRequest_eq_some h
    cases e
    obtain ⟨frames, hf⟩ := Option.isSome_iff_exists.mp ready
    exact ⟨t, frames, ht, hf⟩

/-- The choice of a writer that may issue is in flight after the decision, so the writer may issue nothing more (R164). -/
theorem makeDecision_not_mayIssue {s : State} {r : Request} (m : mayIssue s = true) (h : choose s = some r) :
    mayIssue (makeDecision s) = false := by
  rw [makeDecision_of_choose m h]
  cases r with
  | audio i =>
    obtain ⟨t, frames, ht, hf⟩ := choose_audio h
    simp [issueRequest, ht, hf, issueWrite, mayIssue]
  | index i =>
    obtain ⟨t, ht, -⟩ := choose_index h
    simp [issueRequest, ht, issueWrite, mayIssue]
  | notes => simp [issueRequest, issueWrite, mayIssue]
  | fault => simp [issueRequest, issueWrite, mayIssue]

/-- A decision leaves no request that may be issued: a second one right after it changes nothing (R164). -/
@[simp] theorem makeDecision_idem (s : State) : makeDecision (makeDecision s) = makeDecision s := by
  by_cases m : mayIssue s = true
  · cases h : choose s with
    | none => simp [makeDecision, m, h]
    | some r => rw [makeDecision, if_neg (by simp [makeDecision_not_mayIssue m h])]
  · have e : makeDecision s = s := by simp [makeDecision, m]
    rw [e, e]

/-- A decision changes nothing exactly when the writer may not issue or has no request to issue (R164). -/
theorem makeDecision_eq_self_iff {s : State} : makeDecision s = s ↔ mayIssue s = false ∨ choose s = none := by
  constructor
  · intro e
    by_cases m : mayIssue s = true
    · cases h : choose s with
      | none => exact .inr rfl
      | some r => exact .inl (by simpa [e] using makeDecision_not_mayIssue m h)
    · exact .inl (by simpa using m)
  · rintro (m | h)
    · simp [makeDecision, m]
    · simp [makeDecision, h]

/-- The end of an event leaves no request that may be issued, whatever command waits next (R164). -/
@[simp] theorem makeDecision_finish (before after : State) : makeDecision (finish before after) = finish before after :=
  makeDecision_idem _

/-- Two states in which the writer's decision reads the same: all that R158 to R165 name. -/
structure SameRequests (s t : State) : Prop where
  phase : t.port.phase = s.port.phase
  writer : t.writer = s.writer
  slots : t.takes.slots = s.takes.slots
  serial : t.takes.serial = s.takes.serial
  postRoll : t.takes.postRoll = s.takes.postRoll
  notes : t.store.notes = s.store.notes
  frames : t.ring.frames = s.ring.frames
  newest : t.counter.newest = s.counter.newest
  rate : t.counter.sampleRate = s.counter.sampleRate
  words : wordCount t = wordCount s

/-- The arbiter chooses alike in two such states (R165). -/
theorem SameRequests.choose_eq {s t : State} (h : SameRequests s t) : choose t = choose s := by
  have day : t.day = s.day := by simp [State.day, h.rate]
  have prot : isProtected t = isProtected s := by funext p; simp [isProtected, h.slots, h.postRoll, day]
  have age : startAge t = startAge s := by funext u; simp [startAge, h.serial]
  have early : ∀ p, earliestSlot p t = earliestSlot p s := fun p => by
    simp only [earliestSlot, bestSlot, h.slots, age]
  have ready : readyBlock t = readyBlock s := by
    funext u; simp only [readyBlock, day, h.frames, h.newest, blockCapacity, h.words]
  have urgent : urgentRequest t = urgentRequest s := by
    simp only [urgentRequest, early, day, hasNoteRequest, hasFaultRequest, h.notes, h.writer]
    rfl
  have count : protectedCount t = protectedCount s := by simp [protectedCount, h.frames, prot]
  have bulk : bulkRequest t = bulkRequest s := by simp only [bulkRequest, early, ready]
  simp only [choose, h.writer, count, urgent, bulk]

/-- What does not touch the writer's requests leaves none to issue where there was none (R164). -/
theorem SameRequests.stands {s t : State} (h : SameRequests s t) (e : makeDecision s = s) : makeDecision t = t := by
  rw [makeDecision_eq_self_iff] at e ⊢
  rw [h.choose_eq]
  rwa [show mayIssue t = mayIssue s by simp [mayIssue, State.inRun, h.phase, h.writer]]

/-- An answer to the host leaves none to issue where there was none. -/
theorem respond_stands {c : ResponseCode} {data : List Byte} {s : State} (e : makeDecision s = s) :
    makeDecision (respond c data s) = respond c data s :=
  SameRequests.stands (s := s) ⟨rfl, rfl, rfl, rfl, rfl, rfl, rfl, rfl, rfl, rfl⟩ e

/-- A note attaches to a slot that holds a take under the note's reference, by label or former label, its index record not
issued; and the note is eligible (R133). -/
theorem attachesTo_meets {n : Note} {s : State} {i : Fin 3} (h : attachesTo n s = some i) :
    eligible s n = true ∧ ∃ ref t, n.ref = some ref ∧ s.takes.slots[i] = some t ∧ t.indexIssued = false ∧
      (t.label = ref ∨ ref ∈ t.former) := by
  unfold attachesTo at h
  split at h
  · rename_i e
    cases r : n.ref with
    | none => simp [r] at h
    | some ref =>
      simp only [r, Option.bind_some, matchingSlot] at h
      refine ⟨e, ref, ?_⟩
      split at h
      · cases h
        obtain ⟨t, ht, p⟩ := bestSlot_meets ‹_›
        simp only [Bool.and_eq_true, Bool.not_eq_true', beq_iff_eq] at p
        exact ⟨t, rfl, ht, p.1, .inl p.2⟩
      · obtain ⟨t, ht, p⟩ := bestSlot_meets h
        simp only [Bool.and_eq_true, Bool.not_eq_true', List.contains_iff_mem] at p
        exact ⟨t, rfl, ht, p.1, .inr p.2⟩
  · cases h

/-- An ADD NOTE that comes to a note has passed every check of R127, and the note is the one of R128. -/
theorem noteToAdd_ok {a : NoteArgs} {s : State} {n : Note} (h : noteToAdd a s = .ok n) :
    ∃ kind attach, noteKindOf a.kind = some kind ∧ onOff a.attach = some attach ∧
      contentsFit s.day kind a.raw.ref a.raw.pos a.raw.track = true ∧ s.store.seq < 65535 ∧
      (attach = true → attachLabel s ≠ none) ∧ storeHasRoom s = true ∧
      n = localNote s kind (if attach then attachLabel s else a.raw.ref) a.raw := by
  unfold noteToAdd at h
  split at h
  · rename_i kind attach k o
    split_ifs at h with c m l r <;> cases h <;>
      exact ⟨kind, attach, k, o, by simpa using c, by simpa [Config.max16] using m, fun e q => l ⟨e, q⟩, r, by simp [*]⟩
  · cases h

/-- Out of RUN, or while listen-only, a STATUS request does nothing. -/
theorem requestStatus_of_inactive {s : State} (h : linkActive s = false) : requestStatus s = s := by
  simp [requestStatus, h]

/-- An event that leaves the announced state as it was requests nothing. -/
theorem announceChange_of_eq {before now : State} (h : announcedState before = announcedState now) :
    announceChange before now = now := by
  simp [announceChange, h]

/-! ## The host's bytes at the port (R177) -/

@[simp] theorem State.select_frame (s : State) :
    s.select.time = s.time ∧ s.select.notices = s.notices ∧ s.select.counter = s.counter ∧ s.select.front = s.front ∧
      s.select.mixer = s.mixer ∧ s.select.ring = s.ring ∧ s.select.takes = s.takes ∧ s.select.link = s.link ∧
      s.select.store = s.store ∧ s.select.writer = s.writer ∧ s.select.orders = s.orders := by
  and_intros <;> rfl

@[simp] theorem State.hostByte_frame (b : Byte) (s : State) :
    (s.hostByte b).time = s.time ∧ (s.hostByte b).notices = s.notices ∧ (s.hostByte b).counter = s.counter ∧ (s.hostByte b).front = s.front ∧
      (s.hostByte b).mixer = s.mixer ∧ (s.hostByte b).ring = s.ring ∧ (s.hostByte b).takes = s.takes ∧ (s.hostByte b).link = s.link ∧
      (s.hostByte b).store = s.store ∧ (s.hostByte b).writer = s.writer ∧ (s.hostByte b).orders = s.orders := by
  and_intros <;> (unfold State.hostByte; repeat' split) <;> rfl

@[simp] theorem State.release_frame (s : State) :
    s.release.time = s.time ∧ s.release.notices = s.notices ∧ s.release.counter = s.counter ∧ s.release.front = s.front ∧
      s.release.mixer = s.mixer ∧ s.release.ring = s.ring ∧ s.release.takes = s.takes ∧ s.release.link = s.link ∧
      s.release.store = s.store ∧ s.release.writer = s.writer ∧ s.release.orders = s.orders := by
  and_intros <;> (unfold State.release; dsimp only; split) <;> rfl

/-! ## Integers in bytes (R189) -/

theorem be_length (width v : Nat) : (be width v).length = width := by
  induction width with
  | zero => rfl
  | succ n ih => simp [be, ih]

theorem ofBE_cons (b : Byte) (l : List Byte) : ofBE (b :: l) = b.toNat * 256 ^ l.length + ofBE l := by
  have shift : ∀ (l : List Byte) (a : Nat),
      l.foldl (fun acc b => acc * 256 + b.toNat) a = a * 256 ^ l.length + ofBE l := by
    intro l
    induction l with
    | nil => intro a; simp [ofBE]
    | cons x rest ih =>
      intro a
      have h1 := ih (a * 256 + x.toNat)
      have h2 := ih (0 * 256 + x.toNat)
      simp only [ofBE, List.foldl_cons, List.length_cons] at *
      rw [h1, h2, pow_succ]
      ring
  have := shift l (0 * 256 + b.toNat)
  simpa [ofBE] using this

/-- An integer written in enough bytes reads back. -/
theorem ofBE_be {width v : Nat} (h : v < 256 ^ width) : ofBE (be width v) = v := by
  have step : ∀ (w u : Nat), ofBE (be w u) = u % 256 ^ w := by
    intro w
    induction w with
    | zero => intro u; simp [be, ofBE, Nat.mod_one]
    | succ n ih =>
      intro u
      rw [be, ofBE_cons, be_length, ih, BitVec.toNat_ofNat]
      have e : u % 256 ^ (n + 1) = u % 256 ^ n + 256 ^ n * (u / 256 ^ n % 256) := by rw [pow_succ, Nat.mod_mul]
      rw [e, Nat.mul_comm, Nat.add_comm]
  rw [step, Nat.mod_eq_of_lt h]

/-- A field that stands at its offset reads back. -/
theorem field_append {before after : List Byte} {width v : Nat} (h : v < 256 ^ width) :
    field (before ++ be width v ++ after) before.length width = v := by
  rw [field, List.append_assoc, List.drop_left, List.take_left' (be_length width v), ofBE_be h]

theorem padTo_length (n : Nat) (l : List Byte) : (padTo n l).length = n := by
  simp [padTo]

end Sys2Proof.Machine
end

