-- ==== Sys2Proof/Laws/Link.lean ====
section
/-! SUPPORT. What the operations of the cart link and of a start inside an arrival do, said once: the levels of a byte, the
bytes of a whole frame, a frame's row, and the promotion test at an arrival. -/

namespace Sys2Proof.Machine

open Sys2Proof

/-! ## Levels (R83, R91) -/

@[simp] theorem byteLevels_length (b : Byte) : (byteLevels b).length = 10 := rfl

/-- The byte is read back from its levels. -/
@[simp] theorem levelsByte_byteLevels (b : Byte) : levelsByte (byteLevels b) = b := by
  apply BitVec.eq_of_getLsbD_eq
  revert b
  decide +revert

/-- A station that hears nobody but itself hears what it drives, and no mismatch. -/
@[simp] theorem hearDriven_self (l : List Level) : hearDriven l l = (l, false) := by
  induction l with
  | nil => rfl
  | cons x l ih => cases x <;> simp [hearDriven, ih, lineLevel]

/-- The number that bits spell, the most significant first. -/
def bitsValue : List Bool → Nat
  | [] => 0
  | x :: l => (if x then 2 ^ l.length else 0) + bitsValue l

theorem bitsValue_lt (l : List Bool) : bitsValue l < 2 ^ l.length := by
  induction l with
  | nil => simp [bitsValue]
  | cons x l ih => cases x <;> simp [bitsValue, Nat.pow_succ] <;> omega

/-- Of two stations that drive different bits, the one whose bits spell the greater number hears the mismatch, and what is heard
is the bits of the other (R91). -/
theorem hearDriven_bits {a b : List Bool} (h : a.length = b.length) (after : List Level) :
    hearDriven (a.map bitLevel ++ after) (b.map bitLevel ++ after) =
      if bitsValue b < bitsValue a then (b.map bitLevel ++ after, true) else (a.map bitLevel ++ after, false) := by
  induction a generalizing b with
  | nil =>
    cases b with
    | nil => simp
    | cons y b => cases h
  | cons x a ih =>
    cases b with
    | nil => cases h
    | cons y b =>
      have len : a.length = b.length := by simpa using h
      have la := bitsValue_lt a
      have lb := bitsValue_lt b
      rw [len] at la
      have step := ih len
      cases x <;> cases y <;>
        simp only [List.map_cons, List.cons_append, hearDriven, step, bitLevel, bitsValue, len, lineLevel, if_true, if_false,
          Bool.false_eq_true, ne_eq, not_true_eq_false, reduceCtorEq, not_false_eq_true, Nat.zero_add]
      · split <;> rfl
      · rw [if_neg (by omega)]
      · rw [if_pos (by omega)]
      · simp only [Nat.add_lt_add_iff_left]
        split <;> rfl

/-- The bits of a byte spell its value. -/
theorem bitsValue_byte (b : Byte) : bitsValue ([7, 6, 5, 4, 3, 2, 1, 0].map fun i => b.getLsbD i) = b.toNat := by
  revert b
  decide

/-- Of two stations that drive different bytes the one with the greater byte hears the mismatch, and the lesser byte is heard
(R91). -/
theorem hearDriven_byteLevels (own b : Byte) :
    hearDriven (byteLevels own) (byteLevels b) =
      if b.toNat < own.toNat then (byteLevels b, true) else (byteLevels own, false) := by
  have h := hearDriven_bits (a := [7, 6, 5, 4, 3, 2, 1, 0].map fun i => own.getLsbD i)
    (b := [7, 6, 5, 4, 3, 2, 1, 0].map fun i => b.getLsbD i) rfl [.recessive]
  rw [bitsValue_byte, bitsValue_byte, List.map_map, List.map_map] at h
  have cons : hearDriven (byteLevels own) (byteLevels b) =
      (.dominant :: (hearDriven (byteLevels own).tail (byteLevels b).tail).1,
        (hearDriven (byteLevels own).tail (byteLevels b).tail).2) := rfl
  rw [cons]
  change hearDriven (byteLevels own).tail (byteLevels b).tail = _ at h
  rw [h]
  split <;> rfl

/-- Another station's byte in SEND: a lesser one is heard and ends the attempt, and otherwise the station hears its own (R91). -/
theorem hearAgainst_eq (b own : Byte) (n : Nat) (s : State) :
    let before : State := { s with link := { s.link with receiver := .taking (arrivalPosition s) (s.link.sending.take n) } }
    hearAgainst b own n s =
      if b.toNat < own.toNat then endByCollision n (receiveByte b before) else receiveByte own before := by
  simp only [hearAgainst, hearDriven_byteLevels]
  split <;> simp

/-! ## A whole frame (R85, R96) -/

/-- One byte of a message as a number. -/
theorem field_byte (b : Byte) (before after : List Byte) : field (before ++ b :: after) before.length 1 = b.toNat := by
  simp [field, ofBE]

/-- The bytes of a frame give the frame back, and are a complete frame. -/
theorem heardFrame_frameBytesOf (kind : Byte) (f : HeardFrame) (h : f.payload.length ≤ 200) :
    heardFrame (frameBytesOf kind f) = (kind, f) ∧ takenComplete (frameBytesOf kind f) = true := by
  have len : field (frameBytesOf kind f) 3 1 = f.payload.length := by
    have := field_byte (byte f.payload.length) [byte Config.preamble, kind, f.sender] (f.payload ++ be 2 f.check.toNat)
    have small : f.payload.length % 256 = f.payload.length := Nat.mod_eq_of_lt (by omega)
    simpa [frameBytesOf, byte, small] using this
  have k : field (frameBytesOf kind f) 1 1 = kind.toNat :=
    field_byte kind [byte Config.preamble] _
  have sd : field (frameBytesOf kind f) 2 1 = f.sender.toNat :=
    field_byte f.sender [byte Config.preamble, kind] _
  have ck : field (frameBytesOf kind f) (4 + f.payload.length) 2 = f.check.toNat := by
    have := field_append (before := byte Config.preamble :: kind :: f.sender :: byte f.payload.length :: f.payload)
      (after := []) (width := 2) (v := f.check.toNat) (by simpa using f.check.isLt)
    have e : 4 + f.payload.length = 1 + (1 + (1 + (1 + f.payload.length))) := by omega
    rw [e]
    simpa [frameBytesOf, Nat.add_comm] using this
  constructor
  · simp only [heardFrame, len, k, sd, ck]
    simp [frameBytesOf, byte]
  · simp [takenComplete, frameLength, len]
    simp [frameBytesOf, be_length]

/-- A complete frame that the receiver can come to hear, and that is not this station's echo: the time passes to the IDLE that
ends it, and the frame is processed with the arrival position latched at its first start bit. -/
theorem receiveFrame_heard {kind : Byte} {f : HeardFrame} {s : State} (h : canHear kind f s = true)
    (fits : f.payload.length ≤ 200) (other : ∀ b, s.link.receiver ≠ .echo b) :
    ∃ t : State, receiveFrame kind f s = finish (hearFrame kind f s) (processFrame kind f (arrivalPosition s) t) ∧
      t.time = max s.time ((hearFrame kind f s).link.restFrom + 16) ∧ t.link.line = .idle ∧ t.link.receiver = .ready ∧
      t.link.queue = s.link.queue ∧ t.link.peers = s.link.peers ∧ t.link.counts = s.link.counts ∧
      t.takes = s.takes ∧ t.store = s.store ∧ t.writer = s.writer ∧ t.notices = s.notices := by
  have whole := heardFrame_frameBytesOf kind f fits
  have run : s.inRun = true ∧ s.link.tx ≠ .send := by
    simp only [canHear, Bool.and_eq_true, bne_iff_ne] at h
    exact h.1
  have took : (hearFrame kind f s).link.receiver = .taking (arrivalPosition s) (frameBytesOf kind f) := by
    revert h other
    simp only [canHear, hearFrame, arrivalPosition]
    cases s.link.receiver <;> simp
  refine ⟨{ becomeIdle (hearFrame kind f s) with link := { (becomeIdle (hearFrame kind f s)).link with receiver := .ready } },
    ?_, ?_⟩
  · have ends : (hearFrame kind f s).inRun = true ∧ (hearFrame kind f s).link.line ≠ .idle ∧
        (hearFrame kind f s).link.tx ≠ .send := by
      refine ⟨by simpa [State.inRun] using run.1, by simp [hearFrame], ?_⟩
      simp only [hearFrame]
      split <;> simp_all
    have idle : (becomeIdle (hearFrame kind f s)).link.receiver = (hearFrame kind f s).link.receiver := by
      simp [becomeIdle, advanceTime]
    have rests : mayRest (hearFrame kind f s) = true := by simpa [mayRest, and_assoc] using ends
    simp only [receiveFrame, h, lineIdle, rests, if_true]
    simp [endReception, idle, took, whole]
  · simp [becomeIdle, advanceTime, Config.idleTime, hearFrame]

/-! ## The promotion test at an arrival (R60, R46) -/

/-- With no promotion due an arrival makes none. -/
theorem promoteAtStamp_of_not_due {s : State} (h : promotionDue s = false) : promoteAtStamp s = s := by
  simp [promoteAtStamp, h]

/-- A promotion due at an arrival is made before the ring takes the frame, or left until after it. -/
theorem promoteAtStamp_cases (s : State) (h : promotionDue s = true) :
    promoteAtStamp s = { s with orders := s.orders + 1 } ∨
      promoteAtStamp s = promote .beforeFrame { s with orders := s.orders + 1 } := by
  simp only [promoteAtStamp, h, if_true]
  split
  · exact .inl rfl
  · exact .inr rfl

end Sys2Proof.Machine
end

