-- ==== Sys2Proof/Laws/PerInstr.lean ====
section
/-! SUPPORT. The operand-range law, command by command: how many bytes a well-formed command carries, and which tracks it can
name. -/

namespace Sys2Proof.Laws

open Sys2Proof

/-- The bytes that a command carries: the arguments of a host command, the payload of a heard frame, the bytes of a released
selection (R85, R177, R193). -/
def carriedBytes (i : Instr) : List Byte :=
  match i with
  | .powerOn _ => []
  | .reset _ => []
  | .frameArrival _ => []
  | .returnToHigh _ _ => []
  | .cueFire _ => []
  | .awaitedStop _ => []
  | .postRollComplete _ => []
  | .halfDayStop _ => []
  | .pendingStartPromotion => []
  | .blockEnd _ => []
  | .clockLost => []
  | .referencePulse => []
  | .recordKey => []
  | .successfulCompletion => []
  | .failedCompletion => []
  | .writeIssue => []
  | .lineIdle => []
  | .deferralExpiry => []
  | .successfulSend => []
  | .collision => []
  | .announceTimerExpiry => []
  | .peerAbsent _ => []
  | .statusFrame f => f.payload
  | .noteFrame f => f.payload
  | .noteRequestFrame f => f.payload
  | .noteGoneFrame f => f.payload
  | .configureClock args => args
  | .configureTrack args => args
  | .configureCapture args => args
  | .configureMedia args => args
  | .setRunNumber args => args
  | .commit args => args
  | .setTrim args => args
  | .setGate args => args
  | .setScene args => args
  | .setNextTake args => args
  | .jamTimecode args => args
  | .start args => args
  | .stop args => args
  | .addNote args => args
  | .setCue args => args
  | .cancelCue args => args
  | .clearClip args => args
  | .mediaRetry args => args
  | .captureRestart args => args
  | .readStatus args => args
  | .readSlot args => args
  | .readPeer args => args
  | .readNote args => args
  | .readClip args => args
  | .readNotices args => args
  | .setNoticeMask args => args
  | .ackNotices args => args
  | .unknownCommand _ args => args
  | .responseRead => []
  | .lineBusy _ => []
  | .selectionReleased received => received

/-- The most bytes that its port lets a command carry: 255 arguments after a one-byte length, 200 bytes of payload, 256 bytes of a
message that lacks its last (R85, R193). -/
def byteLimit (i : Instr) : Nat :=
  match i with
  | .selectionReleased _ => 256
  | .statusFrame _ => 200
  | .noteFrame _ => 200
  | .noteRequestFrame _ => 200
  | .noteGoneFrame _ => 200
  | _ => 255

/-- The law: a well-formed command stays within the byte limit of its port, and names a track only from 1 to 16. -/
def OperandRange.Statement (i : Instr) : Prop :=
  WellFormed i = true →
    (carriedBytes i).length ≤ byteLimit i ∧ ∀ track f, i = .returnToHigh track f → 1 ≤ track ∧ track ≤ 16

/-- A command of argument bytes meets the law. -/
theorem ofArgs {i : Instr} {args : List Byte} (wf : WellFormed i = argsFit args) (carried : carriedBytes i = args)
    (limit : byteLimit i = 255) (other : ∀ track f, i ≠ .returnToHigh track f) : OperandRange.Statement i := by
  intro h
  rw [wf] at h
  rw [carried, limit]
  exact ⟨of_decide_eq_true h, fun _ _ e => absurd e (other _ _)⟩

/-- A heard frame meets the law. -/
theorem ofFrame {i : Instr} {f : HeardFrame} (wf : WellFormed i = payloadFits f) (carried : carriedBytes i = f.payload)
    (limit : byteLimit i = 200) (other : ∀ track f, i ≠ .returnToHigh track f) : OperandRange.Statement i := by
  intro h
  rw [wf] at h
  rw [carried, limit]
  exact ⟨of_decide_eq_true h, fun _ _ e => absurd e (other _ _)⟩

/-- An event that carries no bytes meets the law. -/
theorem ofEvent {i : Instr} (carried : carriedBytes i = []) (other : ∀ track f, i ≠ .returnToHigh track f) :
    OperandRange.Statement i := by
  intro _
  rw [carried]
  exact ⟨Nat.zero_le _, fun _ _ e => absurd e (other _ _)⟩

theorem OperandRange.powerOn (strap : Fin 8) : OperandRange.Statement (.powerOn strap) :=
  ofEvent rfl nofun

theorem OperandRange.reset (strap : Fin 8) : OperandRange.Statement (.reset strap) :=
  ofEvent rfl nofun

theorem OperandRange.frameArrival (f : FrameIn) : OperandRange.Statement (.frameArrival f) :=
  ofEvent rfl nofun

theorem OperandRange.returnToHigh (track : Nat) (f : FrameIn) : OperandRange.Statement (.returnToHigh track f) := by
  intro h
  refine ⟨Nat.zero_le _, ?_⟩
  intro t g e
  cases e
  have h : (decide (1 ≤ track) && decide (track ≤ 16)) = true := h
  simpa using h

theorem OperandRange.cueFire (f : FrameIn) : OperandRange.Statement (.cueFire f) :=
  ofEvent rfl nofun

theorem OperandRange.awaitedStop (f : FrameIn) : OperandRange.Statement (.awaitedStop f) :=
  ofEvent rfl nofun

theorem OperandRange.postRollComplete (f : FrameIn) : OperandRange.Statement (.postRollComplete f) :=
  ofEvent rfl nofun

theorem OperandRange.halfDayStop (f : FrameIn) : OperandRange.Statement (.halfDayStop f) :=
  ofEvent rfl nofun

theorem OperandRange.pendingStartPromotion : OperandRange.Statement .pendingStartPromotion :=
  ofEvent rfl nofun

theorem OperandRange.blockEnd (f : FrameIn) : OperandRange.Statement (.blockEnd f) :=
  ofEvent rfl nofun

theorem OperandRange.clockLost : OperandRange.Statement .clockLost :=
  ofEvent rfl nofun

theorem OperandRange.referencePulse : OperandRange.Statement .referencePulse :=
  ofEvent rfl nofun

theorem OperandRange.recordKey : OperandRange.Statement .recordKey :=
  ofEvent rfl nofun

theorem OperandRange.successfulCompletion : OperandRange.Statement .successfulCompletion :=
  ofEvent rfl nofun

theorem OperandRange.failedCompletion : OperandRange.Statement .failedCompletion :=
  ofEvent rfl nofun

theorem OperandRange.writeIssue : OperandRange.Statement .writeIssue :=
  ofEvent rfl nofun

theorem OperandRange.lineIdle : OperandRange.Statement .lineIdle :=
  ofEvent rfl nofun

theorem OperandRange.deferralExpiry : OperandRange.Statement .deferralExpiry :=
  ofEvent rfl nofun

theorem OperandRange.successfulSend : OperandRange.Statement .successfulSend :=
  ofEvent rfl nofun

theorem OperandRange.collision : OperandRange.Statement .collision :=
  ofEvent rfl nofun

theorem OperandRange.announceTimerExpiry : OperandRange.Statement .announceTimerExpiry :=
  ofEvent rfl nofun

theorem OperandRange.peerAbsent (p : Fin 8) : OperandRange.Statement (.peerAbsent p) :=
  ofEvent rfl nofun

theorem OperandRange.statusFrame (f : HeardFrame) : OperandRange.Statement (.statusFrame f) :=
  ofFrame rfl rfl rfl nofun

theorem OperandRange.noteFrame (f : HeardFrame) : OperandRange.Statement (.noteFrame f) :=
  ofFrame rfl rfl rfl nofun

theorem OperandRange.noteRequestFrame (f : HeardFrame) : OperandRange.Statement (.noteRequestFrame f) :=
  ofFrame rfl rfl rfl nofun

theorem OperandRange.noteGoneFrame (f : HeardFrame) : OperandRange.Statement (.noteGoneFrame f) :=
  ofFrame rfl rfl rfl nofun

theorem OperandRange.configureClock (args : List Byte) : OperandRange.Statement (.configureClock args) :=
  ofArgs rfl rfl rfl nofun

theorem OperandRange.configureTrack (args : List Byte) : OperandRange.Statement (.configureTrack args) :=
  ofArgs rfl rfl rfl nofun

theorem OperandRange.configureCapture (args : List Byte) : OperandRange.Statement (.configureCapture args) :=
  ofArgs rfl rfl rfl nofun

theorem OperandRange.configureMedia (args : List Byte) : OperandRange.Statement (.configureMedia args) :=
  ofArgs rfl rfl rfl nofun

theorem OperandRange.setRunNumber (args : List Byte) : OperandRange.Statement (.setRunNumber args) :=
  ofArgs rfl rfl rfl nofun

theorem OperandRange.commit (args : List Byte) : OperandRange.Statement (.commit args) :=
  ofArgs rfl rfl rfl nofun

theorem OperandRange.setTrim (args : List Byte) : OperandRange.Statement (.setTrim args) :=
  ofArgs rfl rfl rfl nofun

theorem OperandRange.setGate (args : List Byte) : OperandRange.Statement (.setGate args) :=
  ofArgs rfl rfl rfl nofun

theorem OperandRange.setScene (args : List Byte) : OperandRange.Statement (.setScene args) :=
  ofArgs rfl rfl rfl nofun

theorem OperandRange.setNextTake (args : List Byte) : OperandRange.Statement (.setNextTake args) :=
  ofArgs rfl rfl rfl nofun

theorem OperandRange.jamTimecode (args : List Byte) : OperandRange.Statement (.jamTimecode args) :=
  ofArgs rfl rfl rfl nofun

theorem OperandRange.start (args : List Byte) : OperandRange.Statement (.start args) :=
  ofArgs rfl rfl rfl nofun

theorem OperandRange.stop (args : List Byte) : OperandRange.Statement (.stop args) :=
  ofArgs rfl rfl rfl nofun

theorem OperandRange.addNote (args : List Byte) : OperandRange.Statement (.addNote args) :=
  ofArgs rfl rfl rfl nofun

theorem OperandRange.setCue (args : List Byte) : OperandRange.Statement (.setCue args) :=
  ofArgs rfl rfl rfl nofun

theorem OperandRange.cancelCue (args : List Byte) : OperandRange.Statement (.cancelCue args) :=
  ofArgs rfl rfl rfl nofun

theorem OperandRange.clearClip (args : List Byte) : OperandRange.Statement (.clearClip args) :=
  ofArgs rfl rfl rfl nofun

theorem OperandRange.mediaRetry (args : List Byte) : OperandRange.Statement (.mediaRetry args) :=
  ofArgs rfl rfl rfl nofun

theorem OperandRange.captureRestart (args : List Byte) : OperandRange.Statement (.captureRestart args) :=
  ofArgs rfl rfl rfl nofun

theorem OperandRange.readStatus (args : List Byte) : OperandRange.Statement (.readStatus args) :=
  ofArgs rfl rfl rfl nofun

theorem OperandRange.readSlot (args : List Byte) : OperandRange.Statement (.readSlot args) :=
  ofArgs rfl rfl rfl nofun

theorem OperandRange.readPeer (args : List Byte) : OperandRange.Statement (.readPeer args) :=
  ofArgs rfl rfl rfl nofun

theorem OperandRange.readNote (args : List Byte) : OperandRange.Statement (.readNote args) :=
  ofArgs rfl rfl rfl nofun

theorem OperandRange.readClip (args : List Byte) : OperandRange.Statement (.readClip args) :=
  ofArgs rfl rfl rfl nofun

theorem OperandRange.readNotices (args : List Byte) : OperandRange.Statement (.readNotices args) :=
  ofArgs rfl rfl rfl nofun

theorem OperandRange.setNoticeMask (args : List Byte) : OperandRange.Statement (.setNoticeMask args) :=
  ofArgs rfl rfl rfl nofun

theorem OperandRange.ackNotices (args : List Byte) : OperandRange.Statement (.ackNotices args) :=
  ofArgs rfl rfl rfl nofun

theorem OperandRange.unknownCommand (code : Byte) (args : List Byte) : OperandRange.Statement (.unknownCommand code args) := by
  intro h
  have h : (namesNoCommand code && argsFit args) = true := h
  rw [Bool.and_eq_true] at h
  exact ⟨of_decide_eq_true h.2, nofun⟩

theorem OperandRange.responseRead : OperandRange.Statement .responseRead :=
  ofEvent rfl nofun

theorem OperandRange.lineBusy (b : Byte) : OperandRange.Statement (.lineBusy b) :=
  ofEvent rfl nofun

theorem OperandRange.selectionReleased (received : List Byte) : OperandRange.Statement (.selectionReleased received) := by
  intro h
  refine ⟨?_, nofun⟩
  have h : isPartialMessage received = true := h
  show received.length ≤ 256
  match received, h with
  | [], _ => exact Nat.zero_le _
  | [_], _ => simp
  | code :: len :: rest, h =>
    have h : (code.toNat != 0 && decide (rest.length < len.toNat)) = true := h
    rw [Bool.and_eq_true] at h
    have short := of_decide_eq_true h.2
    have := len.isLt
    simp only [List.length_cons]
    omega

end Sys2Proof.Laws
end

