-- ==== Sys2Proof/Tests/Slice0.lean ====
section
/-! SUPPORT. The model's own tests: ill-formed commands refused, the spec's worked examples, one small step for commands whose
result the spec gives in figures, and for each statement with hypotheses a state and operands that meet them. -/

namespace Sys2Proof.Tests

open Sys2Proof Sys2Proof.Machine Sys2Proof.Safety

/-! ## Ill-formed commands -/

def silence : Reading := { h := 0, l := 0, x := 0, valid := true }

def quietFrame : FrameIn := Vector.replicate 16 silence

def longFrame : HeardFrame := { sender := 0, payload := List.replicate 201 0, check := 0 }

theorem test_track_zero_is_ill_formed : WellFormed (.returnToHigh 0 quietFrame) = false := by decide
theorem test_track_17_is_ill_formed : WellFormed (.returnToHigh 17 quietFrame) = false := by decide
theorem test_long_payload_and_256_arguments_are_ill_formed :
    WellFormed (.statusFrame longFrame) = false ∧ WellFormed (.start (List.replicate 256 0)) = false := by decide +kernel
theorem test_known_code_is_ill_formed : WellFormed (.unknownCommand 0x20 []) = false := by decide
theorem test_response_read_code_is_ill_formed : WellFormed (.unknownCommand 0x00 []) = false := by decide
theorem test_whole_message_is_ill_formed : WellFormed (.selectionReleased [0x20, 0]) = false := by decide
theorem test_unknown_code_is_well_formed : WellFormed (.unknownCommand 0x15 [1]) = true := by decide
theorem test_partial_message_is_well_formed : WellFormed (.selectionReleased [0x10, 3, 1]) = true := by decide

/-! ## The spec's worked figures -/

/-- The worked conversion of section 1.6: N = 5,793,000,000, path exponent 4. -/
theorem test_worked_conversion :
    stage2 .round false 5793000000 4 = { sign := false, exponent := 21, fraction := 91433 } ∧
      stage2 .chop false 5793000000 4 = { sign := false, exponent := 21, fraction := 91432 } := by decide

/-- The rounding carry (R15): X = 1,023, trim 1,025. -/
theorem test_rounding_carry :
    stage2 .round false 1048575 0 = { sign := false, exponent := 13, fraction := 0 } ∧
      stage2 .chop false 1048575 0 = { sign := false, exponent := 12, fraction := 262143 } := by decide

/-- The greatest word of Stage 2 (R17) and the flush of R16 with k = 6 and H = 1. -/
theorem test_greatest_and_flushed :
    stage2 .round true (8388608 * 65535) 0 = { sign := true, exponent := 31, fraction := 262136 } ∧
      stage2 .round true 4096 6 = FieldWord.zero := by decide

/-- The table of R19, in units of 2^-57. -/
theorem test_stage3_table :
    stage3 .chop (2 ^ 57) = (8388607, true) ∧ stage3 .chop (2 ^ 57 - 2 ^ 33) = (8388607, false) ∧
      stage3 .round (2 ^ 57 - 2 ^ 33) = (8388607, true) ∧ stage3 .round (-2 ^ 57) = (-8388608, false) ∧
      stage3 .chop (-2 ^ 57 - 2 ^ 33) = (-8388608, false) ∧ stage3 .round (-2 ^ 57 - 2 ^ 33) = (-8388608, true) ∧
      stage3 .round (3 * 2 ^ 33) = (2, false) ∧ stage3 .chop (3 * 2 ^ 33) = (1, false) ∧
      stage3 .round (-2 ^ 33) = (-1, false) := by decide

/-- The example of R30. -/
theorem test_timecode : timecode .r48 .f25 4147150000 = (23, 59, 58, 23, 1840) := by decide

/-- Frame 5 of the worked example of section 5.6: +7 across midnight. Half a day ahead counts as later (R1). -/
theorem test_signed_difference :
    signedDiff 4147200000 4147199998 5 = 7 ∧ signedDiff 4147200000 5 4147199998 = -7 ∧
      isLater 4147200000 2073600000 0 = true ∧ isEarlier 4147200000 2073600001 0 = true := by decide

/-- The worked word s = 0, e = 21, f = 91,433 in its 3 bytes: 21 * 262,144 + 91,433 = 0x556529 (R190). -/
theorem test_word_bytes : wordBytes { sign := false, exponent := 21, fraction := 91433 } = [0x55, 0x65, 0x29] := by decide

/-- The deferrals of R90 for stations 0 and 7. -/
theorem test_deferrals :
    deferral (State.resetAt 0) = 8 ∧ deferral (State.resetAt 7) = 64 ∧
      deferral { State.resetAt 7 with link := { (State.resetAt 7).link with penalty := true } } = 128 := by decide

/-- Track 5 of the worked example of section 8.4. -/
def track5 : MixTrack :=
  { settings :=
      { openThreshold := 207, closeThreshold := 164, closeHold := 1, attack := 1024, decay := 512, release := 1024,
        sustain := 4096, duck := 2048 }
    gate := .closed, hold := 0, envelope := .closed, gain := 0, peak := 0 }

/-- Block ends 2, 9 and 12: the gate opens into ATTACK, DECAY reaches the duck level, the second quiet block closes the gate. -/
theorem test_duck_example :
    (envelopeUpdate 4096 (gateUpdate { track5 with peak := 207 * 2 ^ 29 })).gain = 1024 ∧
      envelopeUpdate 2048 { track5 with gate := .opened, envelope := .decay, gain := 2560 } =
        { track5 with gate := .opened, envelope := .held, gain := 2048 } ∧
      envelopeUpdate 4096
          (gateUpdate { track5 with gate := .opened, hold := 1, envelope := .held, gain := 4096, peak := 164 * 2 ^ 29 - 1 }) =
        { track5 with gate := .closed, envelope := .release, gain := 3072, peak := 164 * 2 ^ 29 - 1 } := by decide

/-- The plain sum of section 8.4 in units of 2^-57: 0.5 at full gain and 0.25 at half gain make 5,242,880. -/
theorem test_plain_mix :
    stage3 .round
      (wordUnits { sign := false, exponent := 27, fraction := 0 } * 4096 +
        wordUnits { sign := false, exponent := 26, fraction := 0 } * 2048) = (5242880, false) := by decide

/-! ## Small states -/

/-- A station in RUN on a card of 10,000 blocks, its line IDLE. -/
def running : State :=
  { State.reset with
    port := { State.reset.port with phase := .run }
    counter := { State.reset.counter with newest := 1000 }
    writer := { State.reset.writer with range := some (0, 9999), cursor := some 0, space := some .ample }
    link := { State.reset.link with line := .idle, announce := some 0, receiver := .ready } }

/-- A card range set in SETUP. -/
def configured : State := { State.reset with writer := { State.reset.writer with range := some (0, 127) } }

/-- A ROLLING take of this station from position 900, not yet written. -/
def rollingTake : Take :=
  { phase := .rolling, serial := 1, label := { scene := [65], number := 1 }, former := [], origin := 0, sr := 900, e := none,
    z := none, postRoll := 0, h := 0, next := 900, watch := 1001, w := 0, g := 0, gaps := [], gapsMerged := false, flags := {},
    tracks := Vector.replicate 16 (some {}), noteRefs := [], firstBlock := none, blocks := 0, indexIssued := false }

/-- The state with this take in slot 1. -/
def withTake (t : Take) (s : State) : State := setSlot 0 (some t) s

/-- The state with a take in every slot, all CLOSING and not yet accounted. -/
def allClosing : State :=
  let t : Take := { rollingTake with phase := .closing, e := some 950, z := some 2000 }
  setSlot 2 (some { t with serial := 3 }) (setSlot 1 (some { t with serial := 2 }) (setSlot 0 (some t) running))

/-- A pending start of this station. -/
def waitingStart (reached : Bool) : PendingStart :=
  { label := { scene := [66], number := 2 }, origin := 0, start := 990, source := .command, reached := reached }

/-- The card with this space state. -/
def withSpace (x : Space) (s : State) : State := { s with writer := { s.writer with space := some x } }

/-- A write in flight at address 0. -/
def withWrite (x : Content) (a : Attempt) (stale retry : Bool) (s : State) : State :=
  { s with
    writer :=
      { s.writer with
        inFlight := some { addr := 0, content := x, attempt := a, stale := stale, ofRetryCommand := retry } } }

/-- The response code held after a command. -/
def answer (i : Instr) (s : State) : Option ResponseCode :=
  match exec i s with
  | .next t => t.port.response.map Response.code
  | _ => none

/-- A field of the next state. -/
def after {α : Type} (i : Instr) (s : State) (f : State → α) : Option α :=
  match exec i s with
  | .next t => some (f t)
  | _ => none

/-! ## Single steps -/

/-- COMMIT with a range of exactly 128 blocks is taken; NEAR FULL is raised (R158, R180). -/
theorem test_commit_128_blocks :
    answer (.commit []) configured = some .ok ∧
      after (.commit []) configured (isPending .nearFull) = some true := by decide

/-- COMMIT with 127 blocks is INCOMPLETE. -/
theorem test_commit_127_blocks :
    answer (.commit []) { configured with writer := { configured.writer with range := some (1, 127) } } =
      some .incomplete := by decide

/-- The first START: Sr lies P before the newest position, over midnight (R62): 1,000 - 96,000 modulo D. -/
theorem test_start_requests_over_midnight :
    after (.start []) running (fun t => t.takes.slots[0].map Take.sr) = some (some 4147105000) := by decide

/-- STOP in ROLLING gives POST with E the newest position (R65, R68). -/
theorem test_stop_gives_post :
    after (.stop []) (withTake rollingTake running) (fun t => t.takes.slots[0].map fun u => (u.phase, u.e)) =
      some (some (.post, some 1000)) := by decide

/-- JAM TIMECODE to 10:00:00:00 at 48,000: the newest position is the one before J = 1,728,000,000 (R36, R37). -/
theorem test_jam : after (.jamTimecode [10, 0, 0, 0]) running (fun t => t.counter.newest) = some 1727999999 := by decide

/-- SET SCENE keeps twelve characters and replaces the unprintable (R80). -/
theorem test_set_scene :
    after (.setScene [3, 65, 7, 66]) running (fun t => (t.takes.scene, t.takes.nextTake)) = some ([65, 45, 66], 1) := by
  decide

/-- SET NEXT TAKE clamps 0 to 1 and 1,000 to 999 (R81). -/
theorem test_set_next_take :
    after (.setNextTake [0, 0]) running (fun t => t.takes.nextTake) = some 1 ∧
      after (.setNextTake [3, 232]) running (fun t => t.takes.nextTake) = some 999 := by decide

/-- SET CUE at the newest position is LATE, one after it is taken (R38). -/
theorem test_set_cue :
    answer (.setCue [1, 0, 0, 0, 3, 232]) running = some .late ∧
      answer (.setCue [1, 0, 0, 0, 3, 233]) running = some .ok := by decide

/-- A failed first write is re-issued as a retry at the next address (R168, step 1 of section 9's worked sequence). -/
theorem test_failed_first_write :
    after .failedCompletion (withWrite (.fault [] 0) .first false false running)
        (fun t => (t.writer.cursor, t.writer.skipped, t.writer.inFlight.map fun w => (w.addr, w.attempt))) =
      some (some 1, [0], some (1, .retry)) := by decide

/-- A failed retry is MEDIA FAULT with its content held (R168, step 2). -/
theorem test_failed_retry :
    after .failedCompletion (withWrite (.fault [] 0) .retry false false running)
        (fun t => (t.writer.capture, t.writer.held)) =
      some (.mediaFault, some (.fault [] 0)) := by decide

/-- A completed index record empties the slot and raises TAKE CLOSED (R167). -/
theorem test_index_completes :
    after .successfulCompletion
        (withWrite (.index 0 16 rollingTake) .first false false (withTake { rollingTake with phase := .closing } running))
        (fun t => (t.takes.slots[0].isSome, isPending .takeClosed t)) =
      some (false, true) := by decide

/-- The loss timer runs 4 ms (R31). -/
theorem test_clock_lost :
    after .clockLost State.reset (fun t => (t.time, t.counter.clock, isPending .clockLost t)) =
      some (4000, .lost, true) := by decide

/-- A frame in SETUP is stamped and the port sends 0 (R25, R147). -/
theorem test_setup_frame :
    after (.frameArrival quietFrame) State.reset (fun t => (t.counter.newest, t.mixer.output, t.ring.frames.length)) =
      some (1, some 0, 0) := by decide

/-- A frame in RUN: 16 words in the ring at the next position (R41). -/
theorem test_run_frame :
    after (.frameArrival quietFrame) running
        (fun t => (t.counter.newest, t.ring.frames.map fun f => (f.pos, f.words.length, f.mix))) =
      some (1001, [(1001, 16, none)]) := by decide

/-- A ROLLING take of Q = 0 with these note references, every position of which is accounted, and these addresses of failed
writes listed. -/
def accountedRolling (refs : List NoteId := []) (skipped : List Nat := []) : State :=
  withTake { rollingTake with next := 1001, w := 101, noteRefs := refs }
    { running with
      takes := { running.takes with postRoll := 0 }, writer := { running.writer with skipped := skipped } }

/-- The references of the take in slot 1, whether its index record is issued, and the kind of write in flight. -/
def recordState (t : State) : Option (Nat × Bool) × Option Nat :=
  (t.takes.slots[0].map fun u => (u.noteRefs.length, u.indexIssued), t.writer.inFlight.map fun w => w.content.code)

/-- ADD NOTE of a SLATE with the attach option and no text. -/
def slateNote : Instr := .addNote [1, 1, 0, 0]

/-- The index record that an entry to CLOSING asks for is issued by the decision at that event, whatever command waits next, and
before a fault request (R161, R164, R165); ADD NOTE then finds no take to attach to (R127, R161). -/
theorem test_record_issued_at_the_entry :
    after (.stop []) (accountedRolling [] [7]) recordState = some (some (0, true), some 3) ∧
      after (.stop []) { accountedRolling with pending := [slateNote] } recordState = some (some (0, true), some 3) ∧
      (match exec (.stop []) accountedRolling with
        | .next t => answer slateNote t
        | _ => none) = some .refused := by decide

/-- A note taken at the same time as the entry to CLOSING, which stands before it in the queue, attaches and is in the record,
with 32 references too, which take no more (R128, R133, R135; notes/assumptions/22.md). -/
theorem test_note_with_closing_attaches :
    let closed (refs : List NoteId) :=
      match exec slateNote (accountedRolling refs) with
      | .next t =>
        match exec .successfulCompletion { t with pending := [] } with
        | .next t => after (.stop []) t recordState
        | _ => none
      | _ => none
    closed [] = some (some (1, true), some 3) ∧
      closed (List.replicate 32 { originator := 3, run := 0, seq := 1 }) = some (some (32, true), some 3) := by decide

/-- A note after the entry attaches while positions of the take are still to be accounted (R128, R135). -/
theorem test_note_after_closing_attaches :
    let last : RingFrame := { pos := 1000, words := [], mix := none, clips := [] }
    let s : State := { accountedRolling with ring := { frames := [last], discards := 0 } }
    (match exec (.stop []) (withTake { rollingTake with next := 1000, w := 100 } s) with
      | .next t => after slateNote t recordState
      | _ => none) = some (some (1, false), some 1) := by decide

/-- RESET within a selection: the bytes before it are discarded and those after it are no command; the next selection is (R177,
R188). -/
theorem test_reset_discards_a_message :
    let begun := State.hostByte running.select 0x20
    after (.reset 0) begun (fun t => ((t.hostByte 0).release.pending, (t.release.deliver [0x30, 1, 1]).pending)) =
        some ([], [.readStatus [1]]) ∧
      (begun.hostByte 0).release.pending = [.start []] ∧ begun.release.pending = [.selectionReleased [0x20]] := by decide

/-- A range of half a day, the longest R68 leaves, holds its start and its end, and what is left of it is counted from the
next-to-write position (R43). -/
theorem test_half_day_range :
    let t : Take := { rollingTake with phase := .closing, z := some 2073600900 }
    rollingTake.sr = 900 ∧ [899, 900, 2073600900, 2073600901].map (inRange 4147200000 0 t) = [false, true, true, false] ∧
      inRange 4147200000 100 { t with phase := .post, e := some 2073600800 } 900 = true ∧
      slotNeeds 4147200000 0 (some { t with next := 900 }) 900 = true ∧
      slotNeeds 4147200000 0 (some { t with next := 2073600901 }) 900 = false := by decide

/-- A run joins two entries, follows one, precedes one, stands alone, or is folded into a last entry that carries the merged flag,
which takes no run by adjacency (R75). -/
theorem test_runs_in_the_gap_list :
    let got (merged : Bool) (a n : Nat) : List (Nat × Nat) × Bool :=
      let t := insertRun 4147200000 a n { rollingTake with gaps := [⟨910, 2⟩, ⟨915, 1⟩], gapsMerged := merged }
      (t.gaps.map fun x => (x.first, x.count), t.gapsMerged)
    got false 912 3 = ([(910, 6)], false) ∧ got false 912 1 = ([(910, 3), (915, 1)], false) ∧
      got false 914 1 = ([(910, 2), (914, 2)], false) ∧ got false 913 1 = ([(910, 2), (913, 1), (915, 1)], false) ∧
      got true 912 3 = ([(910, 5), (915, 1)], true) ∧ got true 916 4 = ([(910, 2), (915, 5)], true) := by decide

/-- A ROLLING slot covers an arriving position however far behind its start lies; a POST slot does not after E + Q (R45). -/
theorem test_covers_arrival :
    coversArrival 4147200000 24000 { rollingTake with sr := 2073601001 } 1001 = true ∧
      inRange 4147200000 24000 { rollingTake with sr := 2073601001 } 1001 = true ∧
      coversArrival 4147200000 24000 rollingTake (900 + 2073600001) = true ∧
      inRange 4147200000 24000 rollingTake (900 + 2073600001) = false ∧
      coversArrival 4147200000 24000 { rollingTake with phase := .post, e := some 1000 } 25001 = false := by decide

/-- An unknown code is answered UNKNOWN; an empty port reads 0xFF 0x00 0x00 (R177, R193). -/
theorem test_port_events :
    answer (.unknownCommand 0x15 []) running = some .unknown ∧
      after .responseRead running (fun t => t.port.output) = some [255, 0, 0] := by decide

/-- A step takes the front command and leaves the rest waiting. -/
theorem test_step_takes_the_front :
    (match Machine.step { running with pending := [.start [], .stop []] } with
      | .next t => t.pending
      | _ => []) = [.stop []] := by decide

/-! ## Hypotheses met

For each statement with hypotheses, a state and operands that meet them together; a statement by clauses has one conjunct for
each clause, at a boundary of its range. -/

/-- A frame heard from this sender with this payload and the check that R86 gives it. -/
def heard (kind sender : Byte) (payload : List Byte) : HeardFrame :=
  { sender := sender, payload := payload, check := crc (kind :: sender :: byte payload.length :: payload) }

/-- The fields of a STATUS from station 3. -/
def peerStatus (phase number start stop : Nat) : StatusFields :=
  { run := 0, rateCode := 1, tcCode := 25, pos := 1000, capture := 0, phase := phase, origin := 3, scene := [66],
    number := number, start := start, stop := stop, nextTake := 1, highWater := 0 }

/-- A ring frame at a position. -/
def ringFrame (p : Nat) : RingFrame := { pos := p, words := [], mix := none, clips := [] }

/-- A note of the station and the run at a sequence. -/
def noteOf (station seq : Nat) : Note :=
  { id := { originator := station, run := 0, seq := seq }, kind := .slate, ref := none, pos := none, track := none, text := [] }

/-- The state with these notes stored. -/
def withNotes (l : List StoredNote) (s : State) : State := { s with store := { s.store with notes := l, seq := 9 } }

/-- The state with this pending start. -/
def withPending (reached : Bool) (s : State) : State := makePending (waitingStart reached) s

/-- The state with this newest position. -/
def atPosition (p : Nat) (s : State) : State := { s with counter := { s.counter with newest := p } }

/-- The transmitter in this state with these entries queued. -/
def withQueue (x : TxState) (q : List TxEntry) (s : State) : State := { s with link := { s.link with tx := x, queue := q } }

theorem test_meets_StepRunsFrontCommand :
    ({ running with pending := [.clockLost] } : State).pending = .clockLost :: [] := by decide

theorem test_meets_EmptyQueueStepIsOneTick : running.pending = [] ∧ running.writer.inFlight = none := by decide

theorem test_meets_PowerOnAndResetLine :
    (running.select.hostByte 0x20).port.selection = .receiving [0x20] ∧ running.port.selection = .released ∧
      running.select.port.selection = .receiving [] := by decide

theorem test_meets_PhaseDecidesWhatIsTaken :
    running.port.phase = .run ∧ State.reset.port.phase = .setup ∧
      ({ running with writer := { running.writer with capture := .mediaFault } } : State).writer.capture = .mediaFault := by
  decide

theorem test_meets_ArgumentLengthIsChecked :
    running.port.phase = .run ∧ State.reset.port.phase = .setup ∧ ([0] : List Byte).length ≠ 0 ∧
      ([0, 0, 0, 0, 0, 0] : List Byte).length ≠ 5 ∧ ([0, 0, 0] : List Byte).length < 4 ∧ ([2, 65] : List Byte) = 2 :: [65] ∧
      ([65] : List Byte).length ≠ (2 : Byte).toNat ∧
      (([1, 0, 4, 3, 2, 65] : List Byte) = 1 :: 0 :: 4 :: [3, 2, 65] ∧ (4 : Byte).getLsbD 2 = true ∧
        ([3, 2, 65] : List Byte).length ≠ 1 + 1 + field [3, 2, 65] 1 1) ∧
      (([1, 0, 4, 3] : List Byte) = 1 :: 0 :: 4 :: [3] ∧ ([3] : List Byte).length ≤ 1) ∧
      ([1, 2] : List Byte) = [1, 2] ∧ (1 : Byte) ≠ 7#8 := by decide

theorem test_meets_UnknownReleaseAndResponseRead :
    namesNoCommand 0x07 = true ∧ namesNoCommand 0xFF = true ∧ running.port.response = none ∧
      (respond .ok [] running).port.response = some { code := .ok, data := [] } := by decide

theorem test_meets_ReadsAnswerAndChangeNothing :
    (0 = 0 ∨ 16 < 0) ∧ (17 = 0 ∨ 16 < 17) ∧ (8 = 0 ∨ 7 < 8) ∧ (4 = 0 ∨ 3 < 4) ∧ 7 < 8 ∧
      (withNotes [{ note := noteOf 0 1, state := .pending }] running).store.notes[0]? =
        some { note := noteOf 0 1, state := .pending } ∧ running.store.notes.length ≤ 0 := by decide

theorem test_meets_AckAndMaskNotices : 2 ^ 20 - 1 < 2 ^ 32 ∧ 2 ^ 20 - 1 < 2 ^ 20 ∧ 2 ^ 20 ≤ 2 ^ 20 ∧ 2 ^ 20 < 2 ^ 32 := by decide

theorem test_meets_ConfigureClockTrackMediaAndRun :
    State.reset.port.phase = .setup ∧ (255 ≤ 255 ∧ ((3 ≠ 1 ∧ 3 ≠ 2) ∨ 1 < 0) ∧ 255 < 256 ∧ 256 < 65536) ∧
      (3 ≤ 3 ∧ 6 ≤ 6 ∧ 16 ≤ 16 ∧ 16 ≠ (0 : Fin 16).val + 1) ∧ (5 = 5 ∧ 5 ≠ 0) ∧ 2 < 3 ∧ 6 < 7 ∧ 0 ≤ 2 ^ 32 - 1 ∧
      2 ^ 32 ≤ 2 ^ 32 ∧ 2 ^ 32 < 2 ^ 40 ∧ 65535 ≤ 65535 ∧ 65535 < 65536 := by decide

theorem test_meets_ConfigureCaptureSetsFiveValues :
    State.reset.port.phase = .setup ∧ 524289 < 2 ^ 32 ∧ 255 < 256 ∧ (1 < 2 ∨ 255 < 256) ∧ 256 < 65536 := by decide

theorem test_meets_CommitEntersRun :
    State.reset.port.phase = .setup ∧ State.reset.writer.range = none ∧ configured.writer.range = some (0, 127) ∧
      126 + 1 < 128 + 0 ∧ 128 + 0 ≤ 127 + 1 ∧ configured.front.tracks[(15 : Fin 16)].kind ≠ .off ∧
      configured.link.queue = [] ∧ configured.link.tx = .standby ∧ configured.link.listenOnly = false ∧
      configured.writer.space = none := by decide

theorem test_meets_SetTrimAndSetGate : 65535 ≤ 65535 ∧ 17 < 256 ∧ 16 < 17 ∧ 16 = (15 : Fin 16).val + 1 ∧ 2 ^ 32 - 1 < 2 ^ 32 := by
  decide

theorem test_meets_SetSceneAndNextTake :
    ([] : Text).length ≤ 254 ∧ (List.replicate 254 (65 : Byte)).length ≤ 254 ∧ 65535 < 65536 :=
  ⟨by decide, (List.length_replicate ..).le, by decide⟩

theorem test_meets_JamTimecodeSetsTheCounter :
    24 > 23 ∧ State.reset.counter.tcRate.fps ≤ 25 ∧ 24 < State.reset.counter.tcRate.fps ∧
      (running.port.phase = .run ∧ (withPending true running).takes.pendingStart ≠ none) ∧
      (∀ i : Fin 3, running.takes.slots[i] = none) ∧ running.takes.pendingStart = none := by decide

theorem test_meets_StartInIdle :
    running.port.phase = .run ∧ enginePhase running = .idle ∧ cardFull running = false ∧ emptySlot running = some 0 ∧
      enginePhase allClosing = .idle ∧ cardFull allClosing = false ∧ emptySlot allClosing = none := by decide

theorem test_meets_StartIsAlreadyOrRefused :
    enginePhase (withTake rollingTake running) = .rolling ∧ enginePhase (withPending true running) = .startPending ∧
      (enginePhase (withSpace .full running) = .idle ∧ cardFull (withSpace .full running) = true) ∧
      enginePhase (withTake { rollingTake with phase := .post, e := some 990 } (withSpace .exhausted running)) = .post := by
  decide

/-- A POST take with E at 990. -/
def postTake : Take := { rollingTake with phase := .post, e := some 990, postRoll := 10 }

theorem test_meets_StartInPostCutsThePostRoll :
    let s := withTake postTake running
    s.port.phase = .run ∧ cardFull s = false ∧ openSlot s = some 0 ∧
      (∀ k : Fin 3, isOpen s.takes.slots[k] = true → k = 0) ∧ s.takes.slots[(0 : Fin 3)] = some postTake ∧
      postTake.phase = .post ∧ postTake.e = some 990 ∧ emptySlot s = some 1 ∧
      isEarlier s.day s.counter.newest 990 = false ∧
      isLater s.day s.counter.newest (posAdd s.day 990 s.takes.postRoll) = false ∧
      (List.replicate 4 postTake.identity = postTake.identity :: List.replicate 3 postTake.identity ∧
        (List.replicate 3 postTake.identity).length < 4) := by decide

theorem test_meets_StopByPhase :
    enginePhase running = .idle ∧ enginePhase (withTake postTake running) = .post ∧
      enginePhase (withPending true running) = .startPending ∧ openSlot (withTake rollingTake running) = some 0 ∧
      rollingTake.phase = .rolling ∧ 0 < running.takes.postRoll ∧ running.counter.newest < running.day := by decide

theorem test_meets_RecordKeyStartsOrStops :
    State.reset.port.phase = .setup ∧ (emptySlot running).isSome = true ∧ enginePhase running = .idle ∧
      enginePhase (withTake rollingTake running) = .rolling ∧ enginePhase allClosing = .idle ∧ emptySlot allClosing = none ∧
      cardFull allClosing = false := by decide

theorem test_meets_HeadShortfallFollowsTheLookup :
    let s : State := { running with ring := { running.ring with frames := [ringFrame 800, ringFrame 950] } }
    let offset (p q : Nat) : Nat := (q + (s.day - p % s.day)) % s.day
    isLater s.day 900 s.counter.newest = false ∧ s.ring.frames = [ringFrame 800] ++ ringFrame 950 :: [] ∧
      (∀ g ∈ [ringFrame 800], ¬offset 900 g.pos ≤ offset 900 1000) ∧ offset 900 (ringFrame 950).pos ≤ offset 900 1000 ∧
      isLater s.day 1000 s.counter.newest = false ∧ (∀ g ∈ s.ring.frames, ¬offset 1000 g.pos ≤ offset 1000 1000) := by decide

/-- ADD NOTE arguments: SLATE, with or without attaching, no optional field, no text. -/
def noteArgs (attach : Byte) : List Byte := [1, attach, 0, 0]

theorem test_meets_AddNoteStoresOrRefuses :
    let drained : State := withTake { rollingTake with phase := .closing } running
    let a : NoteArgs := { kind := 1, attach := 0, raw := { ref := none, pos := none, track := none, text := [] } }
    running.port.phase = .run ∧ readNoteArgs (noteArgs 0) = some a ∧
      readNoteArgs (noteArgs 1) = some { a with attach := 1 } ∧ noteKindOf 0 = none ∧ noteKindOf 7 = none ∧
      onOff 2 = none ∧ noteKindOf 1 = some .slate ∧ onOff 1 = some true ∧
      (1 ≤ 16 ∧ 16 ≤ 16 ∧ ¬17 ≤ 16) ∧ (running.day - 1 < running.day ∧ ¬running.day < running.day) ∧
      (999 ≤ 999 ∧ ¬1000 ≤ 999) ∧ noteKindOf 5 = some .trackName ∧ noteKindOf 6 = some .mark ∧ a.raw.track = none ∧
      a.raw.pos = none ∧
      (openSlot drained = none ∧ attachLabel drained = some rollingTake.label ∧
        ∀ j : Fin 3, j ≠ 0 → drained.takes.slots[j] = none) ∧
      openSlot (withTake rollingTake running) = some 0 ∧
      attachLabel (withTake { rollingTake with phase := .closing, indexIssued := true } running) = none ∧
      65535 ≤ ({ running with store := { running.store with seq := 65535 } } : State).store.seq ∧
      running.store.seq < 65535 ∧ attachLabel running = none ∧
      (attachLabel (withTake rollingTake running)).isSome = true ∧ running.store.notes.length < 256 := by decide

theorem test_meets_AddNoteInAFullStore :
    let full (x : NoteWrite) : State := withNotes (List.replicate 256 { note := noteOf 3 1, state := x }) running
    256 ≤ (full .pending).store.notes.length ∧ (∀ x ∈ (full .pending).store.notes, x.state ≠ .written) ∧
      256 ≤ (full .written).store.notes.length ∧
      (full .written).store.notes =
        [] ++ { note := noteOf 3 1, state := .written } :: List.replicate 255 { note := noteOf 3 1, state := .written } := by
  decide +kernel

theorem test_meets_AddNoteQueuesItsFrame :
    let gone : TxEntry := { frame := .noteGone 0 1 1, attempts := 0 }
    running.link.listenOnly = false ∧ (withQueue .defer (List.replicate 7 gone) running).link.queue.length < 8 ∧
      8 ≤ (withQueue .defer (List.replicate 8 gone) running).link.queue.length ∧
      ({ running with link := { running.link with listenOnly := true } } : State).link.listenOnly = true ∧
      running.link.queue = [] ∧ running.link.tx = .standby ∧ running.link.line = .idle ∧ running.time < running.link.idleFrom + 8 ∧
      running.link.idleFrom + 8 ≤ ({ running with time := 8 } : State).time := by decide

/-- A note of station 3 for the take of this label. -/
def noteFor (ref : Label) (kind : NoteKind) : Note := { noteOf 3 1 with ref := some ref, kind := kind }

theorem test_meets_NotesAttachToTakes :
    let now : Label := { scene := [65], number := 1 }
    let old : Label := { scene := [66], number := 2 }
    let t : Take := { rollingTake with former := [old] }
    let s := withTake t running
    (noteOf 3 1).ref = none ∧ (noteFor now .circle).ref = some now ∧ s.takes.followMask.getLsbD 3 = true ∧
      (s.takes.slots[(0 : Fin 3)] = some t ∧ t.indexIssued = false ∧ t.label = now ∧ old ∈ t.former ∧ t.label ≠ old) ∧
      (∀ j : Fin 3, j ≠ 0 → s.takes.slots[j] = none) ∧ startAge s { t with serial := 2 } < startAge s t ∧
      ({ s with takes := { s.takes with followMask := 0 } } : State).takes.followMask.getLsbD 3 = false := by decide

/-- A CIRCLE note sets CIRCLED and leaves its reference, by the label and by the former label (R133, R134). -/
theorem test_note_attaches :
    let t : Take := { rollingTake with former := [{ scene := [66], number := 2 }] }
    let got (n : Note) :=
      (tryAttach n (withTake t running)).takes.slots[0].map fun u => (u.noteRefs, u.flags.circled)
    got (noteFor { scene := [65], number := 1 } .circle) = some ([(noteOf 3 1).id], true) ∧
      got (noteFor { scene := [66], number := 2 } .mark) = some ([(noteOf 3 1).id], false) ∧
      got (noteFor { scene := [66], number := 3 } .circle) = some ([], false) := by decide

theorem test_meets_SetCueAndCancelCue :
    running.port.phase = .run ∧ running.day < 2 ^ 40 ∧ running.day ≤ running.day ∧
      isLater running.day 1000 running.counter.newest = false ∧ isLater running.day 1001 running.counter.newest = true ∧
      running.counter.cue = none ∧ 3 < 256 ∧ 3 ≠ 1 ∧ 3 ≠ 2 := by decide

theorem test_meets_ClearClipEmptiesTheRecord :
    running.front.clipFlag = false ∧ (offerClip .mix none 0 running).front.clipFlag = true := by decide

/-- A writer in MEDIA FAULT. -/
def faulted (s : State) : State := { s with writer := { s.writer with capture := .mediaFault } }

theorem test_meets_MediaRetryIssuesAFaultRecord :
    running.writer.capture ≠ .mediaFault ∧ (faulted running).writer.capture = .mediaFault ∧
      (withWrite (.fault [] 0) .first false true (faulted running)).writer.inFlight.isSome = true ∧
      (faulted (withSpace .exhausted running)).writer.space = some .exhausted ∧
      (faulted running).writer.space ≠ some .exhausted ∧ (faulted running).writer.cursor = some 0 ∧
      (faulted running).writer.inFlight = none := by decide

theorem test_meets_CaptureRestartAbandonsTheCapture :
    running.port.phase = .run ∧ running.writer.inFlight = none ∧ running.store.notes = [] ∧
      (withWrite (.fault [] 0) .first false false running).writer.inFlight.isSome = true := by decide

theorem test_meets_SetupFrameIsOnlyStamped : State.reset.port.phase = .setup := by decide

/-- Every track mixed at full gain and ten times its reading or more. -/
def loud : State :=
  { running with
    front :=
      { running.front with
        tracks := Vector.replicate 16 { Track.reset with kind := .single, trim := 65535, mixEnable := true } }
    mixer := { running.mixer with tracks := Vector.replicate 16 { MixTrack.reset with gain := 4096 } } }

/-- The same reading on every track. -/
def evenFrame (x : BitVec 24) : FrameIn := Vector.replicate 16 { silence with x := x }

theorem test_meets_RunFrameIsStampedMixedAndHeld :
    running.port.phase = .run ∧ running.ring.frames.length < 1048576 ∧
      running.front.tracks[(0 : Fin 16)].mixEnable = false ∧ running.takes.pendingStart = none ∧
      running.counter.cue.map Cue.pos ≠ some 1001 ∧
      (withTake rollingTake running).takes.slots[(0 : Fin 3)] = some rollingTake ∧ rollingTake.e ≠ some 1001 ∧
      1001 ≠ halfDayLimit running.day rollingTake.sr running.takes.postRoll ∧
      (loud.front.clipFlag = false ∧ mixIsEnabled loud = true ∧ mixIsEnabled running = false) ∧
      (convertAll loud (evenFrame 0x7FFFFF))[(0 : Fin 16)].clip = true ∧
      (∀ n : Fin 16, (convertAll loud (evenFrame 0x7FFFFE))[n].clip = false) ∧
      (stage3 loud.front.rounding (mixSum loud (convertAll loud (evenFrame 0x7FFFFE)))).2 = true := by decide

/-- The value of a word: 262,144 units of 2^-45 at e = 1, and 0 for exact zero, the absent code and no word (R3, R146). -/
theorem test_values :
    valueOf (some { sign := true, exponent := 1, fraction := 0 }) = -262144 ∧ valueOf (some FieldWord.zero) = 0 ∧
      valueOf (some FieldWord.absent) = 0 ∧ valueOf none = 0 := by decide

/-- A track of this kind. -/
def trackOf (kind : ChannelKind) (path : PathState) (quiet : Nat) : Track :=
  { Track.reset with kind := kind, path := path, quiet := quiet }

theorem test_meets_TracksConvertByKind :
    (trackOf .off .high 0).kind = .off ∧ ((trackOf .receiver .high 0).kind = .receiver ∧ silence.valid = true) ∧
      ({ silence with valid := false } : Reading).valid = false ∧
      ((trackOf .dual .high 0).path = .high ∧ (BitVec.ofInt 24 7340031).toInt.natAbs < 7340032) ∧
      7340032 ≤ (BitVec.ofInt 24 (-8388608)).toInt.natAbs ∧
      ((trackOf .dual .low 62).path = .low ∧ (trackOf .dual .low 62).quiet + 1 < 64 ∧
        (BitVec.ofInt 24 (-4194303)).toInt.natAbs < 4194304) ∧
      64 ≤ (trackOf .dual .low 63).quiet + 1 ∧ 4194304 ≤ (BitVec.ofInt 24 4194304).toInt.natAbs ∧
      (trackOf .single .high 0).trim ≤ 65535 := by decide

/-- A receiver's valid sample is its trimmed reading; a DUAL track past HIGH's range uses L and its clip (R7, R9, R20). -/
theorem test_conversions :
    let r : Reading := { h := BitVec.ofInt 24 7340032, l := BitVec.ofInt 24 8388607, x := 1023, valid := true }
    (convertTrack .round (trackOf .receiver .high 0) r).word = some (trimmed .round (trackOf .receiver .high 0) 1023 0) ∧
      (convertTrack .round (trackOf .dual .high 0) r).clip = true ∧
      (convertTrack .round (trackOf .dual .high 0) r).track.path = .low := by decide

/-- The state with these frames in the ring. -/
def withRing (l : List RingFrame) (s : State) : State := { s with ring := { s.ring with frames := l } }

theorem isProtected_withRing (l : List RingFrame) (s : State) (p : Nat) :
    isProtected (withRing l s) p = isProtected s p := rfl

theorem test_meets_FullRingDropsOrOverruns :
    ∃ rest : List RingFrame, (withRing (ringFrame 900 :: rest) running).ring.frames = ringFrame 900 :: rest ∧
      1048576 ≤ rest.length + 1 ∧ isProtected (withRing (ringFrame 900 :: rest) running) 900 = false ∧
      isProtected (withRing (ringFrame 900 :: rest) (withTake rollingTake running)) 900 = true := by
  refine ⟨List.replicate 1048575 (ringFrame 950), rfl, ?_, ?_, ?_⟩
  · rw [List.length_replicate]
  · rw [isProtected_withRing]; decide
  · rw [isProtected_withRing]; decide

/-- A full ring whose oldest frame is one that a ROLLING take still needs when the next frame comes, and one that no slot
needs. -/
theorem test_meets_full_ring_at_a_frame :
    let met (s : State) : State := fireCue (promoteAtStamp (takeArrival (stampFrame s)))
    ∃ rest : List RingFrame, (withRing (ringFrame 900 :: rest) running).ring.frames = ringFrame 900 :: rest ∧
      1048576 ≤ rest.length + 1 ∧ isProtected (met running) 900 = false ∧
      isProtected (met (withTake rollingTake running)) 900 = true ∧ cardFull running = false ∧
      (met (withTake rollingTake running)).takes.slots[(0 : Fin 3)] = some rollingTake ∧ (ringFrame 900).pos = rollingTake.next := by
  refine ⟨List.replicate 1048575 (ringFrame 950), rfl, ?_, ?_, ?_, rfl, ?_, rfl⟩
  · rw [List.length_replicate]
  · decide
  · decide
  · decide

/-- Track 1 a DUAL track in LOW with 63 quiet frames. -/
def nearlyQuiet : State :=
  { running with front := { running.front with tracks := running.front.tracks.set 0 (trackOf .dual .low 63) } }

theorem test_meets_QuietTrackReturnsToHigh :
    nearlyQuiet.port.phase = .run ∧ nearlyQuiet.front.tracks[(0 : Fin 16)].kind = .dual ∧
      nearlyQuiet.front.tracks[(0 : Fin 16)].path = .low ∧ nearlyQuiet.front.tracks[(0 : Fin 16)].quiet = 63 ∧
      quietFrame[(0 : Fin 16)].h.toInt.natAbs < 4194304 := by decide

/-- A cue of this kind at the next frame's position. -/
def withCue (k : CueKind) (s : State) : State :=
  { s with counter := { s.counter with cue := some { kind := k, pos := 1001 } } }

theorem test_meets_CueFiresAtItsPosition :
    (withCue .start running).counter.cue = some { kind := .start, pos := 1001 } ∧
      1001 = (running.counter.newest + 1) % running.day ∧ (∀ i : Fin 3, running.takes.slots[i] = none) ∧
      running.takes.pendingStart = none ∧ cardFull running = false ∧
      (({ running with takes := { running.takes with preRoll := 0 } } : State).takes.preRoll = 0 ∧
        running.ring.frames = []) ∧
      (∀ j : Fin 3, j ≠ 0 → (withTake rollingTake (withCue .stop running)).takes.slots[j] = none) ∧
      0 < running.takes.postRoll ∧ rollingTake.e = none ∧ rollingTake.phase = .rolling ∧
      1001 ≠ halfDayLimit running.day rollingTake.sr running.takes.postRoll := by decide

/-- A START cue with P = 0: the take starts with no shortfall at the arriving frame, which it then gets (R49, R54). -/
theorem test_cue_start_without_pre_roll :
    after (.cueFire quietFrame) (withCue .start { running with takes := { running.takes with preRoll := 0 } })
        (fun t => (t.takes.slots[0].map fun u => (u.sr, u.h, u.next, u.watch), t.ring.frames.map RingFrame.pos)) =
      some (some (1001, 0, 1001, 1001), [1001]) := by decide

/-- The frame of a START cue is discarded at a full ring: one gap of one position, neither twice (R74, R75). -/
theorem test_discard_after_cue_start :
    let u : Take := { rollingTake with sr := 1001, next := 1001, watch := 1001 }
    (overrun 1001 (withTake u (atPosition 1001 running))).takes.slots[0].map (fun t => (t.gaps, t.g)) =
        some ([{ first := 1001, count := 1 }], 0) ∧
      (accountAll (overrun 1001 (withTake u (atPosition 1001 running)))).takes.slots[0].map (fun t => (t.gaps, t.g, t.next)) =
        some ([{ first := 1001, count := 1 }], 1, 1002) := by decide

/-- A ROLLING take with an awaited stop at the next frame. -/
def awaitingTake : Take := { rollingTake with e := some 1001 }

theorem test_meets_AwaitedStopTakesEffect :
    (withTake awaitingTake running).takes.slots[(0 : Fin 3)] = some awaitingTake ∧ awaitingTake.phase = .rolling ∧
      awaitingTake.e = some ((running.counter.newest + 1) % running.day) ∧
      running.counter.cue.map Cue.pos ≠ some ((running.counter.newest + 1) % running.day) ∧ running.port.phase = .run ∧
      0 < running.takes.postRoll := by decide

/-- A POST take one frame short of its post-roll. -/
def endingTake : Take := { rollingTake with phase := .post, e := some 500, postRoll := 23999 }

theorem test_meets_PostRollCompletes :
    let s := withTake endingTake running
    s.port.phase = .run ∧ s.takes.slots[(0 : Fin 3)] = some endingTake ∧ endingTake.phase = .post ∧
      endingTake.e = some 500 ∧ endingTake.postRoll + 1 = s.takes.postRoll ∧
      (∀ j : Fin 3, isOpen s.takes.slots[j] = true → j = 0) ∧
      s.counter.cue.map Cue.pos ≠ some ((s.counter.newest + 1) % s.day) := by decide

theorem test_meets_HalfDayStopsTheTake :
    let s := atPosition 2073576899 (withTake rollingTake running)
    let q := atPosition 2073576989 (withPending true running)
    s.port.phase = .run ∧ s.counter.cue.map Cue.pos ≠ some ((s.counter.newest + 1) % s.day) ∧
      s.takes.slots[(0 : Fin 3)] = some rollingTake ∧ rollingTake.phase = .rolling ∧
      (s.counter.newest + 1) % s.day = halfDayLimit s.day rollingTake.sr s.takes.postRoll ∧
      q.takes.pendingStart = some (waitingStart true) ∧ (waitingStart true).reached = true ∧
      (q.counter.newest + 1) % q.day = halfDayLimit q.day (waitingStart true).start q.takes.postRoll := by decide

/-- Track 1 in the mix, 63 frames into a block. -/
def mixing : State :=
  { running with
    front := { running.front with tracks := running.front.tracks.set 0 { Track.reset with mixEnable := true } }
    mixer := { running.mixer with blockCount := 63 } }

theorem test_meets_BlockEndUpdatesGatesAndGains :
    (mixing.front.tracks[(0 : Fin 16)].kind ≠ .off ∧ mixing.front.tracks[(0 : Fin 16)].mixEnable = true) ∧
      mixing.port.phase = .run ∧ mixIsEnabled mixing = true ∧ mixing.mixer.blockCount = 63 := by decide

theorem test_meets_GateAndEnvelopeTables :
    (track5.gate = .closed ∧ 207 * 2 ^ 29 ≤ ({ track5 with peak := 207 * 2 ^ 29 } : MixTrack).peak ∧
        ¬207 * 2 ^ 29 ≤ track5.peak) ∧
      (track5.hold + 1 ≤ track5.settings.closeHold ∧
        track5.settings.closeHold < ({ track5 with hold := 1 } : MixTrack).hold + 1) ∧
      track5.envelope = .closed ∧ ({ track5 with envelope := .held } : MixTrack).envelope ≠ .closed := by decide

theorem test_meets_PendingStartIsPromoted :
    let s := withPending true running
    let q : PendingStart := { waitingStart false with start := 1001 }
    let w := makePending q running
    s.port.phase = .run ∧ s.takes.pendingStart = some (waitingStart true) ∧ (waitingStart true).reached = true ∧
      emptySlot s = some 0 ∧
      (w.takes.pendingStart = some q ∧ q.reached = false ∧ q.start = (w.counter.newest + 1) % w.day ∧
        w.counter.cue.map Cue.pos ≠ some ((w.counter.newest + 1) % w.day) ∧ w.ring.frames.length < 1048576 ∧
        (∀ g ∈ w.ring.frames, g.pos % w.day ≠ q.start) ∧ cardFull w = false ∧ emptySlot w = some 0) := by decide

theorem test_meets_ReferencePulseIsChecked :
    let s : State := { running with counter := { running.counter with refCheck := true, frameSeen := true } }
    s.port.phase = .run ∧ s.counter.refCheck = true ∧ s.counter.clock = .running ∧ s.counter.frameSeen = true ∧
      running.counter.frameSeen = false ∧ State.reset.port.phase = .setup := by decide

/-- A CLOSING take whose positions are all accounted up to Z = 1,000. -/
def accountedTake : Take := { rollingTake with phase := .closing, e := some 990, z := some 1000, next := 1001, w := 101 }

/-- A ring whose one held frame is the last of a CLOSING take. -/
def lastFrame : State :=
  { withTake { rollingTake with phase := .closing, e := some 990, z := some 1000, next := 1000, w := 100 } running with
    ring := { frames := [ringFrame 1000], discards := 0 } }

theorem test_meets_WriteIssueFollowsTheArbiter :
    let s := withTake accountedTake running
    let l := [({ note := noteOf 0 1, state := .written } : StoredNote), { note := noteOf 0 2, state := .pending }]
    running.port.phase = .run ∧ running.writer.capture = .normal ∧ running.writer.inFlight = none ∧
      running.writer.cursor = some 0 ∧ running.writer.space = some .ample ∧ protectedCount s < 786432 ∧
      (s.takes.slots[(0 : Fin 3)] = some accountedTake ∧ accountedTake.phase = .closing ∧
        accountedTake.indexIssued = false ∧ accountedTake.z = some 1000 ∧ accountedTake.next = (1000 + 1) % s.day) ∧
      (∀ j : Fin 3, j ≠ 0 → s.takes.slots[j] = none) ∧
      ((withNotes l running).store.notes = l ++ [] ∧ l.countP (fun x => x.state == .pending) < 32) ∧
      ({ running with writer := { running.writer with skipped := [7] } } : State).writer.skipped ≠ [] ∧
      (readyBlock lastFrame { rollingTake with phase := .closing, e := some 990, z := some 1000, next := 1000, w := 100 } =
        some [ringFrame 1000] ∧ lastFrame.writer.space ≠ some .full ∧ lastFrame.store.notes = [] ∧
        lastFrame.writer.skipped = [] ∧ lastFrame.writer.unlisted = 0) := by decide

theorem test_meets_WriteIssueUnderBacklog :
    ∃ l : List RingFrame, 786432 ≤ protectedCount (withRing l (withTake rollingTake running)) := by
  refine ⟨List.replicate 786432 (ringFrame 950), ?_⟩
  have h : isProtected (withTake rollingTake running) (ringFrame 950).pos = true := by decide
  have hc : ∀ l s, protectedCount (withRing l s) = l.countP fun f => isProtected s f.pos := fun _ _ => rfl
  rw [hc, List.countP_replicate, if_pos h]

theorem test_meets_BlocksAndGapReportsFollowTheRing :
    let u : Take := { rollingTake with phase := .closing, e := some 990, z := some 1000, next := 1000, w := 100 }
    let holes := withRing [ringFrame 950] (withTake rollingTake running)
    let full := withRing [ringFrame 900, ringFrame 901] (withSpace .full (withTake rollingTake running))
    (u.next < lastFrame.day ∧ readyBlock lastFrame u = some [ringFrame 1000] ∧
      [ringFrame 1000].length < 4080 / (3 * wordCount lastFrame)) ∧
      (holes.takes.slots[(0 : Fin 3)] = some rollingTake ∧ (∀ f ∈ holes.ring.frames, f.pos ≠ rollingTake.next) ∧
        isLater holes.day rollingTake.next holes.counter.newest = false ∧ audioOutstanding holes 0 = false ∧
        holes.ring.frames = [] ++ ringFrame 950 :: [] ∧ dueReport holes 0 = some (true, 50)) ∧
      dueReport (withTake rollingTake running) 0 = some (true, 101) ∧
      (cardFull full = true ∧ audioInFlight full 0 = false ∧ full.ring.frames = [] ++ [ringFrame 900, ringFrame 901] ++ [] ∧
        dueReport full 0 = some (false, 2)) ∧
      (∃ f ∈ (withSpace .ample full).ring.frames, f.pos = rollingTake.next) ∧ cardFull (withSpace .ample full) = false ∧
      isLater running.day ({ rollingTake with next := 1001 } : Take).next running.counter.newest = true ∧
      audioOutstanding (withWrite (.audio 0 16 1 900 0 []) .first false false holes) 0 = true ∧
      (∀ j : Fin 3, dueReport running j = none) := by decide

/-- The three cases of a ready block: a run of the capacity, one that ends at Z, and one that ends before a HOLE; before a
position that is NOT ARRIVED there is none yet (R159). -/
theorem test_meets_ReadyBlocks :
    (∃ run : List RingFrame, (withRing run running).ring.frames = [] ++ run ++ [] ∧ run ≠ [] ∧
      run.length = 4080 / (3 * wordCount running) ∧
      (∀ (k : Nat) (f : RingFrame), run[k]? = some f → f.pos = (900 + k) % running.day)) ∧
    readyBlock (withRing [ringFrame 900, ringFrame 901, ringFrame 905] running) rollingTake =
      some [ringFrame 900, ringFrame 901] ∧
    readyBlock (withRing [ringFrame 1000] running) { rollingTake with next := 1000 } = none ∧
    readyBlock (withRing [ringFrame 1001] running) accountedTake = none := by
  refine ⟨⟨(List.range 85).map fun k => ringFrame (900 + k), rfl, by decide, ?_, ?_⟩, by decide, by decide, by decide⟩
  · rw [List.length_map, List.length_range]; decide
  · intro k f h
    have small : k < 85 := by simpa using (List.getElem?_eq_some_iff.mp h).1
    have day : running.day = 4147200000 := by decide
    simp only [List.getElem?_map, List.getElem?_range small, Option.map_some, Option.some.injEq] at h
    rw [← h, day, Nat.mod_eq_of_lt (by omega)]
    rfl

theorem test_meets_SuccessfulCompletionByContent :
    let n : StoredNote := { note := noteOf 0 1, state := .writing }
    let audio : Content := .audio 0 16 1 900 0 [ringFrame 900]
    let audioDone := withWrite audio .first false false (withTake rollingTake running)
    let notesDone := withWrite (.notes [noteOf 0 1]) .first false false (withNotes [n] running)
    let indexDone := withWrite (.index 0 16 accountedTake) .first false false (withPending true (withTake accountedTake running))
    let retryDone := withWrite (.fault [3] 1) .first false true (faulted running)
    running.writer.inFlight = none ∧ running.writer.range = some (0, 9999) ∧ running.writer.cursor = some 0 ∧
      audioDone.takes.slots[(0 : Fin 3)] = some rollingTake ∧ rollingTake.tracks[(0 : Fin 16)] = some {} ∧
      (notesDone.store.notes[0]? = some n ∧ n.state = .writing) ∧
      (indexDone.takes.pendingStart = some (waitingStart true) ∧ 64 < 9999 - 0) ∧
      (retryDone.writer.inFlight.map Write.ofRetryCommand = some true ∧
        ({ retryDone with writer := { retryDone.writer with held := some audio } } : State).writer.held = some audio) := by
  decide

/-- A completion that leaves this many of the card's blocks, in this space state. -/
def leaving (x : Space) (left : Nat) (s : State) : State :=
  { s with writer := { s.writer with cursor := some (9999 - left), space := some x } }

/-- The first slot's take: CLOSING with an end, force-stopped, its index record issued. -/
def slotOf (t : State) : Option (Option Nat × Bool × Bool) :=
  t.takes.slots[0].map fun u => (u.z, u.flags.forcedStop && u.phase == .closing, u.indexIssued)

/-- Entering FULL force-stops the open take, whose index record goes before a note block (R79, R165, R174). -/
theorem test_meets_entering_full :
    let s := leaving .nearFull 64 (withTake { rollingTake with next := 1001, w := 101 }
      (withNotes [{ note := noteOf 0 2, state := .pending }] running))
    (openSlot s = some 0 ∧ s.writer.space = some .nearFull ∧ 9999 - (9999 - 64) = 64) ∧
      after .successfulCompletion (withWrite (.fault [] 0) .first false false s)
          (fun t => (slotOf t, isPending .full t, t.store.notes.map StoredNote.state)) =
        some (some (some 1000, true, true), true, [.pending]) := by decide

/-- Entering NEAR FULL is raised; an index record completes in the reserve (R158, R167). -/
theorem test_meets_near_full_and_reserve :
    after .successfulCompletion (withWrite (.fault [] 0) .first false false (leaving .ample 2048 running))
        (isPending .nearFull) = some true ∧
      after .successfulCompletion
          (withWrite (.index 0 16 accountedTake) .first false false (leaving .full 63 (withTake accountedTake running)))
          (fun t => (slotOf t, isPending .takeClosed t)) = some (none, true) := by decide

/-- The last audio block of a CLOSING take in flight as the card enters FULL. -/
def lastBlock (a : Attempt) : State :=
  withWrite (.audio 0 16 1 1000 0 [ringFrame 1000]) a false false (leaving .nearFull 64 lastFrame)

/-- On a FULL card a failed audio block is dropped and its positions accounted (R160, R168, R174). -/
theorem test_meets_dropped_audio :
    after .failedCompletion (lastBlock .first) (fun t => (t.takes.slots[0].map fun u => (u.g, u.next), t.writer.held)) =
        some (some (1, 1001), none) ∧
      after .failedCompletion (lastBlock .retry) (fun t => (t.takes.slots[0].map fun u => (u.g, u.next), t.writer.held)) =
        some (some (1, 1001), none) := by decide

/-- With no block left other content is held (R168, R175). -/
theorem test_meets_held_content :
    after .failedCompletion (withWrite (.notes [noteOf 0 1]) .first false false (leaving .full 0 running))
        (fun t => (t.writer.held, t.writer.inFlight.isSome)) =
      some (some (.notes [noteOf 0 1]), false) := by decide

theorem test_meets_FailedCompletionByAttempt :
    let w (a : Attempt) (stale retry : Bool) := withWrite (.fault [3] 1) a stale retry running
    running.writer.inFlight = none ∧ running.writer.skipped.length < 16 ∧ 16 ≤ (List.replicate 16 7).length ∧
      (w .first true false).writer.inFlight.map Write.stale = some true ∧
      (w .retry false false).writer.inFlight.map Write.attempt = some .retry ∧
      (w .first false true).writer.inFlight.map Write.ofRetryCommand = some true ∧ 64 < 65 - 0 := by decide

theorem test_meets_LineEventsMoveTheTransmitter :
    let busy (r : Receiver) : State := { running with link := { running.link with line := .busy, receiver := r } }
    let f := heard 4 3 (be 2 0 ++ be 2 1 ++ be 2 4)
    (busy .waiting).link.line ≠ .idle ∧ (busy .waiting).link.tx ≠ .send ∧ running.link.receiver = .ready ∧
      (busy (.taking 5 [165, 1, 2, 3, 4])).link.receiver = .taking 5 [165, 1, 2, 3, 4] ∧
      ([4] : List Byte).length ≠ (3 : Byte).toNat + 2 ∧ (List.replicate 16 (0 : Byte)).length ≠ (40 : Byte).toNat + 2 ∧
      5#8 ∉ [1#8, 2#8, 3#8, 4#8] ∧ (busy (.within 5 [165])).link.receiver = .within 5 [165] ∧
      (busy (.echo [165])).link.receiver = .echo [165] ∧
      (f.payload.length ≤ 200 ∧ (busy (.taking 5 (frameBytesOf 4#8 f))).link.receiver = .taking 5 (frameBytesOf 4#8 f)) ∧
      ([165, 1, 2] : List Byte).length = 3 ∧ 200 < (201 : Byte).toNat ∧ (200 : Byte).toNat ≤ 200 ∧
      (([9] : List Byte).length < (0 : Byte).toNat + 2 ∧ ([9, 9] : List Byte).length = (0 : Byte).toNat + 2) ∧
      State.reset.port.phase = .setup ∧ State.reset.link.receiver = .waiting ∧
      (openSlot (withTake rollingTake running) = some 0 ∧ openSlot (withTake postTake running) = some 0 ∧ postTake.e = some 990 ∧
        openSlot (withPending true running) = none ∧ openSlot running = none ∧ running.takes.pendingStart = none) ∧
      (withQueue .defer [{ frame := .status, attempts := 0 }] running).link.tx = .defer := by decide +kernel

/-- A station in SEND, n bytes of its STATUS frame over. -/
def sendingAt (n : Nat) (station : Fin 8 := 4) : State :=
  { (withQueue .send [{ frame := .status, attempts := 1 }] running) with
    time := 10 * n
    port := { running.port with station := station }
    link :=
      { (withQueue .send [{ frame := .status, attempts := 1 }] running).link with
        line := .busy, sending := frameBytes 1 (BitVec.ofNat 8 station.val) [], restFrom := 60, receiver := .taking 1000 [] } }

theorem test_meets_AttemptsEndBySendOrCollision :
    let s := sendingAt 2
    s.port.phase = .run ∧ s.link.tx = .send ∧ s.link.queue = { frame := .status, attempts := 1 } :: [] ∧
      ({ frame := .status, attempts := 1 } : TxEntry).attempts < 2 ∧
      2 ≤ ({ frame := .status, attempts := 2 } : TxEntry).attempts ∧ running.link.tx ≠ .send ∧
      bytesOver s < s.link.sending.length ∧ (sendingAt 6).link.sending.length ≤ bytesOver (sendingAt 6) ∧
      s.link.sending = frameBytes 1 (BitVec.ofNat 8 s.port.station.val) [] ∧ ([] : List Byte).length ≤ 200 ∧
      s.link.sending[bytesOver s]? = some 4#8 ∧ (4#8).toNat ≤ (4#8).toNat ∧ (4#8).toNat ≤ (5#8).toNat ∧
      ((1 : Byte).toNat < (4 : Byte).toNat ∧ takeByte (s.link.sending.take (bytesOver s)) 1 = some [165, 1, 1]) := by
  decide +kernel

/-- Station 4 against station 1, decided at the sender byte: station 4 stops at the sixth data bit and goes on hearing station 1's
frame, and station 1 goes on sending (R91, the worked sequence of section 5.3); a byte of station 5 leaves 4 sending. -/
theorem test_arbitration_at_the_sender_byte :
    after (.lineBusy 1) (sendingAt 2) (fun t => (t.link.counts.collisions, t.link.receiver, t.link.tx, t.link.sending)) =
        some (1, .taking 1000 [165, 1, 1], .waitIdle, []) ∧
      after (.lineBusy 4) (sendingAt 2 1) (fun t => (t.link.counts.collisions, t.link.receiver, t.link.tx)) =
        some (0, .taking 1000 [165, 1, 1], .send) ∧
      after (.lineBusy 5) (sendingAt 2) (fun t => (t.link.counts.collisions, t.link.receiver, t.link.tx)) =
        some (0, .taking 1000 [165, 1, 4], .send) := by decide

/-- The levels of 0xA5: start dominant, most significant bit first, a 0 dominant, stop recessive (R83). -/
theorem test_byte_levels :
    byteLevels 0xA5 =
      [.dominant, .recessive, .dominant, .recessive, .dominant, .dominant, .recessive, .dominant, .recessive, .recessive] := by
  decide

/-- Station 3 PRESENT since time 0. -/
def withPeer (s : State) : State := setPeer 3 { Peer.reset with present := true, heardAt := some 0, run := some 0 } s

theorem test_meets_OscillatorTimersRunOut :
    let st : TxEntry := { frame := .status, attempts := 0 }
    let nt : TxEntry := { frame := .noteGone 0 1 1, attempts := 0 }
    running.counter.clock = .running ∧ running.counter.lossTimer = some 0 ∧
      ({ running with counter := { running.counter with clock := .lost } } : State).counter.clock = .lost ∧
      running.link.announce = some 0 ∧ running.link.listenOnly = false ∧
      ((withQueue .send [st] running).link.queue.head?.map TxEntry.frame) = some .status ∧
      (∃ x ∈ (withQueue .defer [nt, st] running).link.queue, x.frame = .status) ∧
      (¬∃ x ∈ (withQueue .defer (List.replicate 7 nt) running).link.queue, x.frame = .status) ∧
      (List.replicate 7 nt).length < 8 ∧ 8 ≤ (List.replicate 8 nt).length ∧
      (running.link.queue = [] ∧ running.link.tx = .standby ∧ running.link.line = .idle) ∧
      ((3 : Fin 8) ≠ (withPeer running).port.station ∧ (withPeer running).link.peers[(3 : Fin 8)].present = true ∧
        (withPeer running).link.peers[(3 : Fin 8)].heardAt = some 0) ∧
      (openTake (withPeer running)).map Take.origin ≠ some 3 ∧
      (openSlot (withTake { rollingTake with origin := 3 } (withPeer running)) = some 0) := by decide

theorem test_meets_FramesActOnThePeerTable :
    let f := heard 1 3 (statusBytes (peerStatus 0 0 0 0))
    let own := heard 1 0 (statusBytes (peerStatus 0 0 0 0))
    let at_ (r : Receiver) : State := { running with link := { running.link with receiver := r } }
    running.port.phase = .run ∧ running.link.receiver = .ready ∧ f.sender.toNat = (3 : Fin 8).val ∧
      (canHear 1#8 f running = true ∧ canHear 1#8 f (at_ .waiting) = false ∧ canHear 1#8 f (at_ (.taking 5 [164])) = false ∧
        canHear 1#8 f (at_ (.taking 5 [165, 1])) = true ∧ canHear 1#8 own (at_ (.echo (frameBytesOf 1#8 own))) = true) ∧
      (3 : Fin 8) ≠ running.port.station ∧ f.payload.length = 40 ∧
      f.check = crc (1#8 :: f.sender :: 40#8 :: f.payload) ∧ (readStatusPayload f.payload).rateCode = 1 ∧
      frameValid 1#8 own = true ∧ own.sender.toNat = running.port.station.val ∧
      7 < ({ f with sender := 8 } : HeardFrame).sender.toNat ∧ longFrame.payload.length = 201 ∧
      (running.link.peers[(3 : Fin 8)].compat = none ∧
        [Compatibility.ok, .tcOff, .rateMismatch].all (fun c =>
          (setPeer 3 { Peer.reset with compat := some c } running).link.peers[(3 : Fin 8)].compat == some c)) ∧
      State.reset.port.phase = .setup := by decide +kernel

/-- A frame at the head of an empty queue on an IDLE line: sent at once after the deferral, deferred before its end (R89, R90). -/
theorem test_head_of_an_empty_queue :
    let rested (t : Nat) : State := { running with link := { running.link with idleFrom := t } }
    after .announceTimerExpiry (rested 99992) (fun t => (t.time, t.link.tx, t.link.restFrom)) = some (100000, .send, 100460) ∧
      after .announceTimerExpiry (rested 99993) (fun t => t.link.tx) = some .defer := by decide

/-- The STATUS of station 3 is received. -/
def receivesThree (f : HeardFrame) (s : State) : Bool :=
  canHear 1#8 f s && s.link.receiver == .ready && f.sender == 3 && s.port.station == 0 && f.payload.length == 40 &&
    f.check == crc (1#8 :: f.sender :: 40#8 :: f.payload)

theorem hearsStatus {f : HeardFrame} {s : State} (h : receivesThree f s = true) : HearsStatus s f 3 := by
  simp only [receivesThree, Bool.and_eq_true, beq_iff_eq] at h
  obtain ⟨⟨⟨⟨⟨heard, r⟩, sender⟩, peer⟩, len⟩, check⟩ := h
  exact ⟨heard, by simp [r], by rw [sender]; rfl, by rw [peer]; decide, len, check⟩

/-- The STATUS of station 3 reaches the take engine as a followed one. -/
def hearsThree (f : HeardFrame) (s : State) : Bool :=
  receivesThree f s && (readStatusPayload f.payload).rateCode == s.counter.sampleRate.code &&
    (readStatusPayload f.payload).tcCode == s.counter.tcRate.code &&
    decide ((signedDiff s.day (arrivalPosition s) (readStatusPayload f.payload).pos).natAbs ≤ s.link.tolerance) &&
    s.takes.followMask[(3 : Fin 8)]

theorem hearsFollowed {f : HeardFrame} {s : State} (h : hearsThree f s = true) : HearsFollowed s f 3 := by
  simp only [hearsThree, Bool.and_eq_true, beq_iff_eq, decide_eq_true_eq] at h
  obtain ⟨⟨⟨⟨heard, rate⟩, tcRate⟩, near⟩, mask⟩ := h
  exact ⟨hearsStatus heard, rate, tcRate, near, mask⟩

/-- A STATUS frame of station 3 that announces this. -/
def announcing (phase number start stop : Nat) : HeardFrame := heard 1 3 (statusBytes (peerStatus phase number start stop))

/-- The take of station 3 that `announcing _ 5 800 _` names. -/
def peerTake : Take := { rollingTake with origin := 3, label := { scene := [66], number := 5 }, sr := 800 }

/-- A pending start that `announcing 2 5 800 0` names. -/
def ownPending : PendingStart :=
  { label := { scene := [66], number := 5 }, origin := 3, start := 800, source := .peer, reached := false }

/-- Announcements that act, and those that leave the takes: of a peer out of the mask or with other rates, of a closed identity,
of the open take's or the pending start's own, and of no take. -/
theorem test_meets_FollowedAnnouncementsAct :
    let f := announcing 2 5 800 0
    let x := readStatusPayload f.payload
    let a := announcedIdentity running x
    HearsFollowed running f 3 ∧ HearsFollowed (withTake rollingTake running) f 3 ∧
      HearsFollowed (withTake peerTake running) (announcing 3 5 800 990) 3 ∧
      HearsStatus { running with takes := { running.takes with followMask := 0 } } f 3 ∧
      HearsStatus { running with takes := { running.takes with closed := [a] } } f 3 ∧
      HearsStatus (makePending ownPending running) f 3 ∧ HearsStatus running (announcing 0 0 0 0) 3 ∧
      x = peerStatus 2 5 800 0 ∧
      a ∉ running.takes.closed ∧ a.origin ≠ running.port.station.val ∧
      isLater running.day a.start running.counter.newest = false ∧ isLater running.day 1001 running.counter.newest = true ∧
      cardFull (withSpace .full running) = true ∧
      (openSlot (withTake rollingTake running) = some 0 ∧ rollingTake.origin ≠ (3 : Fin 8).val ∧
        isEarlier running.day a.start rollingTake.sr = true ∧ isEarlier running.day rollingTake.sr 901 = true) ∧
      (a = peerTake.identity ∧ (990 % running.day) = 990 ∧
        countAfter running.day (990 % running.day) running.counter.newest < running.takes.postRoll) ∧
      (rollingTake.h = 0 ∧ rollingTake.w = 0 ∧ rollingTake.g = 0 ∧ audioOutstanding (withTake rollingTake running) 0 = false ∧
        lookup .afterFrame (withRing [ringFrame 850] running) 800 = .held 850 ∧ isLater running.day 850 rollingTake.sr = false ∧
        lookup .afterFrame running 800 = .none 1001) ∧
      (a = ownPending.identity ∧ openSlot running = none ∧ (readStatusPayload (announcing 0 0 0 0).payload).phase = 0 ∧
        (1 ≤ x.number ∧ x.number ≤ 999)) ∧
      (openTake (withTake peerTake running) = some peerTake ∧ x.rateCode ≠ SampleRate.r96.code) := by
  refine And.imp hearsFollowed (And.imp hearsFollowed (And.imp hearsFollowed
    (And.imp hearsStatus (And.imp hearsStatus (And.imp hearsStatus (And.imp_left hearsStatus)))))) ?_
  decide +kernel

theorem test_meets_OtherAnnouncementsAct :
    let s := withTake peerTake running
    let post := withTake { rollingTake with phase := .post, e := some 700, sr := 600 } running
    let named (f : HeardFrame) : Identity := announcedIdentity running (readStatusPayload f.payload)
    let q := makePending { waitingStart true with start := 850 } allClosing
    let quick : State := { s with takes := { s.takes with postRoll := 0 } }
    (HearsFollowed s (announcing 0 0 0 0) 3 ∧ openSlot s = some 0 ∧ peerTake.origin = (3 : Fin 8).val ∧
        0 < s.takes.postRoll) ∧
      (HearsFollowed running (announcing 3 5 800 990) 3 ∧ (named (announcing 3 5 800 990)).origin = (3 : Fin 8).val ∧
        isLater running.day 990 running.counter.newest = false ∧
        countAfter running.day 990 running.counter.newest < running.takes.postRoll ∧
        cardFull (withSpace .full running) = true) ∧
      (HearsFollowed s (announcing 2 6 900 0) 3 ∧ isEarlier s.day peerTake.sr (named (announcing 2 6 900 0)).start = true) ∧
      (HearsFollowed s (announcing 2 6 2000 0) 3 ∧ isEarlier s.day peerTake.sr (named (announcing 2 6 2000 0)).start = true ∧
        isLater s.day (named (announcing 2 6 2000 0)).start s.counter.newest = true ∧ cardFull s = false) ∧
      (HearsFollowed quick (announcing 2 6 900 0) 3 ∧ quick.takes.postRoll = 0 ∧ quick.counter.newest < quick.day ∧
        openSlot quick = some 0 ∧ isLater quick.day 900 quick.counter.newest = false) ∧
      (({ rollingTake with origin := 5, sr := 800 } : Take).sr = (named (announcing 2 5 800 0)).start ∧
        (named (announcing 2 5 800 0)).origin < 5) ∧
      (HearsFollowed post (announcing 2 5 800 0) 3 ∧ openSlot post = some 0 ∧ emptySlot post = some 1 ∧
        isLater post.day 800 700 = true ∧
        isLater post.day (posSub post.day 800 1) (posAdd post.day 700 post.takes.postRoll) = false ∧
        isLater post.day 800 post.counter.newest = false ∧ cardFull post = false ∧
        named (announcing 2 5 800 0) ≠ ({ rollingTake with phase := .post, e := some 700, sr := 600 } : Take).identity) ∧
      (HearsFollowed q (announcing 2 5 800 0) 3 ∧ openSlot q = none ∧ emptySlot q = none ∧
        isEarlier q.day 800 850 = true ∧ isEarlier q.day 850 900 = true ∧
        named (announcing 2 5 800 0) ∉ q.takes.closed) ∧
      (emptySlot (withPending true running) = some 0 ∧ isEarlier running.day 800 (waitingStart true).start = true) := by
  have heard {p : HeardFrame} {u : State} {v : Prop} : hearsThree p u = true ∧ v → HearsFollowed u p 3 ∧ v :=
    And.imp_left hearsFollowed
  refine And.imp heard (And.imp heard (And.imp heard (And.imp heard (And.imp heard (And.imp id (And.imp heard
    (And.imp_left heard))))))) ?_
  decide +kernel

/-- Each event at which a take whose positions are all accounted enters CLOSING issues its record; one issued stays so (R161,
R164). -/
theorem test_meets_RecordDecided :
    let at_ (q : Nat) (t : Take) : State :=
      withSpace .full (withTake t { running with takes := { running.takes with postRoll := q } })
    let issued : Option (Option (Nat × Bool) × Option Nat) := some (some (0, true), some 3)
    after (.stop []) (at_ 0 { rollingTake with next := 1001 }) recordState = issued ∧
      after (.awaitedStop quietFrame) (at_ 0 { awaitingTake with next := 1001 }) recordState = issued ∧
      after (.postRollComplete quietFrame) (at_ 1 { endingTake with e := some 1000, postRoll := 0, next := 1001 }) recordState =
        issued ∧
      after (.halfDayStop quietFrame) (atPosition 2073600899 (at_ 0 { rollingTake with next := 2073600900 })) recordState =
        issued ∧
      after (.statusFrame (announcing 2 6 900 0)) (at_ 0 { peerTake with next := 1001 }) recordState = issued ∧
      after (.stop []) (at_ 0 { rollingTake with indexIssued := true }) recordState = some (some (0, true), none) := by
  refine ⟨?_, ?_, ?_, ?_, ?_, ?_⟩ <;> decide +kernel

/-- The check over the digits 1 to 9 (R86). A frame row before the first IDLE in RUN is not heard; on an IDLE line it is, ending
16 bit times after its last stop bit (R84). A departure with Q = 0 to a take that overlaps the stopped one closes the take and
starts none (R115). -/
theorem test_frame_rows :
    let f := heard 4 3 (be 2 0 ++ be 2 1 ++ be 2 4)
    let deaf : State := { running with link := { running.link with receiver := .waiting, line := .busy } }
    let s := withTake peerTake { running with takes := { running.takes with postRoll := 0 } }
    crc [49, 50, 51, 52, 53, 54, 55, 56, 57] = 10673 ∧
      after (.noteGoneFrame f) deaf (fun t => (t.time, t.link.counts.received)) = some (0, 0) ∧
      after (.noteGoneFrame f) running (fun t => (t.time, t.link.counts.received, t.link.receiver)) =
        some (136, 1, .ready) ∧
      after (.statusFrame (announcing 2 6 900 0)) s
          (fun t => (t.takes.slots[0].map Take.phase, t.takes.slots[1].isSome, t.takes.pendingStart.isSome)) =
        some (some .closing, false, false) := by decide +kernel

theorem test_meets_NoteTrafficOfAPeer :
    let n := heard 2 3 (noteBytes (noteOf 3 1))
    let r := heard 3 3 (be 1 0 ++ be 2 0 ++ be 2 2)
    let g := heard 4 3 (be 2 0 ++ be 2 1 ++ be 2 4)
    let own := withNotes [{ note := noteOf 0 2, state := .written }] running
    (canHear 2#8 n running = true ∧ canHear 3#8 r own = true ∧ canHear 4#8 g (withPeer running) = true) ∧
      frameValid 2#8 n = true ∧ frameValid 3#8 r = true ∧ frameValid 4#8 g = true ∧
      readNotePayload n.payload = some { ref := none, pos := none, track := none, text := [] } ∧
      noteKindOf (field n.payload 4 1) = some .slate ∧ field n.payload 2 2 = 1 ∧
      contentsFit running.day .slate none none none = true ∧
      (∀ y ∈ running.store.notes, y.note.id ≠ { originator := 3, run := 0, seq := 1 }) ∧
      (∃ y ∈ own.store.notes, y.note = noteOf 0 2) ∧ field r.payload 3 2 = 2 ∧ field r.payload 0 1 = running.port.station.val ∧
      field r.payload 1 2 = own.link.run ∧ 2 ≤ own.store.seq ∧ own.link.queue.length + 4 ≤ 8 ∧
      (withPeer running).link.peers[(3 : Fin 8)].run = some (field g.payload 0 2) ∧
      field g.payload 2 2 ≤ (withPeer running).link.peers[(3 : Fin 8)].heardUpTo + 1 ∧
      (withPeer running).link.peers[(3 : Fin 8)].heardUpTo < field g.payload 4 2 := by decide +kernel

/-- A peer note that is rejected (a MARK without a position, the next one wanted), a duplicate, and one at a full store. -/
theorem test_meets_NoteTrafficRejectedDuplicateAndFull :
    let bad := heard 2 3 (noteBytes { noteOf 3 1 with kind := .mark })
    let held := withNotes [{ note := noteOf 3 1, state := .pending }] running
    let full (x : NoteWrite) : State := withNotes (List.replicate 256 { note := noteOf 5 1, state := x }) running
    (frameValid 2#8 bad = true ∧ canHear 2#8 bad running = true ∧ field bad.payload 2 2 = 0 + 1 ∧
      contentsFit running.day .mark none none none = false) ∧
      (∃ y ∈ held.store.notes, y.note.id = { originator := 3, run := 0, seq := 1 }) ∧
      (256 ≤ (full .pending).store.notes.length ∧ (∀ x ∈ (full .pending).store.notes, x.state ≠ .written)) ∧
      (full .written).store.notes =
        [] ++ { note := noteOf 5 1, state := .written } :: List.replicate 255 { note := noteOf 5 1, state := .written } := by
  decide +kernel

/-- A STATUS with a high-water above heard-up-to, with a request allowed, made too soon, and no room to queue it (R139). -/
theorem test_meets_NoteTrafficCatchUp :
    let f := heard 1 3 (statusBytes { peerStatus 0 0 0 0 with highWater := 9 })
    let full := withQueue .defer (List.replicate 8 { frame := .noteGone 0 1 1, attempts := 0 }) running
    let asked := setPeer 3 { Peer.reset with lastRequest := some 0 } running
    canHear 1#8 f running = true ∧ f.payload.length = 40 ∧ f.check = crc (1#8 :: f.sender :: 40#8 :: f.payload) ∧
      after (.statusFrame f) running
          (fun t => (t.link.queue.map TxEntry.frame, t.link.peers[(3 : Fin 8)].lastRequest, t.time)) =
        some ([.noteRequest 3 0 1], some 476, 476) ∧
      after (.statusFrame f) asked (fun t => (t.link.queue, t.link.peers[(3 : Fin 8)].lastRequest)) = some ([], some 0) ∧
      after (.statusFrame f) full (fun t => (t.link.queue.length, t.link.counts.refused)) = some (8, 1) := by decide +kernel

theorem test_meets_WordsIntegersAndDifferences :
    Track.reset.trim ≤ 65535 ∧ 256 ≤ (BitVec.ofInt 24 1).toInt.natAbs * Track.reset.trim ∧
      (BitVec.ofInt 24 (-127)).toInt.natAbs * Track.reset.trim < 524288 ∧
      (2 ^ (13 - 1) ≤ 1 * 4096 ∧ 1 * 4096 < 2 ^ 13 ∧ (11 : Int) + (13 - 19) - 6 < 1 ∧ 1 ≤ (11 : Int) + (13 - 19) - 0) ∧
      (2 ^ (20 - 1) ≤ 1023 * 1025 ∧ 1023 * 1025 < 2 ^ 20 ∧ (1023 * 1025 + 2 ^ (20 - 20)) / 2 ^ (20 - 19) = 524288) ∧ 0 < 4147200000 ∧ 4147200000 % 2 = 0 := by decide

theorem test_meets_PayloadsAndMessagesReadBack :
    let x := peerStatus 2 999 0 0
    x.run < 65536 ∧ x.pos < 2 ^ 40 ∧ 1 ≤ x.scene.length ∧ x.scene.length ≤ 12 ∧
      (∀ ch ∈ x.scene, 32 ≤ ch.toNat ∧ ch.toNat ≤ 126) ∧ (noteOf 3 65535).id.seq < 65536 ∧
      (noteOf 3 65535).text.length ≤ 64 ∧ (List.replicate 255 (0 : Byte)).length ≤ 255 ∧ namesNoCommand 0x15 = true ∧
      isPartialMessage [0x10, 3, 1] = true ∧
      ((running.select.hostByte 0x20).port.selection = .receiving [0x20] ∧ isPartialMessage [0x20, 0] = false ∧
        isPartialMessage [0x20, 1] = true ∧ ((running.select.hostByte 0x20).hostByte 0).port.selection = .spent) := by
  decide +kernel

/-- The codes of R194: 0x20 is START, 0x01 CONFIGURE CLOCK; what comes after a whole message is no part of it (R193). -/
theorem test_messages_are_read :
    readMessage [0x20, 0] = .start [] ∧ readMessage [0x01, 5, 1, 25, 0, 0, 2, 7] = .configureClock [1, 25, 0, 0, 2] ∧
      readMessage [0x15, 1, 9] = .unknownCommand 0x15 [9] ∧ readMessage [0x00] = .responseRead ∧
      readMessage [0x10, 3, 1] = .selectionReleased [0x10, 3, 1] := by decide

/-! What every step keeps: the state after reset meets each promise, whatever the strap, is a statement of its own; here are
states in RUN that meet the ones in use there, and a command that moves the cursor. -/

theorem test_meets_AttentionIsAlwaysDriven :
    (raise .clip running).notices.attention = true ∧ (raise .clip running).notices.pending[(10 : Fin 20)] = true ∧
      isPending .clip (raise .clip running) = true ∧
      after (.ackNotices [0, 0, 4, 0]) (raise .clip running) (isPending .clip) = some false := by decide

theorem test_meets_SetupStaysQuiet : SetupQuiet State.reset := by
  constructor <;> decide

theorem test_meets_AtMostOneTakeIsOpen : OneOpenTake (withTake rollingTake running) := by
  constructor <;> decide

theorem test_meets_EveryPositionIsAccounted : TakesAccounted (withTake accountedTake running) := by
  constructor
  · decide
  · intro i t h
    have others : ∀ j : Fin 3, j ≠ 0 → (withTake accountedTake running).takes.slots[j] = none := by decide
    by_cases hi : i = 0
    case neg => rw [others i hi] at h; cases h
    subst hi
    simp only [withTake, setSlot] at h
    have : t = accountedTake := (Option.some.inj (h.symm.trans rfl))
    subst this
    decide

theorem test_meets_RecordsRingAndMixStayBounded :
    RingBounded (withTake rollingTake running) ∧ running.takes.closed.length ≤ 4 ∧ rollingTake.gaps.length ≤ 16 ∧
      SettingsInRange GateSettings.reset ∧ running.mixer.blockCount < 64 := by
  refine ⟨by unfold RingBounded; decide, by decide, by decide, ?_, by decide⟩
  constructor <;> decide

theorem test_meets_StoreAndQueueStaySound :
    QueueSound (withQueue .defer [{ frame := .status, attempts := 2 }] running) ∧
      StoreSound (withNotes [{ note := noteOf 0 9, state := .pending }] running) := by
  constructor <;> constructor <;> decide

theorem test_meets_CursorNeverGoesBack :
    CardSound (withWrite (.fault [] 0) .first false false running) := by
  refine ⟨fun _ => ⟨0, 9999, 0, by decide⟩, ?_, by decide, by decide⟩
  intro w h
  have : w = { addr := 0, content := .fault [] 0, attempt := .first, stale := false, ofRetryCommand := false } :=
    (Option.some.inj (h.symm.trans rfl))
  subst this
  exact ⟨by decide, 0, 9999, by decide⟩

end Sys2Proof.Tests
end

section
/-! PROOFS. Stage 2 and Stage 3 as arithmetic on the exact product and the exact sum, the signed difference as the
representative of its residue, and the statement on words, integers and differences (R1, R12 to R18). -/

namespace Sys2Proof.Proofs

open Sys2Proof Sys2Proof.Machine

/-! ### Rounding -/

/-- Adding half of an even divisor before dividing rounds to nearest, an exact half upward: the two ways to state ROUND
(R14, R18). -/
theorem add_half_div (n : Nat) {half whole : Nat} (pos : 0 < half) (twice : whole = 2 * half) :
    (n + half) / whole = if half ≤ n % whole then n / whole + 1 else n / whole := by
  subst twice
  have division := Nat.div_add_mod n (2 * half)
  have below := Nat.mod_lt n (show 2 * half > 0 by omega)
  split
  case isTrue => rw [Nat.div_eq_iff (by omega), Nat.add_mul, Nat.mul_comm _ (2 * half)]; omega
  case isFalse => rw [Nat.div_eq_iff (by omega), Nat.mul_comm _ (2 * half)]; omega

/-! ### The digits of the product -/

/-- n is nonzero and has b binary digits (R13). -/
structure HasDigits (n b : Nat) : Prop where
  pos : 0 < b
  lower : 2 ^ (b - 1) ≤ n
  upper : n < 2 ^ b

theorem HasDigits.ne_zero {n b : Nat} (h : HasDigits n b) : n ≠ 0 := by
  have := Nat.two_pow_pos (b - 1)
  have := h.lower
  omega

theorem hasDigits_log2 {n : Nat} (h : n ≠ 0) : HasDigits n (Nat.log2 n + 1) :=
  ⟨Nat.succ_pos _, Nat.log2_self_le h, Nat.lt_log2_self⟩

theorem HasDigits.log2_add_one {n b : Nat} (h : HasDigits n b) : Nat.log2 n + 1 = b := by
  have log : Nat.log2 n = b - 1 :=
    (Nat.log2_eq_iff h.ne_zero).2 ⟨h.lower, by rw [Nat.sub_add_cancel h.pos]; exact h.upper⟩
  have := h.pos
  omega

/-- A number below 2^c has at most c digits. -/
theorem HasDigits.le_of_lt {n b c : Nat} (h : HasDigits n b) (lt : n < 2 ^ c) : b ≤ c := by
  have : b - 1 < c := (Nat.pow_lt_pow_iff_right (by decide)).1 (h.lower.trans_lt lt)
  omega

/-- A number from 2^c on has more than c digits. -/
theorem HasDigits.lt_of_le {n b c : Nat} (h : HasDigits n b) (le : 2 ^ c ≤ n) : c < b :=
  (Nat.pow_lt_pow_iff_right (by decide)).1 (le.trans_lt h.upper)

/-! ### The significand -/

/-- The significand is the product divided by its dropped bits, under ROUND with half a unit added first (R13, R14). -/
theorem significand_eq (mode : Rounding) (n b : Nat) :
    significand mode n b =
      if b ≤ 19 then n * 2 ^ (19 - b)
      else if mode = .round then (n + 2 ^ (b - 20)) / 2 ^ (b - 19)
      else n / 2 ^ (b - 19) := by
  unfold significand
  split
  case isTrue => rfl
  case isFalse long =>
    have twice : 2 ^ (b - 19) = 2 * 2 ^ (b - 20) := by rw [← Nat.pow_succ']; congr 1; omega
    rw [add_half_div n (Nat.two_pow_pos _) twice, ← ite_and]

/-- The significand has 19 digits, or is 2^19 after a carry (R13, R15). -/
theorem significand_range (mode : Rounding) {n b : Nat} (h : HasDigits n b) :
    262144 ≤ significand mode n b ∧ significand mode n b ≤ 524288 := by
  obtain ⟨pos, lower, upper⟩ := h
  rw [significand_eq]
  split
  case isTrue short =>
    have low : 2 ^ (b - 1) * 2 ^ (19 - b) = 262144 := by rw [← Nat.pow_add, show b - 1 + (19 - b) = 18 by omega]
    have high : 2 ^ b * 2 ^ (19 - b) = 524288 := by rw [← Nat.pow_add, show b + (19 - b) = 19 by omega]
    exact ⟨low ▸ Nat.mul_le_mul_right _ lower, high ▸ Nat.mul_le_mul_right _ upper.le⟩
  case isFalse long =>
    obtain ⟨d, rfl⟩ : ∃ d, b = d + 20 := ⟨b - 20, by omega⟩
    have dropped : 2 ^ (d + 20 - 19) = 2 * 2 ^ d := by rw [show d + 20 - 19 = d + 1 by omega, Nat.pow_succ']
    have least : 2 ^ (d + 20 - 1) = 524288 * 2 ^ d := by rw [show d + 20 - 1 = d + 19 by omega, Nat.pow_add, Nat.mul_comm]
    have limit : 2 ^ (d + 20) = 1048576 * 2 ^ d := by rw [Nat.pow_add, Nat.mul_comm]
    have unit := Nat.two_pow_pos d
    rw [dropped, show d + 20 - 20 = d by omega]
    rw [least] at lower
    rw [limit] at upper
    split
    all_goals
      rw [Nat.le_div_iff_mul_le (by omega), ← Nat.lt_succ_iff (n := 524288), Nat.div_lt_iff_lt_mul (by omega)]
      omega

/-- The significand of the greatest product, |-8,388,608| times the trim 65,535, is 524,280, so that no product of 39 digits
carries (R17). -/
theorem significand_39_digits_le (mode : Rounding) {n : Nat} (bound : n ≤ 8388608 * 65535) :
    significand mode n 39 ≤ 524280 := by
  rw [significand_eq, if_neg (by decide)]
  split
  all_goals omega

/-! ### The stored word -/

/-- The exponent of the stored word for a product of b digits whose significand came to m (R13, R15). -/
def stage2Exponent (b pathExp m : Nat) : Int := 11 + ((b : Int) - 19) - pathExp + (if m = 524288 then 1 else 0)

/-- The word with the sign, the exponent above, and the significand m of which a carry leaves 262,144 (R13, R15). -/
def normalisedWord (neg : Bool) (b pathExp m : Nat) : FieldWord :=
  { sign := neg, exponent := BitVec.ofInt 5 (stage2Exponent b pathExp m)
    fraction := if m = 524288 then 0 else BitVec.ofNat 18 (m - 262144) }

/-- What packWord packs once the exponent is known to be a natural number (R3, R15). -/
theorem packWord_eq_normalisedWord (neg : Bool) {b k m e : Nat} (place : stage2Exponent b k m = e) :
    packWord neg e (if m = 524288 then 262144 else m) = normalisedWord neg b k m := by
  unfold packWord normalisedWord
  rw [place, BitVec.ofInt_natCast]
  by_cases carried : m = 524288
  case pos => rw [if_pos carried, if_pos carried, Nat.sub_self]; rfl
  case neg => rw [if_neg carried, if_neg carried]

/-- Stage 2 gives exact zero for a product of 0 (R12). -/
@[simp] theorem stage2_zero (mode : Rounding) (neg : Bool) (k : Nat) : stage2 mode neg 0 k = FieldWord.zero := rfl

/-- Stage 2 normalises, carries, and flushes an exponent below 1 (R13 to R16). -/
theorem stage2_of_hasDigits (mode : Rounding) (neg : Bool) (k : Nat) {n b : Nat} (h : HasDigits n b) :
    stage2 mode neg n k =
      if stage2Exponent b k (significand mode n b) < 1 then FieldWord.zero
      else normalisedWord neg b k (significand mode n b) := by
  unfold stage2
  rw [if_neg h.ne_zero, h.log2_add_one]
  simp only [beq_iff_eq]
  generalize significand mode n b = m
  have biased :
      ((64 + 11 + b + (if m = 524288 then 1 else 0) - 19 - k : Nat) : Int) = max 0 (64 + stage2Exponent b k m) := by
    unfold stage2Exponent
    split
    all_goals omega
  generalize 64 + 11 + b + (if m = 524288 then 1 else 0) - 19 - k = e64 at biased ⊢
  split
  case isTrue flushed => rw [if_pos (by omega)]
  case isFalse kept =>
    have place : stage2Exponent b k m = (e64 - 64 : Nat) := by omega
    rw [packWord_eq_normalisedWord neg place, if_neg (by omega)]

/-- The sign of a stored word that is not exact zero is the sign handed to Stage 2 (R12). -/
theorem stage2_eq_zero_or_sign (mode : Rounding) (neg : Bool) (n k : Nat) :
    stage2 mode neg n k = FieldWord.zero ∨ (stage2 mode neg n k).sign = neg := by
  by_cases zero : n = 0
  case pos => exact .inl (by rw [zero, stage2_zero])
  case neg =>
    rw [stage2_of_hasDigits mode neg k (hasDigits_log2 zero)]
    split
    · exact .inl rfl
    · exact .inr rfl

/-! ### The value of a stored word -/

@[simp] theorem wordUnits_zero : wordUnits FieldWord.zero = 0 := rfl

theorem wordUnits_nonpos {v : FieldWord} (h : v.sign = true) : wordUnits v ≤ 0 := by
  unfold wordUnits
  split
  case isTrue => exact Int.le_refl 0
  case isFalse => simpa only [h, if_true] using Int.neg_nonpos_of_nonneg (Int.natCast_nonneg _)

theorem wordUnits_nonneg {v : FieldWord} (h : v.sign = false) : 0 ≤ wordUnits v := by
  unfold wordUnits
  split
  case isTrue => exact Int.le_refl 0
  case isFalse => simpa only [h, Bool.false_eq_true, if_false] using Int.natCast_nonneg _

theorem natAbs_wordUnits {v : FieldWord} (h : v.exponent ≠ 0) :
    (wordUnits v).natAbs = (262144 + v.fraction.toNat) * 2 ^ (v.exponent.toNat - 1) := by
  unfold wordUnits
  rw [if_neg h]
  cases v.sign
  case false => exact Int.natAbs_natCast _
  case true => exact (Int.natAbs_neg _).trans (Int.natAbs_natCast _)

/-- A word whose exponent fits its five bits stands for m × 2^(b - 9 - pathExp) units, with or without a carry (R3, R13). -/
theorem natAbs_wordUnits_normalisedWord (neg : Bool) {b k m : Nat} (low : 262144 ≤ m) (high : m ≤ 524288)
    (least : 1 ≤ stage2Exponent b k m) (most : stage2Exponent b k m ≤ 31) :
    (wordUnits (normalisedWord neg b k m)).natAbs * 2 ^ (k + 9) = m * 2 ^ b := by
  obtain ⟨e, exponent⟩ : ∃ e : Nat, stage2Exponent b k m = (e + 1 : Nat) :=
    ⟨(stage2Exponent b k m - 1).toNat, by omega⟩
  have field : (normalisedWord neg b k m).exponent.toNat = e + 1 := by
    rw [normalisedWord, exponent, BitVec.ofInt_natCast, BitVec.toNat_ofNat]
    omega
  rw [natAbs_wordUnits (fun zero => by simp [zero] at field), field]
  unfold stage2Exponent at exponent
  unfold normalisedWord
  by_cases carried : m = 524288
  case pos =>
    rw [if_pos carried] at exponent ⊢
    have doubled : 2 ^ e * 2 ^ (k + 9) = 2 * 2 ^ b := by
      rw [← Nat.pow_succ', ← Nat.pow_add]
      congr 1
      omega
    change 262144 * 2 ^ e * 2 ^ (k + 9) = m * 2 ^ b
    rw [Nat.mul_assoc, doubled, carried]
    omega
  case neg =>
    rw [if_neg carried] at exponent ⊢
    rw [show b = e + (k + 9) by omega, Nat.pow_add 2 e, BitVec.toNat_ofNat, Nat.mod_eq_of_lt (by omega),
      Nat.add_sub_cancel' low, Nat.add_sub_cancel, Nat.mul_assoc]

/-- Stage 2's value is the significand at its place, or 0 after a flush, while the exponent fits its five bits (R13, R16). -/
theorem natAbs_wordUnits_stage2 (mode : Rounding) (neg : Bool) (k : Nat) {n b : Nat} (h : HasDigits n b)
    (most : stage2Exponent b k (significand mode n b) ≤ 31) :
    (wordUnits (stage2 mode neg n k)).natAbs * 2 ^ (k + 9) =
      if stage2Exponent b k (significand mode n b) < 1 then 0 else significand mode n b * 2 ^ b := by
  obtain ⟨low, high⟩ := significand_range mode h
  rw [stage2_of_hasDigits mode neg k h]
  split
  case isTrue => exact Nat.zero_mul _
  case isFalse least => exact natAbs_wordUnits_normalisedWord neg low high (by omega) most

/-- Of a reading times a trim the exponent fits its five bits, and the significand at its place stays within 65,535/4,096
(R17). -/
theorem stage2Exponent_le_and_significand_mul_le (mode : Rounding) (k : Nat) {n b : Nat} (h : HasDigits n b)
    (bound : n ≤ 8388608 * 65535) :
    stage2Exponent b k (significand mode n b) ≤ 31 ∧ significand mode n b * 2 ^ b ≤ 65535 * 2 ^ 42 := by
  obtain ⟨-, high⟩ := significand_range mode h
  have digits : b ≤ 39 := h.le_of_lt (by omega)
  unfold stage2Exponent
  rcases digits.lt_or_eq with fewer | rfl
  case inl =>
    have place : 2 ^ b ≤ 2 ^ 38 := Nat.pow_le_pow_right (by decide) (by omega)
    exact ⟨by split <;> omega, (Nat.mul_le_mul high place).trans (by decide)⟩
  case inr =>
    have most := significand_39_digits_le mode bound
    exact ⟨by split <;> omega, (Nat.mul_le_mul_right _ most).trans (by decide)⟩

/-- Stage 2 cannot produce a magnitude above 65,535/4,096 (R17). -/
theorem natAbs_wordUnits_stage2_le (mode : Rounding) (neg : Bool) (k : Nat) {n : Nat} (bound : n ≤ 8388608 * 65535) :
    (wordUnits (stage2 mode neg n k)).natAbs ≤ 65535 * 2 ^ 33 := by
  by_cases zero : n = 0
  case pos => simp [zero]
  case neg =>
    have h := hasDigits_log2 zero
    obtain ⟨fits, within⟩ := stage2Exponent_le_and_significand_mul_le mode k h bound
    have value := natAbs_wordUnits_stage2 mode neg k h fits
    have scale : 2 ^ 9 ≤ 2 ^ (k + 9) := Nat.pow_le_pow_right (by decide) (by omega)
    have scaled := Nat.mul_le_mul_left (wordUnits (stage2 mode neg n k)).natAbs scale
    split at value <;> omega

/-- A product of 9 to 19 digits is stored exactly on path exponent 0: nothing is dropped and nothing flushed (R13, R16). -/
theorem natAbs_wordUnits_stage2_of_short (mode : Rounding) (neg : Bool) {n : Nat} (low : 256 ≤ n) (high : n < 524288) :
    (wordUnits (stage2 mode neg n 0)).natAbs = n * 2 ^ 10 := by
  have h := hasDigits_log2 (n := n) (by omega)
  generalize Nat.log2 n + 1 = b at h
  have least : 8 < b := h.lt_of_le low
  have most : b ≤ 19 := h.le_of_lt high
  have value := natAbs_wordUnits_stage2 mode neg 0 h
    (stage2Exponent_le_and_significand_mul_le mode 0 h (by omega)).1
  have unflushed : ¬stage2Exponent b 0 (significand mode n b) < 1 := by unfold stage2Exponent; split <;> omega
  rw [if_neg unflushed, significand_eq, if_pos most, Nat.mul_assoc, ← Nat.pow_add, Nat.sub_add_cancel most] at value
  omega

/-! ### Stage 2 over a reading -/

theorem readingMag_le (x : BitVec 24) : readingMag x ≤ 8388608 := by
  have low := BitVec.le_toInt x
  have high := BitVec.toInt_lt (x := x)
  unfold readingMag
  omega

/-- The stored word's sign is the reading's, where the word stands for anything but 0 (R12). -/
theorem toInt_of_wordUnits_trimmed (mode : Rounding) (t : Track) (x : BitVec 24) (k : Nat) :
    (wordUnits (trimmed mode t x k) < 0 → x.toInt < 0) ∧ (0 < wordUnits (trimmed mode t x k) → 0 < x.toInt) := by
  unfold trimmed
  by_cases silent : x.toInt = 0
  case pos => simp [readingMag, silent]
  case neg =>
    rcases stage2_eq_zero_or_sign mode (decide (x.toInt < 0)) (readingMag x * t.trim) k with zero | sign
    case inl => simp [zero]
    case inr =>
      by_cases below : x.toInt < 0
      case pos =>
        have := wordUnits_nonpos (sign.trans (decide_eq_true below))
        omega
      case neg =>
        have := wordUnits_nonneg (sign.trans (decide_eq_false below))
        omega

/-- The value stored for a reading, under a trim in the range of SET TRIM: bounded, signed as the reading, and exact where nothing
is dropped (R12, R13, R17). -/
theorem trimmed_value (mode : Rounding) (t : Track) (x : BitVec 24) (k : Nat) (trim : t.trim ≤ 65535) :
    let v := wordUnits (trimmed mode t x k)
    let n := x.toInt.natAbs * t.trim
    v.natAbs ≤ 65535 * 2 ^ 33 ∧ (n = 0 → trimmed mode t x k = FieldWord.zero) ∧ (v < 0 → x.toInt < 0) ∧
      (0 < v → 0 < x.toInt) ∧ (k = 0 → 256 ≤ n → n < 524288 → v.natAbs = n * 2 ^ 10) := by
  obtain ⟨negative, positive⟩ := toInt_of_wordUnits_trimmed mode t x k
  refine ⟨natAbs_wordUnits_stage2_le _ _ _ (Nat.mul_le_mul (readingMag_le x) trim), ?silent, negative, positive, ?exact⟩
  case silent =>
    intro zero
    unfold trimmed readingMag
    rw [zero, stage2_zero]
  case exact =>
    rintro rfl low high
    exact natAbs_wordUnits_stage2_of_short mode _ low high

/-- The stored word for a product of b digits: flushed, or the normalised word (R13 to R16). -/
theorem trimmed_word (mode : Rounding) (t : Track) (x : BitVec 24) (k b : Nat)
    (h : HasDigits (x.toInt.natAbs * t.trim) b) :
    let m := significand mode (x.toInt.natAbs * t.trim) b
    (stage2Exponent b k m < 1 → trimmed mode t x k = FieldWord.zero) ∧
      (1 ≤ stage2Exponent b k m → trimmed mode t x k = normalisedWord (decide (x.toInt < 0)) b k m) := by
  have word := stage2_of_hasDigits mode (decide (x.toInt < 0)) k h
  exact ⟨fun flushed => word.trans (if_pos flushed), fun kept => word.trans (if_neg (by omega))⟩

/-! ### Stage 3 -/

/-- The integer nearest to an exact sum in units of 2^-57 under the mode, before the clamp (R18). -/
def roundedSum (mode : Rounding) (sum : Int) : Int :=
  let mag : Nat := if mode = .round then (sum.natAbs + 2 ^ 33) / 2 ^ 34 else sum.natAbs / 2 ^ 34
  if sum < 0 then -(mag : Int) else mag

/-- ROUND and CHOP of an exact sum, each by the sum's sign (R18). -/
theorem roundedSum_eq (mode : Rounding) (sum : Int) :
    roundedSum mode sum =
      if mode = .round then
        if sum < 0 then -(((sum.natAbs + 2 ^ 33) / 2 ^ 34 : Nat) : Int) else (((sum.natAbs + 2 ^ 33) / 2 ^ 34 : Nat) : Int)
      else if sum < 0 then -((sum.natAbs / 2 ^ 34 : Nat) : Int) else ((sum.natAbs / 2 ^ 34 : Nat) : Int) := by
  unfold roundedSum
  cases mode
  case chop => simp only [reduceCtorEq, if_false]
  case round => simp only [if_true]

/-- Stage 3 is the rounded sum, or the end of the 24-bit range that it passes (R18, R19). -/
theorem stage3_eq_ite (mode : Rounding) (sum : Int) :
    stage3 mode sum =
      if roundedSum mode sum > 8388607 then (8388607, true)
      else if roundedSum mode sum < -8388608 then (-8388608, true)
      else (roundedSum mode sum, false) := by
  have rounded :
      (if mode = .round ∧ 2 ^ 33 ≤ sum.natAbs % 2 ^ 34 then sum.natAbs / 2 ^ 34 + 1 else sum.natAbs / 2 ^ 34) =
        if mode = .round then (sum.natAbs + 2 ^ 33) / 2 ^ 34 else sum.natAbs / 2 ^ 34 := by
    rw [add_half_div sum.natAbs (half := 2 ^ 33) (by decide) (by decide), ite_and]
  unfold stage3 roundedSum
  simp only [rounded]

/-- Stage 3 rounds the magnitude under the mode and clamps the result to 24 bits (R18, R19). -/
theorem stage3_eq (mode : Rounding) (sum : Int) :
    stage3 mode sum =
      (max (-8388608) (min 8388607 (roundedSum mode sum)),
        decide (roundedSum mode sum < -8388608 ∨ 8388607 < roundedSum mode sum)) := by
  rw [stage3_eq_ite]
  generalize roundedSum mode sum = v
  split
  case isTrue above => exact Prod.ext (by omega) (decide_eq_true (by omega)).symm
  case isFalse =>
    split
    case isTrue below => exact Prod.ext (by omega) (decide_eq_true (by omega)).symm
    case isFalse => exact Prod.ext (by omega) (decide_eq_false (by omega)).symm

/-! ### The signed difference -/

/-- The signed difference is the residue of b - a where that is at most half a day, and the residue less a day elsewhere (R1). -/
theorem signedDiff_eq (D a b : Nat) :
    signedDiff D a b =
      if 2 * (((b : Int) - a) % D) ≤ D then ((b : Int) - a) % D else ((b : Int) - a) % D - D :=
  rfl

/-- The signed difference represents b - a modulo D (R1). -/
theorem dvd_sub_signedDiff (D a b : Nat) : (D : Int) ∣ (b : Int) - (a : Int) - signedDiff D a b := by
  have residue : (D : Int) ∣ ((b : Int) - a) - ((b : Int) - a) % D := Int.dvd_self_sub_emod
  rw [signedDiff_eq]
  split
  case isTrue => exact residue
  case isFalse =>
    rw [← sub_add]
    exact residue.add (dvd_refl (D : Int))

/-- The signed difference lies above -D/2 and not above D/2 (R1). -/
theorem signedDiff_range {D : Nat} (a b : Nat) (pos : 0 < D) :
    -(D : Int) < 2 * signedDiff D a b ∧ 2 * signedDiff D a b ≤ (D : Int) := by
  have low := Int.emod_nonneg ((b : Int) - a) (show (D : Int) ≠ 0 by omega)
  have high := Int.emod_lt_of_pos ((b : Int) - a) (show (0 : Int) < D by omega)
  rw [signedDiff_eq]
  split
  all_goals omega

/-- The signed difference is 0 exactly between equal positions modulo D (R1). -/
theorem signedDiff_eq_zero_iff {D : Nat} (a b : Nat) (pos : 0 < D) : signedDiff D a b = 0 ↔ a % D = b % D := by
  have high := Int.emod_lt_of_pos ((b : Int) - a) (show (0 : Int) < D by omega)
  have residue : signedDiff D a b = 0 ↔ ((b : Int) - a) % D = 0 := by
    rw [signedDiff_eq]
    split
    all_goals omega
  rw [residue, ← Int.dvd_iff_emod_eq_zero]
  exact Nat.modEq_iff_dvd.symm

/-- The position half a day ahead is later (R1). -/
theorem isLater_half_day {D : Nat} (a : Nat) (pos : 0 < D) (even : D % 2 = 0) : isLater D ((a + D / 2) % D) a = true := by
  have residue : (((a + D / 2) % D : Nat) - (a : Int)) % D = (D / 2 : Nat) := by
    push_cast
    rw [Int.emod_sub_emod, add_sub_cancel_left]
    exact Int.emod_eq_of_lt (by omega) (by omega)
  have half : signedDiff D a ((a + D / 2) % D) = (D / 2 : Nat) := by
    rw [signedDiff_eq, residue, if_pos (by omega)]
  exact decide_eq_true (by omega)

/-! ### The statement -/

/-- Settles O52: Stage 2 by the digits of the product, Stage 3 by the half added before the division, the signed difference by
the residue it is taken from. -/
theorem wordsIntegersAndDifferences : Obligations.WordsIntegersAndDifferences := by
  unfold Obligations.WordsIntegersAndDifferences
  refine ⟨trimmed_value, ?word, ?integer, ?difference⟩
  case word =>
    intro mode t x k b n pos lower upper
    have word := trimmed_word mode t x k b ⟨pos, lower, upper⟩
    rw [significand_eq] at word
    exact word
  case integer =>
    intro sum chopped rounded mode
    have value : (if mode = .round then rounded else chopped) = roundedSum mode sum :=
      (roundedSum_eq mode sum).symm
    simp only [value, stage3_eq, decide_eq_true_iff, true_and]
  case difference =>
    intro D a b pos even
    obtain ⟨low, high⟩ := signedDiff_range a b pos
    exact ⟨low, high, dvd_sub_signedDiff D a b, signedDiff_eq_zero_iff a b pos, decide_eq_true_iff, decide_eq_true_iff,
      isLater_half_day a pos even⟩

end Sys2Proof.Proofs
end

section
/-! PROOFS. The track front end and what a frame brings it: the conversion of a track by its kind and path, the stored word's
exponent, the arrival of a frame in SETUP and in RUN, and the commands that set a trim, a gate and the clip flag (R3, R4, R6 to
R11, R20, R22, R23, R25, R147, R153). -/

namespace Sys2Proof.Proofs

open Sys2Proof Sys2Proof.Machine Sys2Proof.Safety

/-! ### The conversion of a track by its kind (R4, R7, R8) -/

section Conversion

variable {mode : Rounding} {t : Track} {r : Reading}

theorem convertTrack_off (kind : t.kind = .off) : convertTrack mode t r = { track := t, word := none, clip := false } := by
  simp only [convertTrack, kind]

theorem convertTrack_single (kind : t.kind = .single) :
    convertTrack mode t r = { track := t, word := some (trimmed mode t r.x 0), clip := isClipReading r.x } := by
  simp only [convertTrack, kind]

theorem convertTrack_receiver_valid (kind : t.kind = .receiver) (valid : r.valid = true) :
    convertTrack mode t r = { track := t, word := some (trimmed mode t r.x 0), clip := isClipReading r.x } := by
  simp only [convertTrack, kind, valid, if_true]

theorem convertTrack_receiver_invalid (kind : t.kind = .receiver) (invalid : r.valid = false) :
    convertTrack mode t r = { track := t, word := some FieldWord.absent, clip := false } := by
  simp only [convertTrack, kind, invalid, Bool.false_eq_true, if_false]

/-- A DUAL track once Stage 1 has chosen its reading, path exponent, path and quiet count. -/
theorem convertTrack_dual (kind : t.kind = .dual) {x : BitVec 24} {k quiet : Nat} {path : PathState}
    (chosen : dualPath t r = (x, k, path, quiet)) :
    convertTrack mode t r =
      { track := { t with path := path, quiet := quiet }, word := some (trimmed mode t x k), clip := isClipReading x } := by
  simp only [convertTrack, kind, chosen]

/-! ### The path of a DUAL track (R9) -/

theorem dualPath_high_below (path : t.path = .high) (below : r.h.toInt.natAbs < 7340032) :
    dualPath t r = (r.h, t.k, .high, t.quiet) := by
  simp only [dualPath, path]
  exact if_pos below

theorem dualPath_high_reaches (path : t.path = .high) (reaches : 7340032 ≤ r.h.toInt.natAbs) :
    dualPath t r = (r.l, 0, .low, 0) := by
  simp only [dualPath, path]
  exact if_neg (Nat.not_lt.2 reaches)

theorem dualPath_low_quiet (path : t.path = .low) (silent : r.h.toInt.natAbs < 4194304) :
    dualPath t r = if t.quiet + 1 < 64 then (r.l, 0, .low, t.quiet + 1) else (r.h, t.k, .high, 0) := by
  simp only [dualPath, path]
  exact if_pos silent

theorem dualPath_low_loud (path : t.path = .low) (loud : 4194304 ≤ r.h.toInt.natAbs) :
    dualPath t r = (r.l, 0, .low, 0) := by
  simp only [dualPath, path]
  exact if_neg (Nat.not_lt.2 loud)

/-! ### Input clips (R20) -/

theorem isClipReading_iff {x : BitVec 24} : isClipReading x = true ↔ x.toInt = -8388608 ∨ x.toInt = 8388607 := by
  simp only [isClipReading, Bool.or_eq_true, beq_iff_eq]

/-- A reading below the switch-down level is no clip, so the high path gives none (R9, R20). -/
theorem isClipReading_of_below_switchDown {x : BitVec 24} (below : x.toInt.natAbs < 7340032) : isClipReading x = false := by
  rw [Bool.eq_false_iff, Ne, isClipReading_iff]
  omega

/-- A DUAL track on its high-gain reading below the switch-down level gives no clip (R9, R20). -/
theorem convertTrack_dual_high (kind : t.kind = .dual) {quiet : Nat}
    (chosen : dualPath t r = (r.h, t.k, .high, quiet)) (below : r.h.toInt.natAbs < 7340032) :
    convertTrack mode t r =
      { track := { t with path := .high, quiet := quiet }, word := some (trimmed mode t r.h t.k), clip := false } := by
  rw [convertTrack_dual kind chosen, isClipReading_of_below_switchDown below]

/-- A DUAL track on its low-gain reading gives that reading's word on path exponent 0, and its clip (R9, R20). -/
theorem convertTrack_dual_low (kind : t.kind = .dual) {path : PathState} {quiet : Nat}
    (chosen : dualPath t r = (r.l, 0, path, quiet)) :
    (convertTrack mode t r).track = { t with path := path, quiet := quiet } ∧
      (convertTrack mode t r).word = some (trimmed mode t r.l 0) ∧
      ((convertTrack mode t r).clip = true ↔ r.l.toInt = -8388608 ∨ r.l.toInt = 8388607) := by
  rw [convertTrack_dual kind chosen]
  exact ⟨rfl, rfl, isClipReading_iff⟩

/-- The 64th quiet frame of a DUAL track in LOW is converted on the path it returns to (R9). -/
theorem convertTrack_dual_returns (kind : t.kind = .dual) (path : t.path = .low) (silent : r.h.toInt.natAbs < 4194304)
    (last : 64 ≤ t.quiet + 1) :
    convertTrack mode t r =
      { track := { t with path := .high, quiet := 0 }, word := some (trimmed mode t r.h t.k), clip := false } :=
  convertTrack_dual_high kind ((dualPath_low_quiet path silent).trans (if_neg (Nat.not_lt.2 last))) (by omega)

/-- An enabled track gives a word of Stage 2 unless it is a RECEIVER with an invalid sample (R4, R7 to R9). -/
theorem convertTrack_word (enabled : t.kind ≠ .off) (valid : t.kind = .receiver → r.valid = true) :
    ∃ x k, (convertTrack mode t r).word = some (trimmed mode t x k) := by
  cases kind : t.kind with
  | off => exact absurd kind enabled
  | single => exact ⟨r.x, 0, by rw [convertTrack_single kind]⟩
  | receiver => exact ⟨r.x, 0, by rw [convertTrack_receiver_valid kind (valid kind)]⟩
  | dual =>
    obtain ⟨⟨x, k, path, quiet⟩, chosen⟩ : ∃ c, dualPath t r = c := ⟨_, rfl⟩
    exact ⟨x, k, by rw [convertTrack_dual kind chosen]⟩

end Conversion

/-! ### The absent code (R3) -/

/-- A normalised word has an exponent of 1 to 31, and so is not the absent code (R3, R13). -/
theorem wordIsAbsent_normalisedWord (neg : Bool) {b k m : Nat} (least : 1 ≤ stage2Exponent b k m)
    (most : stage2Exponent b k m ≤ 31) : wordIsAbsent (normalisedWord neg b k m) = false := by
  obtain ⟨e, exponent⟩ : ∃ e : Nat, stage2Exponent b k m = e := ⟨(stage2Exponent b k m).toNat, by omega⟩
  have nonzero : BitVec.ofNat 5 e ≠ 0#5 := by
    intro zero
    have := congrArg BitVec.toNat zero
    simp only [BitVec.toNat_ofNat] at this
    omega
  rw [wordIsAbsent, normalisedWord, exponent, BitVec.ofInt_natCast]
  exact Bool.and_eq_false_imp.2 fun zero => absurd (eq_of_beq zero) nonzero

/-- Stage 2 of a reading never gives the absent code, under a trim in the range of SET TRIM (R3, R16, R17). -/
theorem wordIsAbsent_trimmed (mode : Rounding) {t : Track} (x : BitVec 24) (k : Nat) (trim : t.trim ≤ 65535) :
    wordIsAbsent (trimmed mode t x k) = false := by
  have bound : readingMag x * t.trim ≤ 8388608 * 65535 := Nat.mul_le_mul (readingMag_le x) trim
  unfold trimmed
  by_cases zero : readingMag x * t.trim = 0
  case pos => rw [zero, stage2_zero]; rfl
  case neg =>
    have digits := hasDigits_log2 zero
    rw [stage2_of_hasDigits mode _ k digits]
    split
    case isTrue flushed => rfl
    case isFalse kept =>
      exact wordIsAbsent_normalisedWord _ (by omega) (stage2Exponent_le_and_significand_mul_le mode k digits bound).1

/-- Settles O30, by the kind of the track and, for DUAL, by its path and the level of its high-gain reading. -/
theorem tracksConvertByKind : Obligations.TracksConvertByKind := by
  unfold Obligations.TracksConvertByKind
  intro mode t r
  refine ⟨convertTrack_off, convertTrack_receiver_invalid, ?single, fun kind => ⟨?highBelow, ?highReaches, ?lowQuiet,
    ?lowReturns, ?lowLoud⟩, ?word⟩
  case single =>
    intro kind
    have converted :
        convertTrack mode t r = { track := t, word := some (trimmed mode t r.x 0), clip := isClipReading r.x } := by
      rcases kind with single | ⟨receiver, valid⟩
      · exact convertTrack_single single
      · exact convertTrack_receiver_valid receiver valid
    rw [converted]
    exact ⟨rfl, rfl, isClipReading_iff⟩
  case highBelow =>
    intro path below
    rw [convertTrack_dual_high kind (dualPath_high_below path below) below, ← path]
  case highReaches =>
    intro path reaches
    exact convertTrack_dual_low kind (dualPath_high_reaches path reaches)
  case lowQuiet =>
    intro path silent more
    have chosen := (dualPath_low_quiet path silent).trans (if_pos more)
    rw [← path] at chosen
    exact convertTrack_dual_low kind chosen
  case lowReturns => exact convertTrack_dual_returns kind
  case lowLoud =>
    intro path loud
    have chosen := dualPath_low_loud path loud
    rw [← path] at chosen
    exact convertTrack_dual_low kind chosen
  case word =>
    intro trim enabled valid
    obtain ⟨x, k, word⟩ := convertTrack_word (mode := mode) enabled valid
    exact ⟨_, word, wordIsAbsent_trimmed mode x k trim⟩

/-! ### The arrival of a frame in SETUP (R6, R25, R147) -/

theorem inRun_of_setup {s : State} (setup : s.port.phase = .setup) : s.inRun = false := by
  rw [State.inRun, setup]; rfl

theorem inRun_of_run {s : State} (run : s.port.phase = .run) : s.inRun = true := by
  rw [State.inRun, run]; rfl

/-- The stamp in either clock state (R25, R31, R32). -/
theorem stampFrame_eq (s : State) :
    stampFrame s =
      { s with
        counter :=
          { s.counter with
            newest := (s.counter.newest + 1) % s.day, clock := .running, lossTimer := some s.time, frameSeen := true }
        notices :=
          if s.counter.clock = .lost then noticeUnit (s.notices.pending ||| BitVec.twoPow 20 17) s.notices.mask
          else s.notices } := by
  unfold stampFrame
  cases clock : s.counter.clock with
  | running => rfl
  | lost => rfl

theorem arriveFrame_of_not_inRun (f : FrameIn) {s : State} (out : s.inRun = false) :
    arriveFrame f s = sendMix 0 (stampFrame s) := by
  rw [arriveFrame, out]; rfl

theorem returnDue_of_not_inRun (track : Nat) (f : FrameIn) {s : State} (out : s.inRun = false) :
    returnDue track f s = false := by
  unfold returnDue
  cases trackIndex track with
  | none => rfl
  | some i => simp only [out, Bool.false_and]

/-- Settles O28: out of RUN an arrival is the stamp and a mix output of 0, and every other row's condition asks for RUN. -/
theorem setupFrameIsOnlyStamped : Obligations.SetupFrameIsOnlyStamped := by
  unfold Obligations.SetupFrameIsOnlyStamped
  intro f s setup
  have out := inRun_of_setup setup
  have idle {c : Bool} (t : State) (never : c = false) :
      (Host.Outcome.next (if c then t else s) : Host.Outcome State Fault Refusal) = .next s := by rw [never]; rfl
  refine ⟨?arrival, fun track => idle _ (returnDue_of_not_inRun track f out), idle _ ?cue, idle _ ?awaited, idle _ ?postRoll,
    idle _ ?halfDay, idle _ ?block, idle _ ?promotion⟩
  case arrival =>
    change Host.Outcome.next (arriveFrame f s) = _
    rw [arriveFrame_of_not_inRun f out, stampFrame_eq]
    rfl
  case cue => simp only [cueDue, out, Bool.false_and]
  case awaited => simp only [awaitedStopDue, out, Bool.false_and]
  case postRoll => simp only [postRollCompleteDue, out, Bool.false_and]
  case halfDay => simp only [halfDayStopDue, out, Bool.false_and]
  case block => simp only [blockEndDue, out, Bool.false_and]
  case promotion => simp only [out, Bool.false_and]

/-! ### The arrival of a frame in RUN: its position and the tracks after it (R6, R9, R25) -/

@[simp] theorem stampFrame_newest (s : State) : (stampFrame s).counter.newest = (s.counter.newest + 1) % s.day := by
  rw [stampFrame_eq]

/-- A cue that fires leaves the newest position (R39). -/
@[simp] theorem fireCue_newest (s : State) : (fireCue s).counter.newest = s.counter.newest := by
  unfold fireCue
  repeat' split
  all_goals simp

/-- A clip offered to the station clip flag changes no track (R22). -/
@[simp] theorem offerClip_tracks (src : ClipSource) (serial : Option Nat) (p : Nat) (s : State) :
    (offerClip src serial p s).front.tracks = s.front.tracks := by
  unfold offerClip
  split <;> rfl

@[simp] theorem mixClip_tracks (s : State) : (mixClip s).front.tracks = s.front.tracks := by
  simp [mixClip]

@[simp] theorem mixFrame_tracks (conv : Vector Converted 16) (s : State) :
    (mixFrame conv s).1.front.tracks = s.front.tracks := by
  unfold mixFrame
  dsimp only
  repeat' split
  all_goals simp

@[simp] theorem convertFrame_tracks (conv : Vector Converted 16) (s : State) (n : Fin 16) :
    (convertFrame conv s).front.tracks[n] = conv[n].track := by
  unfold convertFrame
  dsimp only
  split <;> simp

theorem convertAll_getElem (s : State) (f : FrameIn) (n : Fin 16) :
    (convertAll s f)[n] = convertTrack s.front.rounding s.front.tracks[n] f[n] := by
  simp [convertAll]

theorem runFrame_tracks (f : FrameIn) (s : State) (n : Fin 16) :
    (runFrame f s).front.tracks[n] = (convertTrack s.front.rounding s.front.tracks[n] f[n]).track := by
  simp only [runFrame, promote_frame, offerFrame_frame, mixFrame_tracks, convertFrame_tracks, convertAll_getElem,
    fireCue_frame, promoteAtStamp_frame, takeArrival_frame]

theorem runFrame_newest (f : FrameIn) (s : State) : (runFrame f s).counter.newest = s.counter.newest := by
  simp only [runFrame, promote_frame, offerFrame_frame, mixFrame_frame, convertFrame_frame, fireCue_newest,
    promoteAtStamp_frame, takeArrival_frame]

/-- A frame in RUN leaves each track as its conversion does, whatever takes, mix, ring, link and card do with the frame
(R6, R9). -/
theorem arriveFrame_tracks (f : FrameIn) {s : State} (run : s.inRun = true) (n : Fin 16) :
    (arriveFrame f s).front.tracks[n] = (convertTrack s.front.rounding s.front.tracks[n] f[n]).track := by
  simp only [arriveFrame, run, if_true, finish_frame, runFrame_tracks, stampFrame_frame]

theorem arriveFrame_newest (f : FrameIn) {s : State} (run : s.inRun = true) :
    (arriveFrame f s).counter.newest = (s.counter.newest + 1) % s.day := by
  simp only [arriveFrame, run, if_true, finish_frame, runFrame_newest, stampFrame_newest]

/-! ### Track numbers -/

@[simp] theorem trackIndex_succ (n : Fin 16) : trackIndex (n.val + 1) = some n := by
  rw [trackIndex, dif_pos (by omega)]
  rfl

theorem trackIndex_eq_none {track : Nat} (outside : track = 0 ∨ 16 < track) : trackIndex track = none :=
  dif_neg (by omega)

theorem returnDue_of_quiet {n : Fin 16} {f : FrameIn} {s : State} (run : s.inRun = true)
    (kind : s.front.tracks[n].kind = .dual) (path : s.front.tracks[n].path = .low)
    (silent : f[n].h.toInt.natAbs < 4194304) (last : 64 ≤ s.front.tracks[n].quiet + 1) :
    returnDue (n.val + 1) f s = true := by
  simp only [returnDue, trackIndex_succ, run, kind, path, beq_self_eq_true, Bool.true_and, Bool.and_eq_true,
    decide_eq_true_iff]
  exact ⟨silent, last⟩

/-- Settles O32: the row's condition holds, so the row is the arrival, and the arrival leaves the track as its conversion does. -/
theorem quietTrackReturnsToHigh : Obligations.QuietTrackReturnsToHigh := by
  unfold Obligations.QuietTrackReturnsToHigh
  intro n f s phase kind path quiet silent
  have run := inRun_of_run phase
  have last : 64 ≤ s.front.tracks[n].quiet + 1 := by omega
  have converted := convertTrack_dual_returns (mode := s.front.rounding) kind path silent last
  have due := returnDue_of_quiet run kind path silent last
  refine ⟨?word, arriveFrame f s, ?row, rfl, ?track, arriveFrame_newest f run⟩
  case word => rw [convertAll_getElem, converted]
  case row => exact congrArg Host.Outcome.next (if_pos due)
  case track => rw [arriveFrame_tracks f run, converted]

/-! ### SET TRIM and SET GATE (R11, R153, R177, R194) -/

theorem takenNow_both (phase : PortPhase) : takenNow .both phase = true := by
  cases phase <;> rfl

/-- A field that stands last reads back. -/
theorem field_be {width v : Nat} (fits : v < 256 ^ width) : field (be width v) 0 width = v := by
  simpa using field_append (before := []) (after := []) fits

/-- A field that stands first reads back. -/
theorem field_be_first {width v : Nat} (fits : v < 256 ^ width) (rest : List Byte) :
    field (be width v ++ rest) 0 width = v :=
  field_append (before := []) fits

/-- A field behind the first one is a field of what follows it. -/
theorem field_be_later {width offset : Nat} (behind : width ≤ offset) (v n : Nat) (rest : List Byte) :
    field (be width v ++ rest) offset n = field rest (offset - width) n := by
  rw [field, field, List.drop_append, be_length, List.drop_of_length_le (by rw [be_length]; exact behind), List.nil_append]

theorem readTrimArgs_be {track code : Nat} (trackFits : track < 256) (codeFits : code ≤ 65535) :
    readTrimArgs (be 1 track ++ be 2 code) = some (track, code) := by
  rw [readTrimArgs, if_pos (by simp only [List.length_append, be_length]), field_be_first (by omega),
    field_be_later (by decide), field_be (by omega)]

theorem readGateArgs_be {track : Nat} {g : GateSettings} (trackFits : track < 256) (openFits : g.openThreshold < 2 ^ 32)
    (closeFits : g.closeThreshold < 2 ^ 32) (holdFits : g.closeHold < 65536) (attackFits : g.attack < 65536)
    (decayFits : g.decay < 65536) (releaseFits : g.release < 65536) (sustainFits : g.sustain < 65536)
    (duckFits : g.duck < 65536) :
    readGateArgs
        (be 1 track ++ be 4 g.openThreshold ++ be 4 g.closeThreshold ++ be 2 g.closeHold ++ be 2 g.attack ++ be 2 g.decay ++
          be 2 g.release ++ be 2 g.sustain ++ be 2 g.duck) =
      some (track, g) := by
  rw [readGateArgs, if_pos (by simp only [List.length_append, be_length])]
  simp (disch := omega) only [List.append_assoc, field_be_later, field_be_first, field_be, Nat.reduceSub]

theorem setTrim_of_track (n : Fin 16) (code : Nat) (s : State) :
    setTrim (n.val + 1, code) s =
      respond .ok []
        { s with front := { s.front with tracks := s.front.tracks.set n { s.front.tracks[n] with trim := code } } } := by
  simp only [setTrim, trackIndex_succ]

theorem setTrim_of_outside {track : Nat} (outside : track = 0 ∨ 16 < track) (code : Nat) (s : State) :
    setTrim (track, code) s = respond .badValue [] s := by
  simp only [setTrim, trackIndex_eq_none outside]

theorem setGate_of_track (n : Fin 16) (g : GateSettings) (s : State) :
    setGate (n.val + 1, g) s =
      respond .ok []
        { s with
          mixer := { s.mixer with tracks := s.mixer.tracks.set n { s.mixer.tracks[n] with settings := normalGate g } } } := by
  simp only [setGate, trackIndex_succ]

theorem setGate_of_outside {track : Nat} (outside : track = 0 ∨ 16 < track) (g : GateSettings) (s : State) :
    setGate (track, g) s = respond .badValue [] s := by
  simp only [setGate, trackIndex_eq_none outside]

theorem exec_setTrim {args : List Byte} {a : Nat × Nat} (s : State) (read : readTrimArgs args = some a) :
    exec (.setTrim args) s = .next (setTrim a s) := by
  change Host.Outcome.next (hostCommand .both (readTrimArgs args) setTrim s) = _
  rw [read, hostCommand_taken a setTrim (takenNow_both _)]

theorem exec_setGate {args : List Byte} {a : Nat × GateSettings} (s : State) (read : readGateArgs args = some a) :
    exec (.setGate args) s = .next (setGate a s) := by
  change Host.Outcome.next (hostCommand .both (readGateArgs args) setGate s) = _
  rw [read, hostCommand_taken a setGate (takenNow_both _)]

/-- A value brought within 1 to `hi`, case by case (R153). -/
theorem clamp_one {hi : Nat} (v : Nat) (pos : 1 ≤ hi) : clamp 1 hi v = if v = 0 then 1 else if hi < v then hi else v := by
  unfold clamp
  split
  case isTrue => omega
  case isFalse => split <;> omega

/-- The settings of R153 brought within their ranges lie within them. -/
theorem settingsInRange_normalGate (g : GateSettings) : SettingsInRange (normalGate g) := by
  constructor
  all_goals
    simp only [normalGate, clamp]
    omega

/-- The close threshold is brought below the open threshold as that is after its own clamp (R153). -/
theorem normalGate_closeThreshold (g : GateSettings) :
    (normalGate g).closeThreshold =
      if (normalGate g).openThreshold < g.closeThreshold then (normalGate g).openThreshold
      else if g.closeThreshold = 0 then 1 else g.closeThreshold := by
  have range := (settingsInRange_normalGate g).openThreshold
  change min (normalGate g).openThreshold (clamp 1 65535 g.closeThreshold) = _
  rw [clamp_one _ (by decide)]
  split_ifs <;> omega

/-- The duck level is brought below the sustain level as that is after its own clamp (R153). -/
theorem normalGate_duck (g : GateSettings) :
    (normalGate g).duck = if (normalGate g).sustain < g.duck then (normalGate g).sustain else g.duck := by
  have range := (settingsInRange_normalGate g).sustain
  change min (normalGate g).sustain (min 4096 g.duck) = _
  rw [min_def_lt]
  split_ifs <;> omega

/-- Settles O13: the arguments read back, the track number picks the track or none, and each clamp is its cases. -/
theorem setTrimAndSetGate : Obligations.SetTrimAndSetGate := by
  unfold Obligations.SetTrimAndSetGate
  intro s
  refine ⟨?trim, ?noTrim, ?gate⟩
  case trim =>
    intro n code fits
    exact (exec_setTrim s (readTrimArgs_be (by omega) fits)).trans (congrArg _ (setTrim_of_track n code s))
  case noTrim =>
    intro track code trackFits codeFits outside
    exact (exec_setTrim s (readTrimArgs_be trackFits codeFits)).trans (congrArg _ (setTrim_of_outside outside code s))
  case gate =>
    intro track o c h a d r sus duck trackFits oFits cFits hFits aFits dFits rFits susFits duckFits args
    have taken :=
      exec_setGate s
        (readGateArgs_be (g := ⟨o, c, h, a, d, r, sus, duck⟩) trackFits oFits cFits hFits aFits dFits rFits susFits duckFits)
    refine ⟨fun outside => taken.trans (congrArg _ (setGate_of_outside outside _ s)), ?_⟩
    rintro n rfl
    exact ⟨normalGate _, taken.trans (congrArg _ (setGate_of_track n _ s)), settingsInRange_normalGate _,
      clamp_one o (by decide), normalGate_closeThreshold _, min_def_lt 255 h, clamp_one a (by decide),
      clamp_one d (by decide), clamp_one r (by decide), min_def_lt 4096 sus, normalGate_duck _⟩

/-! ### CLEAR CLIP and the clip offered after it (R22, R23) -/

theorem offerClip_of_set {s : State} (src : ClipSource) (serial : Option Nat) (p : Nat) (flag : s.front.clipFlag = true) :
    offerClip src serial p s = s := by
  rw [offerClip, if_pos flag]

/-- While the flag is clear an offered clip sets it, fills the record and raises CLIP (R22). -/
theorem offerClip_of_clear {s : State} (src : ClipSource) (serial : Option Nat) (p : Nat)
    (flag : s.front.clipFlag = false) :
    offerClip src serial p s =
      raise .clip
        { s with
          front := { s.front with clipFlag := true, firstClip := some { source := src, serial := serial, pos := p } } } := by
  rw [offerClip, flag]
  exact if_neg Bool.false_ne_true

theorem exec_clearClip_of_run {s : State} (run : s.port.phase = .run) :
    exec (.clearClip []) s = .next (clearClip () s) :=
  congrArg Host.Outcome.next (hostCommand_taken () clearClip (by rw [run]; rfl))

theorem exec_clearClip_of_setup {s : State} (setup : s.port.phase = .setup) :
    exec (.clearClip []) s = .next (respond .wrongPhase [] s) :=
  congrArg Host.Outcome.next (hostCommand_wrongPhase _ clearClip (by rw [setup]; rfl))

theorem clearClip_of_set {s : State} (flag : s.front.clipFlag = true) :
    clearClip () s = respond .ok [] { s with front := { s.front with clipFlag := false, firstClip := none } } := by
  rw [clearClip, if_pos flag]

theorem clearClip_of_clear {s : State} (flag : s.front.clipFlag = false) : clearClip () s = respond .ok [] s := by
  rw [clearClip, flag, if_neg Bool.false_ne_true]

/-- Settles O25, by the phase and the station clip flag. -/
theorem clearClipEmptiesTheRecord : Obligations.ClearClipEmptiesTheRecord := by
  unfold Obligations.ClearClipEmptiesTheRecord
  intro s
  refine ⟨exec_clearClip_of_setup, ?set, ?clear, fun src serial p => ⟨offerClip_of_set src serial p,
    offerClip_of_clear src serial p⟩⟩
  case set =>
    intro run flag
    exact (exec_clearClip_of_run run).trans (congrArg _ (clearClip_of_set flag))
  case clear =>
    intro run flag
    exact (exec_clearClip_of_run run).trans (congrArg _ (clearClip_of_clear flag))

end Sys2Proof.Proofs
end

section
/-! PROOFS. The clock and its commands: the reference pulse, the cue's commands, JAM TIMECODE, and the commands that configure
clock, tracks, card and run number (R5, R28, R33, R34, R36 to R38, R40, R104, R157). -/

namespace Sys2Proof.Proofs

open Sys2Proof Sys2Proof.Machine Sys2Proof.Safety

/-! ### The reference pulse (R33, R34) -/

theorem referencePulse_of_unchecked {s : State} (unchecked : pulseChecked s = false) : referencePulse s = s := by
  rw [referencePulse, unchecked]
  exact if_neg Bool.false_ne_true

theorem pulseChecked_eq_false {s : State}
    (missing : s.port.phase = .setup ∨ s.counter.refCheck = false ∨ s.counter.clock = .lost ∨ s.counter.frameSeen = false) :
    pulseChecked s = false := by
  unfold pulseChecked
  rcases missing with setup | off | lost | unseen
  · rw [inRun_of_setup setup]; rfl
  · rw [off, Bool.and_false]; rfl
  · rw [lost, show (ClockState.lost == .running) = false from rfl, Bool.and_false]; rfl
  · rw [unseen, Bool.and_false]

theorem pulseChecked_eq_true {s : State} (run : s.port.phase = .run) (check : s.counter.refCheck = true)
    (running : s.counter.clock = .running) (seen : s.counter.frameSeen = true) : pulseChecked s = true := by
  rw [pulseChecked, inRun_of_run run, check, running, seen]
  rfl

/-- The magnitude that R34 compares is that of the signed distance from the nearest frame boundary. -/
theorem pulseDistance_eq_natAbs {spf offset : Nat} (inFrame : offset < spf) :
    pulseDistance spf offset = (if 2 * offset ≤ spf then (offset : Int) else (offset : Int) - spf).natAbs := by
  unfold pulseDistance
  split_ifs <;> omega

theorem samplesPerFrame_pos (r : SampleRate) (t : TcRate) : 0 < samplesPerFrame r t := by
  cases r <;> cases t <;> decide

/-- Settles O40, by whether the pulse is checked, and for a checked one by whether its distance is within the tolerance. -/
theorem referencePulseIsChecked : Obligations.ReferencePulseIsChecked := by
  unfold Obligations.ReferencePulseIsChecked
  intro s spf offset distance
  refine ⟨fun missing => congrArg _ (referencePulse_of_unchecked (pulseChecked_eq_false missing)), ?checked⟩
  intro run check running seen
  have far : pulseDistance spf offset = distance.natAbs :=
    pulseDistance_eq_natAbs (Nat.mod_lt _ (samplesPerFrame_pos _ _))
  change Host.Outcome.next (referencePulse s) = _
  rw [referencePulse, if_pos (pulseChecked_eq_true run check running seen)]
  change Host.Outcome.next (if s.counter.refTolerance < pulseDistance spf offset then _ else _) = _
  rw [far]
  by_cases near : distance.natAbs ≤ s.counter.refTolerance
  · rw [if_pos near, if_neg (Nat.not_lt.mpr near)]
  · rw [if_neg near, if_pos (Nat.lt_of_not_le near)]
    rfl

/-! ### Commands in their phase (R177, R178) -/

theorem hostCommand_setupOnly {α : Type} {a : α} {act : α → State → State} {s : State} (setup : s.port.phase = .setup) :
    hostCommand .setupOnly (some a) act s = act a s :=
  hostCommand_taken a act (by rw [setup]; rfl)

theorem hostCommand_runOnly {α : Type} {a : α} {act : α → State → State} {s : State} (run : s.port.phase = .run) :
    hostCommand .runOnly (some a) act s = act a s :=
  hostCommand_taken a act (by rw [run]; rfl)

/-! ### SET CUE and CANCEL CUE (R38, R40) -/

theorem readCueArgs_be {kind p : Nat} (kindFits : kind < 256) (posFits : p < 2 ^ 40) :
    readCueArgs (be 1 kind ++ be 5 p) = some (kind, p) := by
  rw [readCueArgs, if_pos (by simp only [List.length_append, be_length]), field_be_first (by omega),
    field_be_later (by decide), field_be (by omega)]

theorem cueKindOf_code (kind : CueKind) : cueKindOf kind.code = some kind := by
  cases kind <;> rfl

theorem cueKindOf_eq_none {kind : Nat} (notStart : kind ≠ 1) (notStop : kind ≠ 2) : cueKindOf kind = none := by
  unfold cueKindOf
  split
  · contradiction
  · contradiction
  · rfl

theorem exec_setCue {s : State} (run : s.port.phase = .run) {kind p : Nat} (kindFits : kind < 256) (posFits : p < 2 ^ 40) :
    exec (.setCue (be 1 kind ++ be 5 p)) s = .next (setCue (kind, p) s) := by
  change Host.Outcome.next (hostCommand .runOnly (readCueArgs _) setCue s) = _
  rw [readCueArgs_be kindFits posFits, hostCommand_runOnly run]

/-- SET CUE of a cue kind: R38's checks of the position in their order. -/
theorem setCue_of_kind (kind : CueKind) (p : Nat) (s : State) :
    setCue (kind.code, p) s =
      if s.day ≤ p then respond .badValue [] s
      else if isLater s.day p s.counter.newest then
        respond .ok [] { s with counter := { s.counter with cue := some { kind := kind, pos := p } } }
      else respond .late [] s := by
  simp only [setCue, cueKindOf_code]

theorem setCue_of_no_kind {kind : Nat} (notStart : kind ≠ 1) (notStop : kind ≠ 2) (p : Nat) (s : State) :
    setCue (kind, p) s = respond .badValue [] s := by
  simp only [setCue, cueKindOf_eq_none notStart notStop]

theorem exec_cancelCue {s : State} (run : s.port.phase = .run) : exec (.cancelCue []) s = .next (cancelCue () s) :=
  congrArg Host.Outcome.next (hostCommand_runOnly run)

/-- Settles O24, by R38's checks in order and by whether there is an entry to cancel. -/
theorem setCueAndCancelCue : Obligations.SetCueAndCancelCue := by
  unfold Obligations.SetCueAndCancelCue
  intro s run
  refine ⟨?set, ?noKind, ?noEntry, ?entry⟩
  case set =>
    intro kind p fits
    have taken := (exec_setCue run (by cases kind <;> decide) fits).trans (congrArg _ (setCue_of_kind kind p s))
    refine ⟨fun beyond => ?_, fun within late => ?_, fun within later => ?_⟩
    · exact taken.trans (congrArg _ (if_pos beyond))
    · rw [if_neg (Nat.not_le.mpr within), late, if_neg Bool.false_ne_true] at taken
      exact taken
    · rw [if_neg (Nat.not_le.mpr within), later, if_pos rfl] at taken
      exact taken
  case noKind =>
    intro kind p kindFits notStart notStop fits
    exact (exec_setCue run kindFits fits).trans (congrArg _ (setCue_of_no_kind notStart notStop p s))
  case noEntry =>
    intro noCue
    refine (exec_cancelCue run).trans (congrArg _ ?_)
    rw [cancelCue, noCue]
    exact if_neg Bool.false_ne_true
  case entry =>
    intro hasCue
    exact (exec_cancelCue run).trans (congrArg _ (if_pos (Option.isSome_iff_ne_none.mpr hasCue)))

/-! ### JAM TIMECODE (R29, R36, R37) -/

theorem readJamArgs_be {hh mm ss ff : Nat} (hhFits : hh < 256) (mmFits : mm < 256) (ssFits : ss < 256) (ffFits : ff < 256) :
    readJamArgs (be 1 hh ++ be 1 mm ++ be 1 ss ++ be 1 ff) = some (hh, mm, ss, ff) := by
  rw [readJamArgs, if_pos (by simp only [List.length_append, be_length])]
  simp (disch := omega) only [List.append_assoc, field_be_later, field_be_first, field_be, Nat.reduceSub]

theorem hz_pos (r : SampleRate) : 0 < r.hz := by
  cases r <;> decide

theorem one_lt_day (s : State) : 1 < s.day := by
  have := hz_pos s.counter.sampleRate
  rw [State.day, dayLength]
  omega

/-- A second is a whole number of timecode frames at each pair of rates (R29). -/
theorem samplesPerFrame_mul_fps (r : SampleRate) (t : TcRate) : samplesPerFrame r t * t.fps = r.hz := by
  cases r <;> cases t <;> rfl

/-- The position of a timecode within R36's ranges lies in the day. -/
theorem timecodePosition_lt_dayLength (r : SampleRate) (t : TcRate) {hh mm ss ff : Nat} (hours : hh ≤ 23)
    (minutes : mm ≤ 59) (seconds : ss ≤ 59) (frames : ff < t.fps) : timecodePosition r t hh mm ss ff < dayLength r := by
  have whole : ((hh * 60 + mm) * 60 + ss) * r.hz ≤ 86399 * r.hz := Nat.mul_le_mul_right _ (by omega)
  have part : ff * samplesPerFrame r t < r.hz := by
    rw [← samplesPerFrame_mul_fps r t, Nat.mul_comm (samplesPerFrame r t)]
    exact Nat.mul_lt_mul_of_pos_right frames (samplesPerFrame_pos r t)
  rw [timecodePosition, dayLength]
  omega

theorem posSub_one {D : Nat} (long : 1 < D) (p : Nat) : posSub D p 1 = (p + D - 1) % D := by
  rw [posSub, Nat.mod_eq_of_lt long, Nat.add_sub_assoc (by omega)]

/-- The position before p is followed by p (R1). -/
theorem succ_pred_mod {D p : Nat} (inDay : p < D) : ((p + D - 1) % D + 1) % D = p := by
  rw [Nat.mod_add_mod, Nat.sub_add_cancel (by omega), Nat.add_mod_right, Nat.mod_eq_of_lt inDay]

theorem slot_cases (i : Fin 3) : i = 0 ∨ i = 1 ∨ i = 2 := by omega

theorem captureInHand_iff (s : State) :
    captureInHand s = true ↔ (∃ i : Fin 3, s.takes.slots[i] ≠ none) ∨ s.takes.pendingStart ≠ none := by
  simp only [captureInHand, Bool.or_eq_true, Option.isSome_iff_ne_none]
  refine or_congr_left ⟨?_, ?_⟩
  · rintro ((h | h) | h)
    · exact ⟨0, h⟩
    · exact ⟨1, h⟩
    · exact ⟨2, h⟩
  · rintro ⟨i, h⟩
    rcases slot_cases i with rfl | rfl | rfl
    · exact .inl (.inl h)
    · exact .inl (.inr h)
    · exact .inr h

theorem exec_jamTimecode (s : State) {hh mm ss ff : Nat} (hhFits : hh < 256) (mmFits : mm < 256) (ssFits : ss < 256)
    (ffFits : ff < 256) :
    exec (.jamTimecode (be 1 hh ++ be 1 mm ++ be 1 ss ++ be 1 ff)) s = .next (jamTimecode (hh, mm, ss, ff) s) := by
  change Host.Outcome.next (hostCommand .both (readJamArgs _) jamTimecode s) = _
  rw [readJamArgs_be hhFits mmFits ssFits ffFits, hostCommand_taken _ jamTimecode (takenNow_both _)]

/-- Settles O15: the ranges first, then what is in hand, then the jam to a position that lies in the day. -/
theorem jamTimecodeSetsTheCounter : Obligations.JamTimecodeSetsTheCounter := by
  unfold Obligations.JamTimecodeSetsTheCounter
  intro s hh mm ss ff hhFits mmFits ssFits ffFits args inHand j
  have taken := exec_jamTimecode s hhFits mmFits ssFits ffFits
  refine ⟨?outside, ?within⟩
  case outside =>
    intro bad
    refine taken.trans (congrArg _ ?_)
    rw [jamTimecode]
    exact if_neg (by omega)
  case within =>
    intro hours minutes seconds frames
    have inDay : j < s.day := timecodePosition_lt_dayLength _ _ hours minutes seconds frames
    have checked : jamTimecode (hh, mm, ss, ff) s =
        if (s.inRun && captureInHand s) = true then respond .busy [] s else respond .ok [] (jamTo j s) := by
      rw [jamTimecode]
      exact if_pos ⟨hours, minutes, seconds, frames⟩
    refine ⟨fun run hand => ?busy, fun free => ⟨?jam, inDay, succ_pred_mod inDay⟩⟩
    case busy =>
      refine taken.trans (congrArg _ (checked.trans (if_pos ?_)))
      rw [inRun_of_run run, (captureInHand_iff s).mpr hand]
      rfl
    case jam =>
      have notBusy : ¬(s.inRun && captureInHand s) = true := by
        rw [Bool.and_eq_true, captureInHand_iff]
        rintro ⟨run, hand⟩
        rcases free with setup | idle
        · rw [inRun_of_setup setup] at run
          cases run
        · exact idle hand
      refine taken.trans (congrArg _ ((checked.trans (if_neg notBusy)).trans ?_))
      rw [jamTo, posSub_one (one_lt_day s) j]
      rfl

/-! ### CONFIGURE CLOCK, CONFIGURE TRACK, CONFIGURE MEDIA and SET RUN NUMBER (R5, R28, R104, R157) -/

theorem flagByte_eq_be (b : Bool) : flagByte b = be 1 b.toNat := by
  cases b <;> rfl

theorem onOff_toNat (b : Bool) : onOff b.toNat = some b := by
  cases b <;> rfl

theorem onOff_eq_none {code : Nat} (beyond : 1 < code) : onOff code = none := by
  unfold onOff
  split
  · omega
  · omega
  · rfl

theorem sampleRateOf_code (r : SampleRate) : sampleRateOf r.code = some r := by
  cases r <;> rfl

theorem sampleRateOf_eq_none {code : Nat} (not48 : code ≠ 1) (not96 : code ≠ 2) : sampleRateOf code = none := by
  unfold sampleRateOf
  split
  · contradiction
  · contradiction
  · rfl

theorem tcRateOf_code (t : TcRate) : tcRateOf t.code = some t := by
  cases t <;> rfl

theorem tcRateOf_eq_none {code : Nat} (not24 : code ≠ 24) (not25 : code ≠ 25) (not30 : code ≠ 30) : tcRateOf code = none := by
  unfold tcRateOf
  split
  · contradiction
  · contradiction
  · contradiction
  · rfl

theorem channelKindOf_code (kind : ChannelKind) : channelKindOf kind.code = some kind := by
  cases kind <;> rfl

theorem channelKindOf_eq_none {code : Nat} (beyond : 3 < code) : channelKindOf code = none := by
  unfold channelKindOf
  split
  · omega
  · omega
  · omega
  · omega
  · rfl

theorem readClockArgs_be {a : ClockArgs} (rateFits : a.rate < 256) (tcFits : a.tc < 256) (checkFits : a.check < 256)
    (tolFits : a.tolerance < 65536) :
    readClockArgs (be 1 a.rate ++ be 1 a.tc ++ be 1 a.check ++ be 2 a.tolerance) = some a := by
  rw [readClockArgs, if_pos (by simp only [List.length_append, be_length])]
  simp (disch := omega) only [List.append_assoc, field_be_later, field_be_first, field_be, Nat.reduceSub]

theorem exec_configureClock {s : State} (setup : s.port.phase = .setup) {rate tc check tol : Nat} (rateFits : rate < 256)
    (tcFits : tc < 256) (checkFits : check < 256) (tolFits : tol < 65536) :
    exec (.configureClock (be 1 rate ++ be 1 tc ++ be 1 check ++ be 2 tol)) s =
      .next (configureClock ⟨rate, tc, check, tol⟩ s) := by
  change Host.Outcome.next (hostCommand .setupOnly (readClockArgs _) configureClock s) = _
  rw [readClockArgs_be (a := ⟨rate, tc, check, tol⟩) rateFits tcFits checkFits tolFits, hostCommand_setupOnly setup]

theorem configureClock_of_rates (rate : SampleRate) (tc : TcRate) (check : Bool) {tol : Nat} (tolerable : tol ≤ 255)
    (s : State) :
    configureClock ⟨rate.code, tc.code, check.toNat, tol⟩ s =
      respond .ok []
        { s with
          counter :=
            if rate = s.counter.sampleRate then
              { s.counter with sampleRate := rate, tcRate := tc, refCheck := check, refTolerance := tol }
            else
              { s.counter with
                sampleRate := rate, tcRate := tc, refCheck := check, refTolerance := tol, newest := 0, refOffset := 0,
                frameSeen := false } } := by
  simp only [configureClock, sampleRateOf_code, tcRateOf_code, onOff_toNat, if_pos tolerable]

theorem configureClock_refused {a : ClockArgs} (s : State)
    (bad : sampleRateOf a.rate = none ∨ tcRateOf a.tc = none ∨ onOff a.check = none ∨ 255 < a.tolerance) :
    configureClock a s = respond .badValue [] s := by
  unfold configureClock
  split
  case h_1 rate tc check isRate isTc isCheck =>
    rw [isRate, isTc, isCheck] at bad
    exact if_neg (by simpa using bad)
  case h_2 => rfl

theorem readTrackArgs_be {a : TrackArgs} (trackFits : a.track < 256) (kindFits : a.kind < 256) (kFits : a.k < 256)
    (mixFits : a.mix < 256) (partnerFits : a.partner < 256) :
    readTrackArgs (be 1 a.track ++ be 1 a.kind ++ be 1 a.k ++ be 1 a.mix ++ be 1 a.partner) = some a := by
  rw [readTrackArgs, if_pos (by simp only [List.length_append, be_length])]
  simp (disch := omega) only [List.append_assoc, field_be_later, field_be_first, field_be, Nat.reduceSub]

theorem exec_configureTrack {s : State} (setup : s.port.phase = .setup) {track kind k mix partner : Nat}
    (trackFits : track < 256) (kindFits : kind < 256) (kFits : k < 256) (mixFits : mix < 256) (partnerFits : partner < 256) :
    exec (.configureTrack (be 1 track ++ be 1 kind ++ be 1 k ++ be 1 mix ++ be 1 partner)) s =
      .next (configureTrack ⟨track, kind, k, mix, partner⟩ s) := by
  change Host.Outcome.next (hostCommand .setupOnly (readTrackArgs _) configureTrack s) = _
  rw [readTrackArgs_be (a := ⟨track, kind, k, mix, partner⟩) trackFits kindFits kFits mixFits partnerFits,
    hostCommand_setupOnly setup]

theorem configureTrack_of_values (n : Fin 16) (kind : ChannelKind) (mix : Bool) {k partner : Nat} (least : 3 ≤ k)
    (most : k ≤ 6) (isTrack : partner ≤ 16) (other : partner ≠ n.val + 1) (s : State) :
    configureTrack ⟨n.val + 1, kind.code, k, mix.toNat, partner⟩ s =
      respond .ok []
        { s with
          front :=
            { s.front with
              tracks :=
                s.front.tracks.set n
                  { s.front.tracks[n] with
                    kind := kind, k := k, mixEnable := mix, partner := if partner = 0 then none else some partner } } } := by
  simp only [configureTrack, trackIndex_succ, channelKindOf_code, onOff_toNat]
  exact if_pos ⟨least, most, isTrack, other⟩

theorem configureTrack_refused {a : TrackArgs} (s : State)
    (bad : trackIndex a.track = none ∨ channelKindOf a.kind = none ∨ onOff a.mix = none ∨
      ¬(3 ≤ a.k ∧ a.k ≤ 6 ∧ a.partner ≤ 16 ∧ a.partner ≠ a.track)) :
    configureTrack a s = respond .badValue [] s := by
  unfold configureTrack
  split
  case h_1 i kind mix isTrack isKind isMix =>
    rw [isTrack, isKind, isMix] at bad
    exact if_neg (by simpa only [reduceCtorEq, false_or] using bad)
  case h_2 => rfl

theorem exec_configureMedia {s : State} (setup : s.port.phase = .setup) {first last : Nat} (firstFits : first < 2 ^ 40)
    (lastFits : last < 2 ^ 40) :
    exec (.configureMedia (be 5 first ++ be 5 last)) s = .next (configureMedia (first, last) s) := by
  change Host.Outcome.next (hostCommand .setupOnly (readMediaArgs _) configureMedia s) = _
  have read : readMediaArgs (be 5 first ++ be 5 last) = some (first, last) := by
    rw [readMediaArgs, if_pos (by simp only [List.length_append, be_length]), field_be_first (by omega),
      field_be_later (by decide), field_be (by omega)]
  rw [read, hostCommand_setupOnly setup]

theorem exec_setRunNumber {s : State} (setup : s.port.phase = .setup) {n : Nat} (fits : n < 2 ^ 32) :
    exec (.setRunNumber (be 4 n)) s = .next (setRunNumber n s) := by
  change Host.Outcome.next (hostCommand .setupOnly (readNumber 4 _) setRunNumber s) = _
  rw [readNumber, if_pos (be_length 4 n), ofBE_be (by omega), hostCommand_setupOnly setup]

/-- Settles O10: the arguments read back, and each command takes its values or refuses them by its ranges. -/
theorem configureClockTrackMediaAndRun : Obligations.ConfigureClockTrackMediaAndRun := by
  unfold Obligations.ConfigureClockTrackMediaAndRun
  intro s setup
  refine ⟨?clock, ?noClock, ?track, ?noTrack, ?media, ?noMedia, ?run, ?noRun⟩
  case clock =>
    intro rate tc check tol tolerable
    rw [flagByte_eq_be]
    have taken := exec_configureClock setup (rate := rate.code) (tc := tc.code) (check := check.toNat) (tol := tol)
      (by cases rate <;> decide) (by cases tc <;> decide) (by cases check <;> decide) (by omega)
    refine taken.trans (congrArg _ ((configureClock_of_rates rate tc check tolerable s).trans ?_))
    by_cases same : rate = s.counter.sampleRate
    · subst same
      rw [if_pos rfl, if_pos rfl]
      rfl
    · rw [if_neg same, if_neg same]
      rfl
  case noClock =>
    intro rate tc check tol rateFits tcFits checkFits tolFits bad
    refine (exec_configureClock setup rateFits tcFits checkFits tolFits).trans (congrArg _ (configureClock_refused s ?_))
    rcases bad with ⟨not48, not96⟩ | ⟨not24, not25, not30⟩ | beyond | intolerable
    · exact .inl (sampleRateOf_eq_none not48 not96)
    · exact .inr (.inl (tcRateOf_eq_none not24 not25 not30))
    · exact .inr (.inr (.inl (onOff_eq_none beyond)))
    · exact .inr (.inr (.inr intolerable))
  case track =>
    intro n kind k mix partner least most isTrack other
    rw [flagByte_eq_be]
    exact (exec_configureTrack setup (by omega) (by cases kind <;> decide) (by omega) (by cases mix <;> decide)
      (by omega)).trans (congrArg _ (configureTrack_of_values n kind mix least most isTrack other s))
  case noTrack =>
    intro track kind k mix partner trackFits kindFits kFits mixFits partnerFits bad
    refine (exec_configureTrack setup trackFits kindFits kFits mixFits partnerFits).trans
      (congrArg _ (configureTrack_refused s ?_))
    rcases bad with zero | above | kindBeyond | few | many | mixBeyond | noTrack | ⟨own, -⟩
    · exact .inl (trackIndex_eq_none (.inl zero))
    · exact .inl (trackIndex_eq_none (.inr above))
    · exact .inr (.inl (channelKindOf_eq_none kindBeyond))
    · exact .inr (.inr (.inr fun ⟨least, _⟩ => absurd least (Nat.not_le.mpr few)))
    · exact .inr (.inr (.inr fun ⟨_, most, _⟩ => absurd most (Nat.not_le.mpr many)))
    · exact .inr (.inr (.inl (onOff_eq_none mixBeyond)))
    · exact .inr (.inr (.inr fun ⟨_, _, isTrack, _⟩ => absurd isTrack (Nat.not_le.mpr noTrack)))
    · exact .inr (.inr (.inr fun ⟨_, _, _, other⟩ => other own))
  case media =>
    intro first last ordered fits
    exact (exec_configureMedia setup (by omega) (by omega)).trans
      (congrArg _ (if_pos ⟨ordered, Nat.le_of_lt_succ fits⟩))
  case noMedia =>
    intro first last firstFits lastFits bad
    refine (exec_configureMedia setup firstFits lastFits).trans (congrArg _ (if_neg ?_))
    simp only [Config.max32]
    omega
  case run =>
    intro n fits
    exact (exec_setRunNumber setup (by omega)).trans (congrArg _ (if_pos fits))
  case noRun =>
    intro n beyond fits
    exact (exec_setRunNumber setup fits).trans (congrArg _ (if_neg (Nat.not_le.mpr beyond)))

end Sys2Proof.Proofs
end

section
/-! PROOFS. The oscillator: the tick of an empty queue with the events it queues, the ends of its three timers, and the STATUS
request that the announce timer makes (R31, R84, R89, R90, R94, R95, R101, R121, R164). -/

namespace Sys2Proof.Proofs

open Sys2Proof Sys2Proof.Machine Sys2Proof.Safety

/-! ### The timers that are due (R31, R84, R89, R91, R95, R101) -/

theorem inRun_iff (s : State) : s.inRun = true ↔ s.port.phase = .run :=
  beq_iff_eq

theorem lossDue_iff (s : State) :
    lossDue s = true ↔ s.counter.clock = .running ∧ ∃ t, s.counter.lossTimer = some t ∧ t + 4000 ≤ s.time := by
  unfold lossDue
  cases s.counter.lossTimer with
  | none => simp
  | some t =>
    simp only [Bool.and_eq_true, beq_iff_eq, decide_eq_true_eq, Option.some.injEq, exists_eq_left']
    rfl

theorem announceDue_iff (s : State) :
    announceDue s = true ↔ s.port.phase = .run ∧ ∃ t, s.link.announce = some t ∧ t + 100000 ≤ s.time := by
  unfold announceDue
  cases s.link.announce with
  | none => simp
  | some t =>
    simp only [Bool.and_eq_true, inRun_iff, decide_eq_true_eq, Option.some.injEq, exists_eq_left']
    rfl

theorem absenceDue_iff (s : State) (p : Fin 8) :
    absenceDue s p = true ↔
      p ≠ s.port.station ∧ s.link.peers[p].present = true ∧ ∃ t, s.link.peers[p].heardAt = some t ∧ t + 300000 ≤ s.time := by
  unfold absenceDue
  cases s.link.peers[p].heardAt with
  | none => simp
  | some t =>
    simp only [Bool.and_eq_true, bne_iff_ne, decide_eq_true_eq, Option.some.injEq, exists_eq_left', and_assoc]
    rfl

theorem restDue_iff (s : State) :
    restDue s = true ↔
      s.port.phase = .run ∧ s.link.line = .busy ∧ s.link.tx ≠ .send ∧ s.link.restFrom + 16 ≤ s.time := by
  simp only [restDue, Bool.and_eq_true, inRun_iff, beq_iff_eq, bne_iff_ne, decide_eq_true_eq, and_assoc]
  rfl

theorem deferralDue_iff (s : State) :
    deferralDue s = true ↔ s.port.phase = .run ∧ s.link.tx = .defer ∧ s.link.idleFrom + deferral s ≤ s.time := by
  simp [deferralDue, inRun_iff, and_assoc]

theorem sendDue_iff (s : State) :
    sendDue s = true ↔ s.port.phase = .run ∧ s.link.tx = .send ∧ s.link.restFrom ≤ s.time := by
  simp [sendDue, inRun_iff, and_assoc]

/-! ### The writer's decision (R164) -/

/-- A request that is issued changes of the writer the write in flight alone. -/
theorem issueRequest_writer (r : Request) (s : State) :
    ∃ w, (issueRequest r s).writer = { s.writer with inFlight := w } := by
  unfold issueRequest
  split
  · split
    · exact ⟨_, rfl⟩
    · split
      · exact ⟨_, rfl⟩
      · exact ⟨_, rfl⟩
  · split
    · exact ⟨_, rfl⟩
    · exact ⟨_, rfl⟩
  · exact ⟨_, rfl⟩
  · exact ⟨_, rfl⟩

theorem makeDecision_writer (s : State) : ∃ w, (makeDecision s).writer = { s.writer with inFlight := w } := by
  rcases makeDecision_cases s with same | ⟨r, -, -, issued⟩
  · exact ⟨s.writer.inFlight, by rw [same]⟩
  · rw [issued]
    exact issueRequest_writer r s

/-- A decision is due exactly when it would issue a write. -/
theorem issueDue_iff (s : State) :
    issueDue s = true ↔ s.writer.inFlight = none ∧ (makeDecision s).writer.inFlight ≠ none := by
  rw [issueDue, Bool.and_eq_true]
  constructor
  · rintro ⟨may, choice⟩
    obtain ⟨r, chosen⟩ := Option.isSome_iff_exists.mp choice
    have spent := makeDecision_not_mayIssue may chosen
    obtain ⟨w, writer⟩ := makeDecision_writer s
    simp only [mayIssue, Bool.and_eq_true, State.inRun, makeDecision_frame, writer] at may spent
    obtain ⟨⟨⟨run, normal⟩, free⟩, cursor⟩ := may
    rw [run, normal, cursor, Bool.true_and, Bool.true_and, Bool.and_true] at spent
    refine ⟨Option.isNone_iff_eq_none.mp free, fun idle => ?_⟩
    rw [writer] at idle
    rw [show w = none from idle] at spent
    cases spent
  · rintro ⟨free, busy⟩
    rcases makeDecision_cases s with same | ⟨r, may, chosen, -⟩
    · exact absurd free (same ▸ busy)
    · exact ⟨may, Option.isSome_iff_exists.mpr ⟨r, chosen⟩⟩

/-- A tick leaves the writer's requests as they are. -/
theorem issueDue_later (now : Nat) (s : State) : issueDue { s with time := now } = issueDue s := by
  have same : SameRequests s { s with time := now } := ⟨rfl, rfl, rfl, rfl, rfl, rfl, rfl, rfl, rfl, rfl⟩
  rw [issueDue, same.choose_eq]
  rfl

/-! ### The tick (model choice: entry 2) -/

theorem mem_dueEvents (i : Instr) (s : State) :
    i ∈ dueEvents s ↔
      (lossDue s = true ∧ i = .clockLost) ∨ (announceDue s = true ∧ i = .announceTimerExpiry) ∨
        (∃ p, absenceDue s p = true ∧ .peerAbsent p = i) ∨ (restDue s = true ∧ i = .lineIdle) ∨
        (deferralDue s = true ∧ i = .deferralExpiry) ∨ (sendDue s = true ∧ i = .successfulSend) ∨
        (issueDue s = true ∧ i = .writeIssue) := by
  simp only [dueEvents, List.mem_append, List.mem_ite_nil_right, List.mem_singleton, List.mem_map, List.mem_filter,
    List.mem_finRange, true_and, or_assoc]

theorem step_of_empty {s : State} (empty : s.pending = []) : Machine.step s = .next (tick s) := by
  rw [Machine.step, empty]

/-- Settles O2: each event is in the queue exactly when its own timer is due one bit time later. -/
theorem emptyQueueStepIsOneTick : Obligations.EmptyQueueStepIsOneTick := by
  unfold Obligations.EmptyQueueStepIsOneTick
  intro s empty
  refine ⟨dueEvents { s with time := s.time + 1 }, ?step, ?loss, ?announce, fun p => ?absence, ?rest, ?deferral, ?send,
    ?issue⟩
  case step =>
    rw [step_of_empty empty, tick]
    simp only [empty, List.nil_append]
  case loss => simpa [mem_dueEvents] using lossDue_iff { s with time := s.time + 1 }
  case announce => simpa [mem_dueEvents] using announceDue_iff { s with time := s.time + 1 }
  case absence => simpa [mem_dueEvents] using absenceDue_iff { s with time := s.time + 1 } p
  case rest => simpa [mem_dueEvents] using restDue_iff { s with time := s.time + 1 }
  case deferral => simpa [mem_dueEvents, deferral] using deferralDue_iff { s with time := s.time + 1 }
  case send => simpa [mem_dueEvents] using sendDue_iff { s with time := s.time + 1 }
  case issue =>
    have queued : Instr.writeIssue ∈ dueEvents { s with time := s.time + 1 } ↔ issueDue s = true := by
      rw [← issueDue_later (s.time + 1) s]
      simp [mem_dueEvents]
    refine (queued.trans (issueDue_iff s)).trans (and_congr_right fun _ => ⟨fun busy => ⟨_, rfl, busy⟩, ?_⟩)
    rintro ⟨t, taken, busy⟩
    rw [← Host.Outcome.next.inj taken] at busy
    exact busy

/-! ### The transmitter at the head of its queue (R89, R90) -/

theorem beginAttempt_of_cons {s : State} {x : TxEntry} {rest : List TxEntry} (head : s.link.queue = x :: rest) :
    beginAttempt s =
      let bytes := frameBytes (byte x.frame.code) (byte s.port.station.val) (txPayload s x.frame)
      { s with
        link :=
          { s.link with
            tx := .send, sending := bytes, attemptFrom := s.time, penalty := false, line := .busy
            restFrom := s.time + 10 * bytes.length, receiver := .taking s.counter.newest [] } } := by
  simp only [beginAttempt, head]
  rfl

/-- What an attempt leaves of the link: the queue with the owed mark, the peers, the counts, the run number and the timer. -/
theorem beginAttempt_link (s : State) :
    (beginAttempt s).link.queue = s.link.queue ∧ (beginAttempt s).link.owed = s.link.owed ∧
      (beginAttempt s).link.peers = s.link.peers ∧ (beginAttempt s).link.counts = s.link.counts ∧
      (beginAttempt s).link.run = s.link.run ∧ (beginAttempt s).link.announce = s.link.announce := by
  unfold beginAttempt
  split
  · exact ⟨rfl, rfl, rfl, rfl, rfl, rfl⟩
  · exact ⟨rfl, rfl, rfl, rfl, rfl, rfl⟩

theorem kickTransmitter_link (s : State) :
    (kickTransmitter s).link.queue = s.link.queue ∧ (kickTransmitter s).link.owed = s.link.owed ∧
      (kickTransmitter s).link.peers = s.link.peers ∧ (kickTransmitter s).link.counts = s.link.counts ∧
      (kickTransmitter s).link.run = s.link.run ∧ (kickTransmitter s).link.announce = s.link.announce := by
  unfold kickTransmitter
  split
  · split
    · split
      · exact beginAttempt_link s
      · exact ⟨rfl, rfl, rfl, rfl, rfl, rfl⟩
    · exact ⟨rfl, rfl, rfl, rfl, rfl, rfl⟩
  · exact ⟨rfl, rfl, rfl, rfl, rfl, rfl⟩

section

variable {s : State} (standby : s.link.tx = .standby) (waiting : s.link.queue ≠ [])

include standby waiting

theorem kickTransmitter_of_line_not_idle (line : s.link.line ≠ .idle) :
    kickTransmitter s = { s with link := { s.link with tx := .waitIdle } } := by
  rw [kickTransmitter, if_pos ⟨standby, waiting⟩]
  split
  · contradiction
  · rfl

theorem kickTransmitter_of_early (line : s.link.line = .idle) (early : s.time < s.link.idleFrom + deferral s) :
    kickTransmitter s = { s with link := { s.link with tx := .defer } } := by
  rw [kickTransmitter, if_pos ⟨standby, waiting⟩, line]
  exact if_neg (Nat.not_le.mpr early)

theorem kickTransmitter_of_rested (line : s.link.line = .idle) (rested : s.link.idleFrom + deferral s ≤ s.time) :
    kickTransmitter s = beginAttempt s := by
  rw [kickTransmitter, if_pos ⟨standby, waiting⟩, line]
  exact if_pos rested

end

/-! ### A STATUS request (R94) -/

theorem statusBeingSent_iff (s : State) :
    statusBeingSent s = true ↔ s.link.tx = .send ∧ s.link.queue.head?.map TxEntry.frame = some .status := by
  simp only [statusBeingSent, Bool.and_eq_true, beq_iff_eq]

theorem any_status_iff (queue : List TxEntry) :
    (queue.any fun x => x.frame == .status) = true ↔ ∃ x ∈ queue, x.frame = .status := by
  simp only [List.any_eq_true, beq_iff_eq]

theorem appendEntry_link (f : TxFrame) (s : State) :
    (appendEntry f s).link.queue = s.link.queue ++ [{ frame := f, attempts := 0 }] ∧
      (appendEntry f s).link.owed = s.link.owed ∧ (appendEntry f s).link.peers = s.link.peers ∧
      (appendEntry f s).link.counts = s.link.counts ∧ (appendEntry f s).link.run = s.link.run ∧
      (appendEntry f s).link.announce = s.link.announce :=
  kickTransmitter_link _

/-- A STATUS request leaves the peers, the counts, the run number and the timer. -/
theorem requestStatus_link (s : State) :
    (requestStatus s).link.peers = s.link.peers ∧ (requestStatus s).link.counts = s.link.counts ∧
      (requestStatus s).link.run = s.link.run ∧ (requestStatus s).link.announce = s.link.announce := by
  unfold requestStatus
  split_ifs
  · exact ⟨rfl, rfl, rfl, rfl⟩
  · exact ⟨rfl, rfl, rfl, rfl⟩
  · exact ⟨rfl, rfl, rfl, rfl⟩
  · obtain ⟨-, -, peers, counts, run, announce⟩ := appendEntry_link .status s
    exact ⟨peers, counts, run, announce⟩
  · exact ⟨rfl, rfl, rfl, rfl⟩

section

variable {s : State} (active : linkActive s = true)

include active

theorem requestStatus_of_sending (sending : s.link.tx = .send ∧ s.link.queue.head?.map TxEntry.frame = some .status) :
    requestStatus s = { s with link := { s.link with owed := true } } := by
  rw [requestStatus, active, if_neg (by decide), if_pos ((statusBeingSent_iff s).mpr sending)]

theorem requestStatus_of_queued
    (notSending : ¬(s.link.tx = .send ∧ s.link.queue.head?.map TxEntry.frame = some .status))
    (queued : ∃ x ∈ s.link.queue, x.frame = .status) :
    requestStatus s =
      { s with
        link :=
          { s.link with queue := s.link.queue.map fun x => if x.frame = .status then { x with attempts := 0 } else x } } := by
  rw [requestStatus, active, if_neg (by decide), if_neg (mt (statusBeingSent_iff s).mp notSending),
    if_pos ((any_status_iff _).mpr queued)]

theorem requestStatus_of_not_queued (absent : ¬∃ x ∈ s.link.queue, x.frame = .status) :
    requestStatus s =
      if s.link.queue.length < 8 then appendEntry .status s else { s with link := { s.link with owed := true } } := by
  have notSending : ¬statusBeingSent s = true := by
    rw [statusBeingSent_iff, Option.map_eq_some_iff]
    rintro ⟨-, x, head, status⟩
    exact absent ⟨x, List.mem_of_mem_head? head, status⟩
  rw [requestStatus, active, if_neg (by decide), if_neg notSending, if_neg (mt (any_status_iff _).mp absent)]
  rfl

theorem requestStatus_of_room (absent : ¬∃ x ∈ s.link.queue, x.frame = .status) (room : s.link.queue.length < 8) :
    requestStatus s = appendEntry .status s :=
  (requestStatus_of_not_queued active absent).trans (if_pos room)

theorem requestStatus_of_full (absent : ¬∃ x ∈ s.link.queue, x.frame = .status) (full : 8 ≤ s.link.queue.length) :
    requestStatus s = { s with link := { s.link with owed := true } } :=
  (requestStatus_of_not_queued active absent).trans (if_neg (Nat.not_lt.mpr full))

end

theorem linkActive_iff (s : State) : linkActive s = true ↔ s.port.phase = .run ∧ s.link.listenOnly = false := by
  simp only [linkActive, Bool.and_eq_true, inRun_iff, Bool.not_eq_true']

/-! ### The announce timer (R95) -/

/-- The announce timer started again at this time. -/
def announcedAt (now : Nat) (s : State) : State :=
  { s with time := now, link := { s.link with announce := some now } }

theorem announceTimerExpiry_of_setup {s : State} (setup : s.port.phase = .setup) : announceTimerExpiry s = s := by
  rw [announceTimerExpiry, inRun_of_setup setup]
  exact if_neg Bool.false_ne_true

theorem announceTimerExpiry_of_run {s : State} {started : Nat} (run : s.port.phase = .run)
    (timer : s.link.announce = some started) :
    announceTimerExpiry s = requestStatus (announcedAt (max s.time (started + 100000)) s) := by
  rw [announceTimerExpiry, if_pos (inRun_of_run run), timer]
  rfl

/-- A STATUS at the head of a queue that was empty, the announce timer started again at this time. -/
def statusEntered (now : Nat) (s : State) : State :=
  { s with
    time := now
    link := { s.link with announce := some now, queue := [{ frame := .status, attempts := 0 }] } }

theorem requestStatus_announcedAt_of_empty {now : Nat} {s : State} (run : s.port.phase = .run)
    (heard : s.link.listenOnly = false) (empty : s.link.queue = []) :
    requestStatus (announcedAt now s) = kickTransmitter (statusEntered now s) := by
  have active : linkActive (announcedAt now s) = true := (linkActive_iff _).mpr ⟨run, heard⟩
  have queue : (announcedAt now s).link.queue = [] := empty
  rw [requestStatus_of_room active (by simp [queue]) (by simp [queue]), appendEntry, queue]
  rfl

/-! ### The loss timer and a peer's absence (R31, R101, R121) -/

theorem openTake_of_slot {s : State} {i : Fin 3} {u : Take} (isOpenSlot : openSlot s = some i)
    (holds : s.takes.slots[i] = some u) : openTake s = some u := by
  simp only [openTake, isOpenSlot, holds]

theorem loseOrigin_of_other {s : State} {p : Fin 8} (other : (openTake s).map Take.origin ≠ some p.val) :
    loseOrigin p s = s := by
  unfold loseOrigin
  split
  · exact if_neg other
  · rfl

theorem markOriginLost_of_take {s : State} {i : Fin 3} {u : Take} (holds : s.takes.slots[i] = some u) :
    markOriginLost i s =
      raise .originLost (setSlot i (some { u with flags := { u.flags with originLost := true } }) s) := by
  simp only [markOriginLost, modifySlot, holds]

theorem loseOrigin_of_origin {s : State} {p : Fin 8} {i : Fin 3} {u : Take} (isOpenSlot : openSlot s = some i)
    (holds : s.takes.slots[i] = some u) (origin : u.origin = p.val) :
    loseOrigin p s =
      raise .originLost (setSlot i (some { u with flags := { u.flags with originLost := true } }) s) := by
  have own : (openTake s).map Take.origin = some p.val := by
    rw [openTake_of_slot isOpenSlot holds, Option.map_some, origin]
  simp only [loseOrigin, isOpenSlot, if_pos own, markOriginLost_of_take holds]

theorem peerAbsent_of_absent {s : State} {p : Fin 8} (absent : p = s.port.station ∨ s.link.peers[p].present = false) :
    peerAbsent p s = s := by
  refine if_neg ?_
  rintro ⟨peer, present⟩
  rcases absent with own | gone
  · exact peer own
  · rw [gone] at present
    cases present

/-- A PRESENT peer whose age reaches 300 ms becomes ABSENT with PEER CHANGE, before the open take is looked at. -/
theorem peerAbsent_of_present {s : State} {p : Fin 8} {heard : Nat} (peer : p ≠ s.port.station)
    (present : s.link.peers[p].present = true) (heardAt : s.link.peers[p].heardAt = some heard) :
    peerAbsent p s =
      loseOrigin p
        (raise .peerChange
          { s with
            time := max s.time (heard + 300000)
            link :=
              { s.link with
                peers :=
                  s.link.peers.set p
                    { s.link.peers[p] with present := false, heardAt := none, compat := none, offset := none } } }) := by
  rw [peerAbsent, if_pos ⟨peer, present⟩, heardAt]
  rfl

theorem exec_clockLost_of_running {s : State} {started : Nat} (running : s.counter.clock = .running)
    (timer : s.counter.lossTimer = some started) :
    exec .clockLost s =
      .next { s with
        time := max s.time (started + 4000)
        counter := { s.counter with clock := .lost, lossTimer := none }
        notices := noticeUnit (s.notices.pending ||| BitVec.twoPow 20 16) s.notices.mask } := by
  change execClockLost s = _
  rw [execClockLost, if_pos running, timer]
  rfl

theorem exec_clockLost_of_lost {s : State} (lost : s.counter.clock = .lost) : exec .clockLost s = .next s := by
  change execClockLost s = _
  rw [execClockLost, lost, if_neg (by decide)]

/-- Settles O47: each timer's end in its cases, the announce timer's by the table of R94 and the first bullet of R89. -/
theorem oscillatorTimersRunOut : Obligations.OscillatorTimersRunOut := by
  unfold Obligations.OscillatorTimersRunOut
  intro s
  refine ⟨fun started => exec_clockLost_of_running, exec_clockLost_of_lost,
    fun setup => congrArg _ (announceTimerExpiry_of_setup setup), ?announce, fun p => ⟨?absent, ?present⟩⟩
  case announce =>
    intro started run timer
    refine ⟨_, congrArg Host.Outcome.next (announceTimerExpiry_of_run run timer), ?_⟩
    generalize max s.time (started + 100000) = now
    have active (heard : s.link.listenOnly = false) : linkActive (announcedAt now s) = true :=
      (linkActive_iff _).mpr ⟨run, heard⟩
    obtain ⟨peers, counts, -, timerAfter⟩ := requestStatus_link (announcedAt now s)
    obtain ⟨time, port, notices, counter, -, -, ring, takes, store, writer, -⟩ := requestStatus_frame (announcedAt now s)
    rw [time]
    refine ⟨rfl, timerAfter, peers, counts, port, counter, takes, ring, store, writer, notices, ?_⟩
    intro sending queued
    refine ⟨fun deaf => ?_, fun heard => ⟨fun isSending => ?_, fun notSending isQueued => ?_, fun notQueued room => ?_,
      fun empty standby => ?_, fun notQueued full => ?_⟩⟩
    · have inactive : linkActive (announcedAt now s) = false := by
        simp only [linkActive, announcedAt, deaf, Bool.not_true, Bool.and_false]
      rw [requestStatus_of_inactive inactive]
      exact ⟨rfl, rfl⟩
    · rw [requestStatus_of_sending (active heard) isSending]
      exact ⟨rfl, rfl⟩
    · rw [requestStatus_of_queued (active heard) notSending isQueued]
      exact ⟨rfl, rfl⟩
    · rw [requestStatus_of_room (active heard) notQueued room]
      obtain ⟨queue, owed, -⟩ := appendEntry_link .status (announcedAt now s)
      exact ⟨owed, queue⟩
    · intro wait bytes entered
      rw [requestStatus_announcedAt_of_empty run heard empty]
      have queue : (statusEntered now s).link.queue ≠ [] := List.cons_ne_nil _ _
      refine ⟨fun busy => ?_, fun idle early => ?_, fun idle rested => ?_⟩
      · exact congrArg State.link (kickTransmitter_of_line_not_idle (s := statusEntered now s) standby queue busy)
      · exact congrArg State.link (kickTransmitter_of_early (s := statusEntered now s) standby queue idle early)
      · rw [kickTransmitter_of_rested (s := statusEntered now s) standby queue idle rested,
          beginAttempt_of_cons (s := statusEntered now s) rfl]
        rfl
    · rw [requestStatus_of_full (active heard) notQueued full]
      exact ⟨rfl, rfl⟩
  case absent => exact fun absent => congrArg _ (peerAbsent_of_absent absent)
  case present =>
    intro heard peer present heardAt e gone
    have taken := peerAbsent_of_present peer present heardAt
    refine ⟨fun other => congrArg _ (taken.trans (loseOrigin_of_other other)), fun i u isOpenSlot holds origin => ?_⟩
    exact congrArg _ (taken.trans (loseOrigin_of_origin isOpenSlot holds origin))

end Sys2Proof.Proofs
end

section
/-! PROOFS. What an arrival leaves alone, and what the end of an event leaves of a take: the layer under the statements about a
frame in RUN (R22, R45, R60, R67, R68 to R72, R74 to R76, R160, R164, R185). -/

namespace Sys2Proof.Proofs

open Sys2Proof Sys2Proof.Machine Sys2Proof.Safety

/-! ### Notices that stay pending (R185) -/

/-- Every kind pending in a is pending in b. -/
def NoticesGrow (a b : NoticeUnit) : Prop :=
  ∀ k : Notice, a.pending.getLsbD k.bit = true → b.pending.getLsbD k.bit = true

theorem NoticesGrow.refl (a : NoticeUnit) : NoticesGrow a a := fun _ pending => pending

section

variable {a : NoticeUnit} {s : State} (h : NoticesGrow a s.notices)

include h

theorem noticesGrow_raise (k : Notice) : NoticesGrow a (raise k s).notices := by
  intro j pending
  have grown := isPending_raise j k s
  rw [isPending, isPending, h j pending, Bool.true_or] at grown
  exact grown

theorem noticesGrow_offerClip (src : ClipSource) (serial : Option Nat) (p : Nat) :
    NoticesGrow a (offerClip src serial p s).notices := by
  unfold offerClip
  split
  · exact h
  · exact noticesGrow_raise h .clip

theorem noticesGrow_convertFrame (conv : Vector Converted 16) : NoticesGrow a (convertFrame conv s).notices := by
  unfold convertFrame
  dsimp only
  split
  · exact h
  · refine noticesGrow_offerClip ?_ _ _ _
    exact h

theorem noticesGrow_mixFrame (conv : Vector Converted 16) : NoticesGrow a (mixFrame conv s).1.notices := by
  unfold mixFrame
  split
  · simp only [sendMix_notices, countBlockFrame_frame, raisePeaks_notices]
    split
    · unfold mixClip
      refine noticesGrow_offerClip ?_ _ _ _
      exact h
    · exact h
  · exact h

theorem noticesGrow_startSlot (v : RingView) (label : Label) (origin p : Nat) (flags : TakeFlags) :
    NoticesGrow a (startSlot v label origin p flags s).notices := by
  unfold startSlot
  split
  · exact h
  · dsimp only
    split
    · unfold markOriginLost
      refine noticesGrow_raise ?_ .originLost
      simp only [modifySlot_frame]
      exact noticesGrow_raise h .takeStarted
    · exact noticesGrow_raise h .takeStarted

theorem noticesGrow_promote (v : RingView) : NoticesGrow a (promote v s).notices := by
  unfold promote
  split
  · split
    · refine noticesGrow_startSlot ?_ _ _ _ _ _
      exact h
    · exact h
  · exact h

theorem noticesGrow_offerFrame (f : RingFrame) : NoticesGrow a (offerFrame f s).notices := by
  unfold offerFrame
  split
  · exact h
  · exact h
  · simp only [overrun, reportDiscard_frame]
    exact noticesGrow_raise h .overrun

theorem noticesGrow_takeArrival : NoticesGrow a (takeArrival s).notices := by
  have pendingKept (t : State) : (arrivePending t).notices = t.notices := by
    unfold arrivePending
    split
    · rfl
    · split <;> rfl
  simp only [takeArrival, pendingKept, arriveSlot_frame]
  exact h

theorem noticesGrow_promoteAtStamp : NoticesGrow a (promoteAtStamp s).notices := by
  unfold promoteAtStamp
  split
  · split
    · exact h
    · refine noticesGrow_promote ?_ _
      exact h
  · exact h

theorem noticesGrow_startLocal (v : RingView) (src : Source) : NoticesGrow a (startLocal v src s).notices := by
  unfold startLocal
  dsimp only
  split
  · refine noticesGrow_startSlot ?_ _ _ _ _ _
    exact h
  · exact h

theorem noticesGrow_localStart (v : RingView) (src : Source) : NoticesGrow a (localStart v src s).2.notices := by
  unfold localStart
  split
  · split
    · exact noticesGrow_raise h _
    · refine noticesGrow_startLocal ?_ _ _
      exact h
  · split
    · exact noticesGrow_raise h _
    · split
      · refine noticesGrow_startLocal ?_ _ _
        simp only [cutPostRoll_frame]
        exact h
      · refine noticesGrow_startLocal ?_ _ _
        exact h
  · exact h
  · exact h

theorem noticesGrow_fireCue : NoticesGrow a (fireCue s).notices := by
  unfold fireCue
  split
  · split
    · unfold cueRequest
      split
      · refine noticesGrow_localStart ?_ _ _
        exact h
      · simp only [localStop_frame]
        exact h
    · exact h
  · exact h

end

theorem isPending_raise_self (k : Notice) (s : State) : isPending k (raise k s) = true := by
  rw [isPending_raise, decide_eq_true rfl, Bool.or_true]

/-! ### The post-roll length, which no arrival changes -/

@[simp] theorem stopTake_postRoll (i : Fin 3) (u : Take) (e : Nat) (s : State) :
    (stopTake i u e s).takes.postRoll = s.takes.postRoll := by
  unfold stopTake
  dsimp only
  split
  · rfl
  · split <;> rfl

@[simp] theorem cutPostRoll_postRoll (i : Fin 3) (c : Nat) (s : State) :
    (cutPostRoll i c s).takes.postRoll = s.takes.postRoll := by
  unfold cutPostRoll
  split
  · rfl
  · split <;> rfl

@[simp] theorem modifySlot_postRoll (i : Fin 3) (f : Take → Take) (s : State) :
    (modifySlot i f s).takes.postRoll = s.takes.postRoll := by
  unfold modifySlot
  split <;> rfl

@[simp] theorem startSlot_postRoll (v : RingView) (label : Label) (origin p : Nat) (flags : TakeFlags) (s : State) :
    (startSlot v label origin p flags s).takes.postRoll = s.takes.postRoll := by
  unfold startSlot
  split
  · rfl
  · dsimp only
    split
    · simp only [markOriginLost, raise_takes, modifySlot_postRoll]
      rfl
    · rfl

@[simp] theorem arriveSlot_postRoll (i : Fin 3) (s : State) : (arriveSlot i s).takes.postRoll = s.takes.postRoll := by
  unfold arriveSlot
  split
  · rfl
  · split_ifs
    · exact stopTake_postRoll _ _ _ _
    · exact stopTake_postRoll _ _ _ _
    · rfl
    · rfl
    · rfl

@[simp] theorem takeArrival_postRoll (s : State) : (takeArrival s).takes.postRoll = s.takes.postRoll := by
  have pendingKept (t : State) : (arrivePending t).takes.postRoll = t.takes.postRoll := by
    unfold arrivePending
    split
    · rfl
    · split <;> rfl
  simp only [takeArrival, pendingKept, arriveSlot_postRoll]

@[simp] theorem promoteAtStamp_postRoll (s : State) : (promoteAtStamp s).takes.postRoll = s.takes.postRoll := by
  unfold promoteAtStamp promote
  split
  · split
    · rfl
    · split
      · split
        · exact startSlot_postRoll _ _ _ _ _ _
        · rfl
      · rfl
  · rfl

@[simp] theorem startLocal_postRoll (v : RingView) (src : Source) (s : State) :
    (startLocal v src s).takes.postRoll = s.takes.postRoll := by
  unfold startLocal
  dsimp only
  split
  · exact startSlot_postRoll _ _ _ _ _ _
  · rfl

@[simp] theorem localStart_postRoll (v : RingView) (src : Source) (s : State) :
    (localStart v src s).2.takes.postRoll = s.takes.postRoll := by
  unfold localStart
  repeat' split
  all_goals simp

@[simp] theorem localStop_postRoll (s : State) : (localStop s).2.takes.postRoll = s.takes.postRoll := by
  unfold localStop
  split
  · split
    · unfold applyStop
      split
      · rfl
      · split
        · exact stopTake_postRoll _ _ _ _
        · rfl
    · rfl
  · rfl
  · rfl
  · rfl

@[simp] theorem fireCue_postRoll (s : State) : (fireCue s).takes.postRoll = s.takes.postRoll := by
  unfold fireCue
  split
  · split
    · unfold cueRequest
      split
      · exact localStart_postRoll _ _ _
      · exact localStop_postRoll _
    · rfl
  · rfl

/-! ### A take's accounts (R74 to R76, R160, R161) -/

/-- The take v is u but for its next-to-write position, its gap frames, its gap list and its index-issued mark. -/
def Accounts (u v : Take) : Prop :=
  ∃ next g gaps merged issued,
    v = { u with next := next, g := g, gaps := gaps, gapsMerged := merged, indexIssued := issued }

theorem Accounts.refl (u : Take) : Accounts u u := ⟨u.next, u.g, u.gaps, u.gapsMerged, u.indexIssued, rfl⟩

theorem Accounts.trans {u v w : Take} (first : Accounts u v) (second : Accounts v w) : Accounts u w := by
  obtain ⟨_, _, _, _, _, rfl⟩ := first
  obtain ⟨_, _, _, _, _, rfl⟩ := second
  exact ⟨_, _, _, _, _, rfl⟩

/-- A run put into a gap list changes the list and its merged flag alone. -/
theorem insertRun_eq (D first count : Nat) (u : Take) :
    ∃ gaps merged, insertRun D first count u = { u with gaps := gaps, gapsMerged := merged } := by
  unfold insertRun
  split
  · exact ⟨u.gaps, u.gapsMerged, rfl⟩
  · split
    · exact ⟨_, u.gapsMerged, rfl⟩
    · split
      · exact ⟨_, u.gapsMerged, rfl⟩
      · exact ⟨_, _, rfl⟩

theorem accounts_insertRun (D first count : Nat) (u : Take) : Accounts u (insertRun D first count u) := by
  obtain ⟨gaps, merged, inserted⟩ := insertRun_eq D first count u
  exact ⟨u.next, u.g, gaps, merged, u.indexIssued, inserted⟩

theorem accounts_gapReport (D : Nat) (holes : Bool) (n : Nat) (u : Take) : Accounts u (gapReport D holes n u) := by
  unfold gapReport
  dsimp only
  generalize (if holes then _ else n) = count
  obtain ⟨gaps, merged, inserted⟩ := insertRun_eq D u.next count u
  rw [inserted]
  exact ⟨_, _, _, _, _, rfl⟩

/-- Slot i holds a take that is u but for its accounts. -/
def HoldsAccounted (i : Fin 3) (u : Take) (s : State) : Prop := ∃ v, s.takes.slots[i] = some v ∧ Accounts u v

theorem holdsAccounted_of_eq {i : Fin 3} {u : Take} {s : State} (holds : s.takes.slots[i] = some u) :
    HoldsAccounted i u s :=
  ⟨u, holds, .refl u⟩

theorem HoldsAccounted.modifySlot {i : Fin 3} {u : Take} {s : State} (h : HoldsAccounted i u s) (j : Fin 3)
    {f : Take → Take} (accounts : ∀ v, Accounts v (f v)) : HoldsAccounted i u (modifySlot j f s) := by
  obtain ⟨v, holds, same⟩ := h
  by_cases here : j = i
  · exact ⟨f v, by rw [modifySlot_slots, if_pos here, holds]; rfl, same.trans (accounts v)⟩
  · exact ⟨v, by rw [modifySlot_slots, if_neg here, holds], same⟩

theorem HoldsAccounted.accountSlot {i : Fin 3} {u : Take} (j : Fin 3) (fuel : Nat) {s : State}
    (h : HoldsAccounted i u s) : HoldsAccounted i u (accountSlot j fuel s) := by
  induction fuel generalizing s with
  | zero => exact h
  | succ fuel ih =>
    unfold Machine.accountSlot
    split
    · exact h
    · exact ih (h.modifySlot j (accounts_gapReport _ _ _))

/-- A decision of the writer marks a slot's index record issued, and changes no more of a take (R161, R164). -/
theorem makeDecision_slot {i : Fin 3} {u : Take} {s : State} (holds : s.takes.slots[i] = some u) :
    ∃ issued, (makeDecision s).takes.slots[i] = some { u with indexIssued := issued } := by
  rcases makeDecision_cases s with same | ⟨r, -, -, issued⟩
  · exact ⟨u.indexIssued, by rw [same]; exact holds⟩
  · rw [issued]
    unfold issueRequest
    split
    · refine ⟨u.indexIssued, ?_⟩
      split
      · exact holds
      · split
        · exact holds
        · exact holds
    case h_2 j =>
      split
      · exact ⟨u.indexIssued, holds⟩
      case h_2 w holdsW =>
        by_cases here : j = i
        · subst here
          rw [holds] at holdsW
          cases holdsW
          exact ⟨true, by rw [issueWrite_takes, setSlot_slots, if_pos rfl]⟩
        · exact ⟨u.indexIssued, by rw [issueWrite_takes, setSlot_slots, if_neg here]; exact holds⟩
    · exact ⟨u.indexIssued, holds⟩
    · exact ⟨u.indexIssued, holds⟩

theorem announceChange_takes (before after : State) : (announceChange before after).takes = after.takes := by
  simp only [announceChange_frame]

/-- The end of an event leaves a take but for its accounts. -/
theorem HoldsAccounted.finish {i : Fin 3} {u : Take} {after : State} (before : State) (h : HoldsAccounted i u after) :
    HoldsAccounted i u (finish before after) := by
  have settled : HoldsAccounted i u (settle after) := by
    unfold settle
    split
    · have dropped : HoldsAccounted i u (dropHeldAudio after) := by
        simpa only [HoldsAccounted, dropHeldAudio_frame] using h
      exact ((dropped.accountSlot 0 _).accountSlot 1 _).accountSlot 2 _
    · exact h
  obtain ⟨v, holds, same⟩ := settled
  obtain ⟨issued, decided⟩ := makeDecision_slot (s := announceChange before (settle after)) (u := v)
    (by rw [announceChange_takes]; exact holds)
  exact ⟨_, decided, same.trans ⟨v.next, v.g, v.gaps, v.gapsMerged, issued, rfl⟩⟩

/-! ### A take whose next frame is held has no report due (R160) -/

theorem cardFull_of_writer {s t : State} (same : t.writer = s.writer) : cardFull t = cardFull s := by
  rw [cardFull, same, cardFull]

theorem dueReport_of_held {s : State} {i : Fin 3} {u : Take} (holds : s.takes.slots[i] = some u)
    (held : ∃ g ∈ s.ring.frames, g.pos = u.next) (room : cardFull s = false) : dueReport s i = none := by
  obtain ⟨g, member, position⟩ := held
  have found : (heldAt s u.next).isSome = true := by
    rw [heldAt, List.find?_isSome]
    exact ⟨g, member, beq_iff_eq.mpr position⟩
  obtain ⟨o, at_next⟩ := Option.isSome_iff_exists.mp found
  have answer : ringAnswer s u.next = .held o := by rw [ringAnswer, at_next]
  simp only [dueReport, holds, answer, room, Bool.false_and, Bool.false_eq_true, if_false]

theorem accountSlot_slot_of_ne {i j : Fin 3} (other : j ≠ i) (fuel : Nat) (s : State) :
    (accountSlot j fuel s).takes.slots[i] = s.takes.slots[i] := by
  induction fuel generalizing s with
  | zero => rfl
  | succ fuel ih =>
    rw [accountSlot]
    cases dueReport s j with
    | none => rfl
    | some report => exact (ih _).trans (by rw [modifySlot_slots, if_neg other])

theorem accountSlot_of_held {s : State} {i : Fin 3} {u : Take} (j : Fin 3) (fuel : Nat)
    (holds : s.takes.slots[i] = some u) (held : ∃ g ∈ s.ring.frames, g.pos = u.next) (room : cardFull s = false) :
    (accountSlot j fuel s).takes.slots[i] = some u := by
  by_cases here : j = i
  · subst here
    cases fuel with
    | zero => exact holds
    | succ fuel => rw [accountSlot, dueReport_of_held holds held room]; exact holds
  · rw [accountSlot_slot_of_ne here]
    exact holds

/-- The end of an event leaves the accounts of a take whose next frame is held on a card that is not FULL. -/
theorem finish_slot_of_held {before after : State} {i : Fin 3} {u : Take} (holds : after.takes.slots[i] = some u)
    (held : ∃ g ∈ after.ring.frames, g.pos = u.next) (room : cardFull after = false) :
    ∃ issued, (finish before after).takes.slots[i] = some { u with indexIssued := issued } := by
  refine makeDecision_slot ?_
  rw [announceChange_takes]
  unfold settle
  split
  · have dropped : dropHeldAudio after = after := by
      unfold dropHeldAudio
      split
      · rw [room]; exact if_neg Bool.false_ne_true
      · rfl
    have stays (j : Fin 3) (fuel : Nat) (t : State) (slot : t.takes.slots[i] = some u) (ring : t.ring = after.ring)
        (writer : t.writer = after.writer) : (accountSlot j fuel t).takes.slots[i] = some u :=
      accountSlot_of_held j fuel slot (by rwa [ring]) (by rwa [cardFull_of_writer writer])
    rw [dropped, accountAll]
    refine stays 2 _ _ (stays 1 _ _ (stays 0 _ _ holds rfl rfl) ?_ ?_) ?_ ?_
    all_goals simp only [accountSlot_frame]
  · exact holds

/-! ### What the end of an event leaves of link, store and writer -/

theorem finish_link (before after : State) :
    (finish before after).link.peers = after.link.peers ∧ (finish before after).link.run = after.link.run ∧
      (finish before after).link.counts = after.link.counts := by
  have link : (finish before after).link = (announceChange before (settle after)).link := by
    simp only [finish, makeDecision_frame]
  have settled : (settle after).link = after.link := by simp only [settle_frame]
  rw [link, announceChange]
  split
  · rw [settled]
    exact ⟨rfl, rfl, rfl⟩
  · obtain ⟨peers, counts, run, -⟩ := requestStatus_link (settle after)
    rw [peers, counts, run, settled]
    exact ⟨rfl, rfl, rfl⟩

theorem finish_seq (before after : State) : (finish before after).store.seq = after.store.seq := by
  have decided (s : State) : (makeDecision s).store.seq = s.store.seq := by
    rcases makeDecision_cases s with same | ⟨r, -, -, issued⟩
    · rw [same]
    · rw [issued]
      unfold issueRequest
      repeat' split
      all_goals rfl
  rw [finish, decided]
  simp only [announceChange_frame, settle_frame]

theorem finish_writer (before after : State) :
    (finish before after).writer.range = after.writer.range ∧ (finish before after).writer.cursor = after.writer.cursor ∧
      (finish before after).writer.capture = after.writer.capture := by
  have settled : ∃ held, (settle after).writer = { after.writer with held := held } := by
    unfold settle dropHeldAudio
    split
    · simp only [accountAll_frame]
      repeat' split
      all_goals exact ⟨_, rfl⟩
    · exact ⟨after.writer.held, rfl⟩
  obtain ⟨held, settled⟩ := settled
  obtain ⟨flight, decided⟩ := makeDecision_writer (announceChange before (settle after))
  simp only [finish, decided, announceChange_frame, settled, and_self]

end Sys2Proof.Proofs
end

section
/-! PROOFS. A frame in RUN, from its stamp to the end of the event: what its stamping leaves of the slots, what the cue requests,
and what reaches the ring and the accounts (R39, R44, R45, R49, R60, R62, R65, R67 to R70). -/

namespace Sys2Proof.Proofs

open Sys2Proof Sys2Proof.Machine Sys2Proof.Safety

/-! ### What the stamping of a frame leaves of the slots (R60, R68 to R70) -/

/-- Nothing falls due for this take at the frame at p: it is CLOSING, or ROLLING with no stop there. -/
def Undisturbed (p D postRoll : Nat) (u : Take) : Prop :=
  u.phase = .closing ∨ (u.phase = .rolling ∧ u.e ≠ some p ∧ p ≠ halfDayLimit D u.sr postRoll)

theorem arriveSlot_of_empty {s : State} {i : Fin 3} (empty : s.takes.slots[i] = none) : arriveSlot i s = s := by
  rw [arriveSlot, empty]

theorem arriveSlot_of_undisturbed {s : State} {i : Fin 3} {u : Take} (holds : s.takes.slots[i] = some u)
    (calm : Undisturbed s.counter.newest s.day s.takes.postRoll u) : arriveSlot i s = s := by
  have idle : halfDayDue s u = false ∧ awaitedDue s u = false ∧ u.phase ≠ .post := by
    rcases calm with closing | ⟨rolling, notAwaited, notLimit⟩
    · simp [halfDayDue, awaitedDue, closing]
    · simp [halfDayDue, awaitedDue, rolling, notAwaited, notLimit]
  obtain ⟨noLimit, noStop, notPost⟩ := idle
  simp only [arriveSlot, holds, noLimit, noStop, notPost, Bool.false_eq_true, if_false]

theorem stopTake_slot_of_ne {i j : Fin 3} (other : j ≠ i) (u : Take) (e : Nat) (s : State) :
    (stopTake j u e s).takes.slots[i] = s.takes.slots[i] := by
  unfold stopTake closeSlot
  dsimp only
  split_ifs <;> rw [setSlot_slots, if_neg other]

theorem arriveSlot_slot_of_ne {i j : Fin 3} (other : j ≠ i) (s : State) :
    (arriveSlot j s).takes.slots[i] = s.takes.slots[i] := by
  unfold arriveSlot closeSlot
  split
  · rfl
  · split_ifs
    · exact stopTake_slot_of_ne other _ _ _
    · exact stopTake_slot_of_ne other _ _ _
    · rw [setSlot_slots, if_neg other]
    · rw [setSlot_slots, if_neg other]
    · rfl

theorem arriveSlot_slot_of_undisturbed {s : State} {i : Fin 3} {u : Take} (j : Fin 3)
    (holds : s.takes.slots[i] = some u) (calm : Undisturbed s.counter.newest s.day s.takes.postRoll u) :
    (arriveSlot j s).takes.slots[i] = some u := by
  by_cases here : j = i
  · subst here
    rwa [arriveSlot_of_undisturbed holds calm]
  · rwa [arriveSlot_slot_of_ne here]

theorem arrivePending_slots (s : State) : (arrivePending s).takes.slots = s.takes.slots := by
  unfold arrivePending
  split
  · rfl
  · split <;> rfl

theorem takeArrival_slot_of_undisturbed {s : State} {i : Fin 3} {u : Take} (holds : s.takes.slots[i] = some u)
    (calm : Undisturbed s.counter.newest s.day s.takes.postRoll u) : (takeArrival s).takes.slots[i] = some u := by
  have stays (j : Fin 3) (t : State) (slot : t.takes.slots[i] = some u) (counter : t.counter = s.counter)
      (postRoll : t.takes.postRoll = s.takes.postRoll) : (arriveSlot j t).takes.slots[i] = some u := by
    refine arriveSlot_slot_of_undisturbed j slot ?_
    rwa [State.day, counter, postRoll]
  rw [takeArrival, arrivePending_slots]
  refine stays 2 _ (stays 1 _ (stays 0 _ holds rfl rfl) ?_ ?_) ?_ ?_
  all_goals simp only [arriveSlot_frame, arriveSlot_postRoll]

theorem arriveSlot_pendingStart (i : Fin 3) (s : State) :
    (arriveSlot i s).takes.pendingStart = s.takes.pendingStart := by
  have stopped (u : Take) (e : Nat) : (stopTake i u e s).takes.pendingStart = s.takes.pendingStart := by
    unfold stopTake
    dsimp only
    split_ifs <;> rfl
  unfold arriveSlot
  split
  · rfl
  · split_ifs
    · exact stopped _ _
    · exact stopped _ _
    · rfl
    · rfl
    · rfl

theorem takeArrival_pendingStart_of_none {s : State} (noStart : s.takes.pendingStart = none) :
    (takeArrival s).takes.pendingStart = none := by
  have arrived : (arriveSlot 2 (arriveSlot 1 (arriveSlot 0 s))).takes.pendingStart = none := by
    simp only [arriveSlot_pendingStart, noStart]
  rw [takeArrival, arrivePending, arrived]
  exact arrived

theorem promoteAtStamp_of_no_pendingStart {s : State} (noStart : s.takes.pendingStart = none) : promoteAtStamp s = s :=
  promoteAtStamp_of_not_due (by rw [promotionDue, noStart])

/-! ### The cue at its position (R39) -/

theorem fireCue_of_other {s : State} (other : s.counter.cue.map Cue.pos ≠ some s.counter.newest) : fireCue s = s := by
  unfold fireCue
  split
  case h_1 q cue =>
    rw [cue] at other
    exact if_neg fun here => other (congrArg some here)
  case h_2 => rfl

theorem fireCue_of_cue {s : State} {q : Cue} (cue : s.counter.cue = some q) (here : q.pos = s.counter.newest) :
    fireCue s = cueRequest q.kind { s with counter := { s.counter with cue := none } } := by
  rw [fireCue, cue]
  exact if_pos here

theorem fireCue_counter (s : State) :
    (fireCue s).counter =
      { s.counter with cue := if s.counter.cue.map Cue.pos = some s.counter.newest then none else s.counter.cue } := by
  by_cases here : s.counter.cue.map Cue.pos = some s.counter.newest
  · obtain ⟨q, cue, position⟩ := Option.map_eq_some_iff.mp here
    rw [fireCue_of_cue cue position, if_pos here]
    simp only [cueRequest_frame]
  · rw [fireCue_of_other here, if_neg here]

/-! ### The state in which a stamped frame is converted (notes/assumptions/5.md and 18.md) -/

/-- The state in which the next frame is converted: stamped, after the stops, the promotion and the cue. -/
def metFrame (s : State) : State := fireCue (promoteAtStamp (takeArrival (stampFrame s)))

theorem metFrame_frame (s : State) :
    (metFrame s).time = s.time ∧ (metFrame s).port = s.port ∧ (metFrame s).front = s.front ∧
      (metFrame s).mixer = s.mixer ∧ (metFrame s).ring = s.ring ∧ (metFrame s).link = s.link ∧
      (metFrame s).store = s.store ∧ (metFrame s).writer = s.writer := by
  and_intros <;> simp [metFrame]

theorem metFrame_front (s : State) : (metFrame s).front = s.front := by
  simp only [metFrame_frame]

theorem stampFrame_counter (s : State) :
    (stampFrame s).counter =
      { s.counter with
        newest := (s.counter.newest + 1) % s.day, clock := .running, lossTimer := some s.time, frameSeen := true } := by
  rw [stampFrame_eq]

theorem metFrame_counter (s : State) :
    (metFrame s).counter =
      { s.counter with
        newest := (s.counter.newest + 1) % s.day, clock := .running, lossTimer := some s.time, frameSeen := true
        cue :=
          if s.counter.cue.map Cue.pos = some ((s.counter.newest + 1) % s.day) then none else s.counter.cue } := by
  rw [metFrame, fireCue_counter]
  simp only [promoteAtStamp_frame, takeArrival_frame, stampFrame_counter]

theorem metFrame_day (s : State) : (metFrame s).day = s.day := by
  rw [State.day, metFrame_counter]
  rfl

theorem metFrame_postRoll (s : State) : (metFrame s).takes.postRoll = s.takes.postRoll := by
  simp only [metFrame, fireCue_postRoll, promoteAtStamp_postRoll, takeArrival_postRoll, stampFrame_frame]

theorem metFrame_slot_of_undisturbed {s : State} {i : Fin 3} {u : Take} (noStart : s.takes.pendingStart = none)
    (noCue : s.counter.cue.map Cue.pos ≠ some ((s.counter.newest + 1) % s.day)) (holds : s.takes.slots[i] = some u)
    (calm : Undisturbed ((s.counter.newest + 1) % s.day) s.day s.takes.postRoll u) :
    (metFrame s).takes.slots[i] = some u := by
  have noStartAfter : (takeArrival (stampFrame s)).takes.pendingStart = none :=
    takeArrival_pendingStart_of_none (by simp only [stampFrame_frame, noStart])
  rw [metFrame, promoteAtStamp_of_no_pendingStart noStartAfter, fireCue_of_other]
  · refine takeArrival_slot_of_undisturbed (by simp only [stampFrame_frame, holds]) ?_
    simp only [State.day, stampFrame_counter, stampFrame_frame]
    exact calm
  · simp only [takeArrival_frame, stampFrame_counter]
    exact noCue

/-! ### Conversion, mix and ring of a frame (R6, R44, R145) -/

/-- The frame that the ring is offered at the arrival of f (R41). -/
def ringFrameOf (f : FrameIn) (s : State) : RingFrame :=
  let conv := convertAll s f
  { pos := (s.counter.newest + 1) % s.day, words := frameWords conv
    mix := if mixIsEnabled s then some (stage3 s.front.rounding (mixSum s conv)).1 else none, clips := frameClips conv }

/-- The state in which the frame f is mixed: met and converted. -/
def convertedFrame (f : FrameIn) (s : State) : State := convertFrame (convertAll s f) (metFrame s)

/-- The state in which the ring is offered the frame f: converted and mixed. -/
def mixedFrame (f : FrameIn) (s : State) : State := (mixFrame (convertAll s f) (convertedFrame f s)).1

theorem mixedFrame_frame (f : FrameIn) (s : State) :
    (mixedFrame f s).time = s.time ∧ (mixedFrame f s).port = s.port ∧ (mixedFrame f s).counter = (metFrame s).counter ∧
      (mixedFrame f s).ring = s.ring ∧ (mixedFrame f s).takes = (metFrame s).takes ∧ (mixedFrame f s).link = s.link ∧
      (mixedFrame f s).store = s.store ∧ (mixedFrame f s).writer = s.writer := by
  obtain ⟨time, port, -, -, ring, link, store, writer⟩ := metFrame_frame s
  simp only [mixedFrame, convertedFrame, mixFrame_frame, convertFrame_frame, time, port, ring, link, store, writer, and_self]

theorem mixedFrame_takes (f : FrameIn) (s : State) : (mixedFrame f s).takes = (metFrame s).takes := by
  simp only [mixedFrame_frame]

theorem convertedFrame_frame (f : FrameIn) (s : State) :
    (convertedFrame f s).counter = (metFrame s).counter ∧ (convertedFrame f s).takes = (metFrame s).takes ∧
      (convertedFrame f s).mixer = s.mixer := by
  simp only [convertedFrame, convertFrame_frame, metFrame_frame, and_self]

/-- The kind and the mix enable of a track are settings, which no frame changes. -/
theorem convertTrack_settings (mode : Rounding) (u : Track) (r : Reading) :
    (convertTrack mode u r).track.kind = u.kind ∧ (convertTrack mode u r).track.mixEnable = u.mixEnable := by
  unfold convertTrack
  split
  · exact ⟨rfl, rfl⟩
  · exact ⟨rfl, rfl⟩
  · split <;> exact ⟨rfl, rfl⟩
  · exact ⟨rfl, rfl⟩

theorem convertAll_of_front {s t : State} (same : t.front = s.front) (f : FrameIn) : convertAll t f = convertAll s f := by
  rw [convertAll, same, convertAll]

theorem mixEnabled_of_settings {s t : State}
    (same : ∀ i : Fin 16, t.front.tracks[i].kind = s.front.tracks[i].kind ∧
      t.front.tracks[i].mixEnable = s.front.tracks[i].mixEnable) : mixEnabled t = mixEnabled s := by
  funext i
  obtain ⟨kind, enable⟩ := same i
  rw [mixEnabled, kind, enable, mixEnabled]

@[simp] theorem offerClip_rounding (src : ClipSource) (serial : Option Nat) (p : Nat) (s : State) :
    (offerClip src serial p s).front.rounding = s.front.rounding := by
  unfold offerClip
  split <;> rfl

@[simp] theorem convertFrame_rounding (conv : Vector Converted 16) (s : State) :
    (convertFrame conv s).front.rounding = s.front.rounding := by
  unfold convertFrame
  dsimp only
  split
  · rfl
  · exact offerClip_rounding _ _ _ _

section

variable (f : FrameIn) (s : State)

/-- The conversion of the frame leaves the mix as it found it: settings, rounding and gains. -/
theorem convertedFrame_mix :
    mixEnabled (convertedFrame f s) = mixEnabled s ∧ (convertedFrame f s).front.rounding = s.front.rounding ∧
      (convertedFrame f s).mixer = s.mixer := by
  obtain ⟨-, -, mixer⟩ := convertedFrame_frame f s
  refine ⟨mixEnabled_of_settings fun i => ?_, ?_, mixer⟩
  · rw [convertedFrame, convertFrame_tracks, convertAll_getElem]
    exact convertTrack_settings _ _ _
  · rw [convertedFrame, convertFrame_rounding, metFrame_front]

theorem mixIsEnabled_convertedFrame : mixIsEnabled (convertedFrame f s) = mixIsEnabled s := by
  rw [mixIsEnabled, (convertedFrame_mix f s).1, mixIsEnabled]

theorem stage3_convertedFrame :
    stage3 (convertedFrame f s).front.rounding (mixSum (convertedFrame f s) (convertAll s f)) =
      stage3 s.front.rounding (mixSum s (convertAll s f)) := by
  obtain ⟨enabled, rounding, mixer⟩ := convertedFrame_mix f s
  rw [rounding, mixSum, enabled, mixer, mixSum]

theorem mixFrame_word : (mixFrame (convertAll s f) (convertedFrame f s)).2 = (ringFrameOf f s).mix := by
  unfold mixFrame
  rw [mixIsEnabled_convertedFrame, stage3_convertedFrame]
  cases enabled : mixIsEnabled s <;> simp [ringFrameOf, enabled]

/-- A frame in RUN: what is mixed is offered to the ring, then a promotion left open is made, then the event ends. -/
theorem arriveFrame_of_run (run : s.inRun = true) :
    arriveFrame f s =
      finish s (promote .afterFrame (offerFrame (ringFrameOf f s) (mixedFrame f s))) := by
  have conv : convertAll (metFrame s) f = convertAll s f := convertAll_of_front (metFrame_front s) f
  have newest : (metFrame s).counter.newest = (s.counter.newest + 1) % s.day := by rw [metFrame_counter]
  have ran : runFrame f (stampFrame s) = promote .afterFrame (offerFrame (ringFrameOf f s) (mixedFrame f s)) := by
    unfold runFrame
    dsimp only
    rw [← metFrame, conv, newest, ← convertedFrame, mixFrame_word]
    rfl
  rw [arriveFrame, if_pos run, ran]

end

/-! ### The ring's part in the slots (R44, R45, R60) -/

theorem HoldsAccounted.offerFrame {i : Fin 3} {u : Take} {s : State} (h : HoldsAccounted i u s) (frame : RingFrame) :
    HoldsAccounted i u (offerFrame frame s) := by
  have report (j : Fin 3) {t : State} (held : HoldsAccounted i u t) : HoldsAccounted i u (reportDiscard j frame.pos t) := by
    refine held.modifySlot j fun v => ?_
    split
    · exact accounts_insertRun _ _ _ _
    · exact .refl v
  unfold Machine.offerFrame
  split
  · exact h
  · exact h
  · exact report 2 (report 1 (report 0 h))

theorem emptySlot_eq_some {s : State} {i : Fin 3} (empty : emptySlot s = some i) : s.takes.slots[i] = none := by
  rcases findSlot_spec Option.isNone s with ⟨j, found, isNone, -⟩ | ⟨noSlot, -⟩
  · rw [emptySlot, found] at empty
    cases empty
    exact Option.isNone_iff_eq_none.mp isNone
  · rw [emptySlot, noSlot] at empty
    cases empty

/-- A start takes an EMPTY slot, so a slot that holds a take keeps it (R67). -/
theorem startSlot_slot_of_some {s : State} {i : Fin 3} {u : Take} (holds : s.takes.slots[i] = some u) (v : RingView)
    (label : Label) (origin p : Nat) (flags : TakeFlags) :
    (startSlot v label origin p flags s).takes.slots[i] = some u := by
  unfold startSlot
  split
  · exact holds
  case h_2 j empty =>
    have other : j ≠ i := by
      rintro rfl
      rw [emptySlot_eq_some empty] at holds
      cases holds
    have started (w : Option Take) (t : State) (same : t.takes.slots[i] = s.takes.slots[i]) :
        (raise .takeStarted (setSlot j w t)).takes.slots[i] = some u :=
      ((setSlot_slots j i w t).trans (if_neg other)).trans (same.trans holds)
    dsimp only
    split
    · exact ((modifySlot_slots j i _ _).trans (if_neg other)).trans (started _ _ rfl)
    · exact started _ _ rfl

theorem promote_slot_of_some {s : State} {i : Fin 3} {u : Take} (holds : s.takes.slots[i] = some u) (v : RingView) :
    (promote v s).takes.slots[i] = some u := by
  unfold promote
  split
  · split
    · exact startSlot_slot_of_some (s := dropPending s) holds _ _ _ _ _
    · exact holds
  · exact holds

/-- What the ring and the end of the event leave of a take that is there when the frame is converted. -/
theorem arriveFrame_holdsAccounted (f : FrameIn) {s : State} (run : s.inRun = true) {i : Fin 3} {u : Take}
    (holds : (metFrame s).takes.slots[i] = some u) : HoldsAccounted i u (arriveFrame f s) := by
  rw [arriveFrame_of_run f s run]
  have offered : HoldsAccounted i u (mixedFrame f s) :=
    holdsAccounted_of_eq (by rw [mixedFrame_takes, holds])
  obtain ⟨v, slot, same⟩ := offered.offerFrame (ringFrameOf f s)
  exact HoldsAccounted.finish s ⟨v, promote_slot_of_some slot _, same⟩

/-- A take whose next frame the ring holds on a card that is not FULL keeps its accounts through the end of the arrival. -/
theorem arriveFrame_slot_of_held (f : FrameIn) {s : State} (run : s.inRun = true) (room : cardFull s = false) {i : Fin 3}
    {u : Take} (holds : (offerFrame (ringFrameOf f s) (mixedFrame f s)).takes.slots[i] = some u)
    (held : ∃ g ∈ (offerFrame (ringFrameOf f s) (mixedFrame f s)).ring.frames, g.pos = u.next) :
    ∃ issued, (arriveFrame f s).takes.slots[i] = some { u with indexIssued := issued } := by
  rw [arriveFrame_of_run f s run]
  refine finish_slot_of_held (promote_slot_of_some holds _) ?_ ?_
  · simpa only [promote_frame] using held
  · rw [cardFull_of_writer (s := s)]
    · exact room
    · simp only [promote_frame, offerFrame_frame, mixedFrame_frame]

theorem arriveFrame_counter (f : FrameIn) {s : State} (run : s.inRun = true) :
    (arriveFrame f s).counter = (metFrame s).counter := by
  rw [arriveFrame_of_run f s run]
  simp only [finish_frame, promote_frame, offerFrame_frame, mixedFrame_frame]

theorem noticesGrow_mixedFrame (f : FrameIn) (s : State) : NoticesGrow (metFrame s).notices (mixedFrame f s).notices := by
  unfold mixedFrame convertedFrame
  refine noticesGrow_mixFrame ?_ _
  refine noticesGrow_convertFrame ?_ _
  exact .refl _

/-- From the offer to the ring on, no kind leaves the pending set. -/
theorem noticesGrow_arriveFrame (f : FrameIn) {s : State} (run : s.inRun = true) :
    NoticesGrow (offerFrame (ringFrameOf f s) (mixedFrame f s)).notices (arriveFrame f s).notices := by
  rw [arriveFrame_of_run f s run]
  simp only [finish_frame]
  exact noticesGrow_promote (.refl _) _

theorem isPending_of_mixedFrame (f : FrameIn) {s : State} (run : s.inRun = true) {k : Notice}
    (pending : isPending k (mixedFrame f s) = true) : isPending k (arriveFrame f s) = true :=
  noticesGrow_arriveFrame f run k (noticesGrow_offerFrame (.refl _) _ k pending)

theorem isPending_of_metFrame (f : FrameIn) {s : State} (run : s.inRun = true) {k : Notice}
    (pending : isPending k (metFrame s) = true) : isPending k (arriveFrame f s) = true :=
  isPending_of_mixedFrame f run (noticesGrow_mixedFrame f s k pending)

/-! ### Starts and stops that a cue requests (R62, R65, R67, R68) -/

theorem signedDiff_self {D : Nat} (pos : 0 < D) (p : Nat) : signedDiff D p p = 0 :=
  (signedDiff_eq_zero_iff p p pos).mpr rfl

theorem isLater_self {D : Nat} (pos : 0 < D) (p : Nat) : isLater D p p = false := by
  rw [isLater, signedDiff_self pos]
  rfl

theorem countAfter_self {D : Nat} (pos : 0 < D) (p : Nat) : countAfter D p p = 0 := by
  rw [countAfter, signedDiff_self pos]
  rfl

theorem posSub_zero {D p : Nat} (inDay : p < D) : posSub D p 0 = p := by
  rw [posSub, Nat.zero_mod, Nat.sub_zero, Nat.add_mod_right, Nat.mod_eq_of_lt inDay]

theorem openSlot_of_only {s : State} {i : Fin 3} {u : Take} (holds : s.takes.slots[i] = some u)
    (isOpenTake : isOpen (some u) = true) (others : ∀ j : Fin 3, j ≠ i → s.takes.slots[j] = none) :
    openSlot s = some i := by
  rcases findSlot_spec isOpen s with ⟨j, found, isOpenSlot, -⟩ | ⟨-, noSlot⟩
  · by_cases here : j = i
    · rw [openSlot, found, here]
    · rw [others j here] at isOpenSlot
      cases isOpenSlot
  · have closed := noSlot i
    rw [holds, isOpenTake] at closed
    cases closed

theorem enginePhase_of_empty {s : State} (empty : ∀ i : Fin 3, s.takes.slots[i] = none)
    (noStart : s.takes.pendingStart = none) : enginePhase s = .idle := by
  have noOpen : openSlot s = none := by
    rcases findSlot_spec isOpen s with ⟨j, -, isOpenSlot, -⟩ | ⟨noSlot, -⟩
    · rw [empty j] at isOpenSlot
      cases isOpenSlot
    · exact noSlot
  simp only [enginePhase, openTake, noOpen, noStart, Option.isSome_none, Bool.false_eq_true, if_false]

theorem peerIsAbsent_own (s : State) : peerIsAbsent s s.port.station.val = false := by
  rw [peerIsAbsent, dif_pos s.port.station.isLt, bne_self_eq_false, Bool.false_and]

/-- A start of this station's own in IDLE on a card that is not FULL takes the first slot, all of them being EMPTY (R62, R67). -/
theorem localStart_of_empty {v : RingView} (src : Source) {s : State} (empty : ∀ i : Fin 3, s.takes.slots[i] = none)
    (noStart : s.takes.pendingStart = none) (room : cardFull s = false) :
    (localStart v src s).2 =
      raise .takeStarted
        (setSlot 0
          (some
            (freshTake v { scene := s.takes.scene, number := s.takes.nextTake } s.port.station.val
              (posSub s.day s.counter.newest s.takes.preRoll) {} s))
          { s with takes := { s.takes with serial := nextSerial s.takes.serial } }) := by
  have first : emptySlot s = some 0 := if_pos (Option.isNone_iff_eq_none.mpr (empty 0))
  simp only [localStart, enginePhase_of_empty empty noStart, room, startLocal, first, startSlot, peerIsAbsent_own,
    Bool.false_eq_true, if_false, Option.isSome_some, if_true]

/-- A stop of this station's own for the only take, at the newest position with a post-roll to come (R65, R68). -/
theorem localStop_of_rolling {s : State} {i : Fin 3} {u : Take} (holds : s.takes.slots[i] = some u)
    (rolling : u.phase = .rolling) (others : ∀ j : Fin 3, j ≠ i → s.takes.slots[j] = none)
    (postRoll : 0 < s.takes.postRoll) :
    (localStop s).2 = setSlot i (some { u with e := some s.counter.newest, phase := .post, postRoll := 0 }) s := by
  have isOpenSlot : openSlot s = some i := openSlot_of_only holds (by simp [isOpen, rolling]) others
  have phase : enginePhase s = .rolling := by
    simp only [enginePhase, openTake_of_slot isOpenSlot holds, rolling, beq_self_eq_true, if_true]
  have pos : 0 < s.day := Nat.lt_of_succ_lt (one_lt_day s)
  simp only [localStop, phase, isOpenSlot, applyStop, holds, rolling, if_true, stopTake, isLater_self pos,
    countAfter_self pos, if_pos postRoll, Bool.false_eq_true, if_false]

/-! ### CUE_FIRE (R39, R49) -/

theorem cueDue_of_cue {s : State} {q : Cue} (run : s.inRun = true) (cue : s.counter.cue = some q)
    (here : q.pos = (s.counter.newest + 1) % s.day) : cueDue s = true := by
  rw [cueDue, run, cue, Option.map_some, here]
  exact beq_self_eq_true _

/-- The stamped state whose cue has been cleared: that in which a cue at this frame makes its request. -/
def cueCleared (s : State) : State :=
  { s with
    counter :=
      { s.counter with
        newest := (s.counter.newest + 1) % s.day, clock := .running, lossTimer := some s.time, frameSeen := true
        cue := none }
    notices := (stampFrame s).notices }

theorem takeArrival_of_calm {s : State}
    (calm : ∀ i : Fin 3, s.takes.slots[i] = none ∨
      ∃ u, s.takes.slots[i] = some u ∧ Undisturbed s.counter.newest s.day s.takes.postRoll u)
    (noStart : s.takes.pendingStart = none) : takeArrival s = s := by
  have stays (i : Fin 3) : arriveSlot i s = s := by
    rcases calm i with empty | ⟨u, holds, undisturbed⟩
    · exact arriveSlot_of_empty empty
    · exact arriveSlot_of_undisturbed holds undisturbed
  rw [takeArrival, stays 0, stays 1, stays 2, arrivePending, noStart]

/-- With no stop and no promotion at this frame, the cue at it makes its request of the stamped state. -/
theorem metFrame_of_cue {s : State} {q : Cue} (cue : s.counter.cue = some q)
    (here : q.pos = (s.counter.newest + 1) % s.day) (noStart : s.takes.pendingStart = none)
    (calm : ∀ i : Fin 3, s.takes.slots[i] = none ∨
      ∃ u, s.takes.slots[i] = some u ∧ Undisturbed q.pos s.day s.takes.postRoll u) :
    metFrame s = cueRequest q.kind (cueCleared s) := by
  have takes : (stampFrame s).takes = s.takes := by simp only [stampFrame_frame]
  have stampedCalm : takeArrival (stampFrame s) = stampFrame s := by
    refine takeArrival_of_calm ?_ (by rw [takes, noStart])
    have day : (stampFrame s).day = s.day := by rw [State.day, stampFrame_counter]; rfl
    rw [stampFrame_newest, day, takes, ← here]
    exact calm
  rw [metFrame, stampedCalm, promoteAtStamp_of_no_pendingStart (by rw [takes, noStart]), fireCue_of_cue (q := q)]
  · rw [cueCleared, stampFrame_eq]
  · rw [stampFrame_counter, cue]
  · rw [stampFrame_newest, here]

theorem offerFrame_of_room (frame : RingFrame) {s : State} (room : s.ring.frames.length < 1048576) :
    offerFrame frame s = { s with ring := { s.ring with frames := s.ring.frames ++ [frame] } } := by
  have append : ringAction s = .append := if_pos room
  rw [offerFrame, append]

/-- The take of a START cue with no pre-roll and an empty ring begins at the frame, with nothing missing (R49). -/
theorem headOf_newest_of_empty_ring {s : State} (empty : s.ring.frames = []) :
    headOf .beforeFrame s s.counter.newest = (0, s.counter.newest) := by
  have pos : 0 < s.day := Nat.lt_of_succ_lt (one_lt_day s)
  simp only [headOf, lookup, isLater_self pos, empty, List.find?_nil, firstUnseen, countAfter_self pos, Bool.false_eq_true,
    if_false]

/-- The take of a START cue as it is when the frame is converted. -/
def cueTake (s : State) : Take :=
  freshTake .beforeFrame { scene := s.takes.scene, number := s.takes.nextTake } s.port.station.val
    (posSub s.day ((s.counter.newest + 1) % s.day) s.takes.preRoll) {} (cueCleared s)

theorem metFrame_of_start_cue {s : State} {q : Cue} (cue : s.counter.cue = some q)
    (here : q.pos = (s.counter.newest + 1) % s.day) (start : q.kind = .start)
    (empty : ∀ i : Fin 3, s.takes.slots[i] = none) (noStart : s.takes.pendingStart = none) (room : cardFull s = false) :
    (metFrame s).takes.slots[(0 : Fin 3)] = some (cueTake s) ∧ isPending .takeStarted (metFrame s) = true := by
  have started := localStart_of_empty (v := .beforeFrame) .cue (s := cueCleared s) empty noStart room
  have met : metFrame s = (localStart .beforeFrame .cue (cueCleared s)).2 := by
    rw [metFrame_of_cue cue here noStart fun i => .inl (empty i), start]
    rfl
  rw [met, started]
  exact ⟨(setSlot_slots 0 0 _ _).trans (if_pos rfl), isPending_raise_self _ _⟩

theorem metFrame_of_stop_cue {s : State} {q : Cue} (cue : s.counter.cue = some q)
    (here : q.pos = (s.counter.newest + 1) % s.day) (stop : q.kind = .stop) {i : Fin 3} {u : Take}
    (holds : s.takes.slots[i] = some u) (rolling : u.phase = .rolling)
    (others : ∀ j : Fin 3, j ≠ i → s.takes.slots[j] = none) (noStart : s.takes.pendingStart = none)
    (postRoll : 0 < s.takes.postRoll) (noStop : u.e = none)
    (notLimit : q.pos ≠ halfDayLimit s.day u.sr s.takes.postRoll) :
    (metFrame s).takes.slots[i] =
      some { u with e := some ((s.counter.newest + 1) % s.day), phase := .post, postRoll := 0 } := by
  have calm (j : Fin 3) : s.takes.slots[j] = none ∨
      ∃ w, s.takes.slots[j] = some w ∧ Undisturbed q.pos s.day s.takes.postRoll w := by
    by_cases own : j = i
    · subst own
      exact .inr ⟨u, holds, .inr ⟨rolling, by rw [noStop]; exact nofun, notLimit⟩⟩
    · exact .inl (others j own)
  have stopped := localStop_of_rolling (s := cueCleared s) holds rolling others postRoll
  have met : metFrame s = (localStop (cueCleared s)).2 := by
    rw [metFrame_of_cue cue here noStart calm, stop]
    rfl
  rw [met, stopped]
  exact (setSlot_slots i i _ _).trans (if_pos rfl)

/-- With no pre-roll and an empty ring the take of a START cue ends the arrival where it began, at the frame (R49). -/
theorem arriveFrame_cueTake (f : FrameIn) {s : State} (run : s.inRun = true) (room : cardFull s = false)
    (holds : (metFrame s).takes.slots[(0 : Fin 3)] = some (cueTake s)) (noPreRoll : s.takes.preRoll = 0)
    (empty : s.ring.frames = []) :
    (cueTake s).h = 0 ∧
      ∃ issued, (arriveFrame f s).takes.slots[(0 : Fin 3)] =
        some { cueTake s with next := (s.counter.newest + 1) % s.day, indexIssued := issued } := by
  have inDay : (s.counter.newest + 1) % s.day < s.day := Nat.mod_lt _ (Nat.lt_of_succ_lt (one_lt_day s))
  have head : headOf .beforeFrame (cueCleared s) (posSub s.day ((s.counter.newest + 1) % s.day) s.takes.preRoll) =
      (0, (s.counter.newest + 1) % s.day) := by
    rw [noPreRoll, posSub_zero inDay]
    exact headOf_newest_of_empty_ring (s := cueCleared s) empty
  have next : (cueTake s).next = (s.counter.newest + 1) % s.day := congrArg Prod.snd head
  have ring : (mixedFrame f s).ring = s.ring := by simp only [mixedFrame_frame]
  have offered := offerFrame_of_room (ringFrameOf f s) (s := mixedFrame f s) (by rw [ring, empty]; decide)
  have slots : (offerFrame (ringFrameOf f s) (mixedFrame f s)).takes.slots[(0 : Fin 3)] = some (cueTake s) := by
    rw [offered, ← holds, ← mixedFrame_takes f s]
  have frames : (offerFrame (ringFrameOf f s) (mixedFrame f s)).ring.frames = [ringFrameOf f s] := by
    rw [offered, ring, empty]
    rfl
  obtain ⟨issued, slot⟩ := arriveFrame_slot_of_held f run room slots
    ⟨ringFrameOf f s, by rw [frames]; exact List.mem_singleton_self _, next.symm⟩
  exact ⟨congrArg Prod.fst head, issued, by rw [slot, ← next]⟩

/-- Settles O33: the row is the arrival, the cue makes its request of the stamped state, and the rest of the arrival leaves the
take but for its accounts. -/
theorem cueFiresAtItsPosition : Obligations.CueFiresAtItsPosition := by
  unfold Obligations.CueFiresAtItsPosition
  intro f s q phase cue here
  have run := inRun_of_run phase
  have counter := (arriveFrame_counter f run).trans (metFrame_counter s)
  refine ⟨arriveFrame f s, congrArg Host.Outcome.next (if_pos (cueDue_of_cue run cue here)), rfl, ?cleared, ?newest,
    (arriveFrame_frame f s).2.1, ?start, ?stop⟩
  case cleared =>
    rw [counter, cue, Option.map_some, here]
    exact if_pos rfl
  case newest => rw [counter, here]
  case start =>
    intro start empty noStart room
    obtain ⟨holds, pending⟩ := metFrame_of_start_cue cue here start empty noStart room
    obtain ⟨v, slot, next, g, gaps, merged, issued, rfl⟩ := arriveFrame_holdsAccounted f run holds
    refine ⟨_, slot, rfl, rfl, rfl, ?_, rfl, here.symm, ?_, fun noPreRoll noFrames => ?_, isPending_of_metFrame f run pending⟩
    · rw [here]
      rfl
    · rw [here]
      rfl
    · obtain ⟨noneMissing, _, kept⟩ := arriveFrame_cueTake f run room holds noPreRoll noFrames
      rw [slot, Option.some.injEq] at kept
      exact ⟨noneMissing, (congrArg Take.next kept).trans here.symm⟩
  case stop =>
    intro stop i u holds rolling others noStart postRoll noStop notLimit
    have stopped := metFrame_of_stop_cue cue here stop holds rolling others noStart postRoll noStop notLimit
    obtain ⟨v, slot, next, g, gaps, merged, issued, rfl⟩ := arriveFrame_holdsAccounted f run stopped
    exact ⟨_, slot, rfl, congrArg some here.symm, rfl, rfl, rfl⟩

end Sys2Proof.Proofs
end

section
/-! PROOFS. The frame in RUN as a whole: the exact sum of the mix and its integer on the output port, the clips that a frame
offers, and what a full ring does with it (R6, R19, R20, R22, R44, R45, R143, R146, R147, R155, R190). -/

namespace Sys2Proof.Proofs

open Sys2Proof Sys2Proof.Machine Sys2Proof.Safety

/-! ### The exact sum of the mix (R143, R146) -/

theorem wordUnits_eq_valueOf (word : Option FieldWord) : (word.map wordUnits).getD 0 = valueOf word := by
  cases word with
  | none => rfl
  | some w =>
    have zero : w.exponent = 0 ↔ w.exponent.toNat = 0 := by rw [← BitVec.toNat_inj]; rfl
    simp only [Option.map_some, Option.getD_some, wordUnits, valueOf, zero]
    split_ifs <;> simp

theorem mixEnabled_iff (s : State) (n : Fin 16) :
    mixEnabled s n = true ↔ s.front.tracks[n].kind ≠ .off ∧ s.front.tracks[n].mixEnable = true := by
  rw [mixEnabled, Bool.and_eq_true, bne_iff_ne]

theorem mixIsEnabled_iff (s : State) : mixIsEnabled s = true ↔ ∃ n, mixEnabled s n = true := by
  simp only [mixIsEnabled, List.any_eq_true, List.mem_finRange, true_and]

/-- The mix is the sum of any terms that are value times gain on the mix-enabled tracks and 0 on the others. -/
theorem mixSum_eq_sum (s : State) (conv : Vector Converted 16) {term : Fin 16 → Int}
    (enabled : ∀ n, mixEnabled s n = true → term n = valueOf conv[n].word * s.mixer.tracks[n].gain)
    (disabled : ∀ n, ¬mixEnabled s n = true → term n = 0) :
    mixSum s conv = ((List.finRange 16).map term).sum := by
  refine congrArg List.sum (List.map_congr_left fun n _ => ?_)
  by_cases mixed : mixEnabled s n = true
  · rw [if_pos mixed, enabled n mixed, wordUnits_eq_valueOf]
  · rw [if_neg mixed, disabled n mixed]

/-! ### The mix output port and the mix clip count (R147, R155, R190) -/

theorem toInt_ofInt_stage3 (mode : Rounding) (sum : Int) :
    (BitVec.ofInt 24 (stage3 mode sum).1).toInt = (stage3 mode sum).1 := by
  rw [stage3_eq]
  exact BitVec.toInt_ofInt_eq_self (by decide) (by omega) (by omega)

theorem portBits_getElem? (v : BitVec 24) {k : Nat} (inWord : k < 24) : (portBits v)[k]? = some (v.getLsbD (23 - k)) := by
  rw [portBits, List.getElem?_map, List.getElem?_range inWord, Option.map_some, BitVec.getMsbD_eq_getLsbD,
    decide_eq_true inWord, Bool.true_and]

@[simp] theorem sendMix_clips (v : Int) (s : State) : (sendMix v s).mixer.clips = s.mixer.clips := by
  simp only [sendMix]

@[simp] theorem raisePeaks_clips (conv : Vector Converted 16) (s : State) :
    (raisePeaks conv s).mixer.clips = s.mixer.clips := by
  simp only [raisePeaks]

@[simp] theorem countBlockFrame_clips (s : State) : (countBlockFrame s).mixer.clips = s.mixer.clips := by
  unfold countBlockFrame blockEndUpdate
  split <;> simp only

/-- The mix of a frame, in the blocks that it touches. -/
theorem mixFrame_blocks (conv : Vector Converted 16) (s : State) :
    let mix := stage3 s.front.rounding (mixSum s conv)
    let clipped := if mixIsEnabled s && mix.2 then mixClip s else s
    (mixFrame conv s).1.front = clipped.front ∧ (mixFrame conv s).1.notices = clipped.notices ∧
      (mixFrame conv s).1.mixer.clips = clipped.mixer.clips ∧
      (mixFrame conv s).1.mixer.output = some (BitVec.ofInt 24 (if mixIsEnabled s then mix.1 else 0)) := by
  intro mix clipped
  unfold mixFrame
  cases enabled : mixIsEnabled s with
  | false =>
    have noClip : clipped = s := by simp only [clipped, enabled, Bool.false_and, Bool.false_eq_true, if_false]
    rw [noClip]
    exact ⟨rfl, rfl, rfl, rfl⟩
  | true =>
    have offered : clipped = if mix.2 then mixClip s else s := by simp only [clipped, enabled, Bool.true_and]
    rw [offered]
    simp only [if_true, sendMix_front, sendMix_notices, sendMix_clips, countBlockFrame_frame, countBlockFrame_clips,
      raisePeaks_front, raisePeaks_notices, raisePeaks_clips]
    exact ⟨rfl, rfl, rfl, rfl⟩

section

variable (f : FrameIn) (s : State)

/-- The mix of this frame is a clip (R19). -/
def mixClips : Bool := mixIsEnabled s && (stage3 s.front.rounding (mixSum s (convertAll s f))).2

theorem mixedFrame_blocks :
    let clipped := if mixClips f s then mixClip (convertedFrame f s) else convertedFrame f s
    (mixedFrame f s).front = clipped.front ∧ (mixedFrame f s).notices = clipped.notices ∧
      (mixedFrame f s).mixer.clips = clipped.mixer.clips ∧
      (mixedFrame f s).mixer.output =
        some
          (BitVec.ofInt 24
            (if mixIsEnabled s then (stage3 s.front.rounding (mixSum s (convertAll s f))).1 else 0)) := by
  have blocks := mixFrame_blocks (convertAll s f) (convertedFrame f s)
  rw [stage3_convertedFrame, mixIsEnabled_convertedFrame] at blocks
  rw [mixClips, mixedFrame]
  exact blocks

theorem mixedFrame_clips :
    (mixedFrame f s).mixer.clips =
      if mixIsEnabled s = true ∧ (stage3 s.front.rounding (mixSum s (convertAll s f))).2 = true then
        min 4294967295 (s.mixer.clips + 1)
      else s.mixer.clips := by
  obtain ⟨-, -, mixer⟩ := convertedFrame_frame f s
  obtain ⟨-, -, clips, -⟩ := mixedFrame_blocks f s
  rw [clips, mixClips]
  simp only [Bool.and_eq_true]
  split_ifs
  · simp only [mixClip, offerClip_frame, mixer]
    rfl
  · rw [mixer]

end

/-! ### The clips of a frame (R20, R22) -/

theorem frameClips_eq_nil_iff (conv : Vector Converted 16) :
    frameClips conv = [] ↔ ∀ n : Fin 16, conv[n].clip = false := by
  simp only [frameClips, List.map_eq_nil_iff, List.filter_eq_nil_iff, List.mem_finRange, true_implies, Bool.not_eq_true]

/-- The clip set begins with the lowest-numbered track that clips. -/
theorem frameClips_eq_cons {conv : Vector Converted 16} {n : Fin 16} (clips : conv[n].clip = true)
    (lowest : ∀ m : Fin 16, m < n → conv[m].clip = false) : ∃ rest, frameClips conv = (n.val + 1) :: rest := by
  have first : ((List.finRange 16).filter fun i => conv[i].clip).head? = some n := by
    rw [List.head?_filter, List.find?_eq_some_iff_getElem]
    refine ⟨clips, n.val, by simp, by simp, fun j below => ?_⟩
    rw [List.getElem_finRange, lowest _ (Fin.lt_def.mpr below)]
    rfl
  obtain ⟨rest, set⟩ := List.head?_eq_some_iff.mp first
  exact ⟨rest.map fun i => i.val + 1, by rw [frameClips, set, List.map_cons]⟩

theorem offerClip_front (src : ClipSource) (serial : Option Nat) (p : Nat) (s : State) :
    (offerClip src serial p s).front =
      if s.front.clipFlag then s.front
      else { s.front with clipFlag := true, firstClip := some { source := src, serial := serial, pos := p } } := by
  unfold offerClip
  split <;> rfl

theorem offerClip_clipFlag (src : ClipSource) (serial : Option Nat) (p : Nat) (s : State) :
    (offerClip src serial p s).front.clipFlag = true := by
  rw [offerClip_front]
  split
  case isTrue flag => exact flag
  case isFalse => rfl

theorem offerClip_firstClip_of_set {s : State} (flag : s.front.clipFlag = true) (src : ClipSource) (serial : Option Nat)
    (p : Nat) : (offerClip src serial p s).front.firstClip = s.front.firstClip := by
  rw [offerClip_of_set src serial p flag]

/-- A clip offered while the flag is clear fills the record and leaves CLIP pending (R22). -/
theorem offerClip_fills {s : State} (flag : s.front.clipFlag = false) (src : ClipSource) (serial : Option Nat) (p : Nat) :
    (offerClip src serial p s).front.firstClip = some { source := src, serial := serial, pos := p } ∧
      isPending .clip (offerClip src serial p s) = true := by
  rw [offerClip_of_clear src serial p flag]
  exact ⟨rfl, isPending_raise_self _ _⟩

/-- A mix clip is counted, and offered to the flag as it stands. -/
theorem mixClip_eq_offerClip (s : State) :
    ∃ t : State, mixClip s = offerClip .mix ((openTake s).map Take.serial) s.counter.newest t ∧ t.front = s.front :=
  ⟨_, rfl, rfl⟩

/-- The tracks after their conversion, before any clip is offered. -/
def withTracks (conv : Vector Converted 16) (s : State) : State :=
  { s with front := { s.front with tracks := Vector.ofFn fun i => conv[i].track } }

@[simp] theorem withTracks_clipFlag (conv : Vector Converted 16) (s : State) :
    (withTracks conv s).front.clipFlag = s.front.clipFlag := by
  simp only [withTracks]

@[simp] theorem withTracks_firstClip (conv : Vector Converted 16) (s : State) :
    (withTracks conv s).front.firstClip = s.front.firstClip := by
  simp only [withTracks]

theorem convertFrame_of_silent {conv : Vector Converted 16} (silent : frameClips conv = []) (s : State) :
    convertFrame conv s = withTracks conv s := by
  rw [convertFrame, silent]
  rfl

theorem convertFrame_of_cons {conv : Vector Converted 16} {n : Nat} {rest : List Nat} (clips : frameClips conv = n :: rest)
    (s : State) :
    convertFrame conv s =
      offerClip (.track n) ((openTake s).map Take.serial) s.counter.newest (withTracks conv s) := by
  rw [convertFrame, clips]
  rfl

theorem convertFrame_clipFlag (conv : Vector Converted 16) (s : State) :
    (convertFrame conv s).front.clipFlag = (s.front.clipFlag || !(frameClips conv).isEmpty) := by
  cases clips : frameClips conv with
  | nil =>
    rw [convertFrame_of_silent clips, withTracks_clipFlag, List.isEmpty_nil, Bool.not_true, Bool.or_false]
  | cons n rest => rw [convertFrame_of_cons clips, offerClip_clipFlag, List.isEmpty_cons, Bool.not_false, Bool.or_true]

theorem convertFrame_firstClip_of_set {s : State} (flag : s.front.clipFlag = true) (conv : Vector Converted 16) :
    (convertFrame conv s).front.firstClip = s.front.firstClip := by
  cases clips : frameClips conv with
  | nil => rw [convertFrame_of_silent clips, withTracks_firstClip]
  | cons n rest =>
    rw [convertFrame_of_cons clips, offerClip_firstClip_of_set (by rw [withTracks_clipFlag, flag]), withTracks_firstClip]

theorem openTake_of_takes {s t : State} (same : t.takes = s.takes) : openTake t = openTake s := by
  simp only [openTake, openSlot, findSlot, same]

section

variable (f : FrameIn) (s : State)

theorem mixedFrame_rounding : (mixedFrame f s).front.rounding = s.front.rounding := by
  have converted : (convertedFrame f s).front.rounding = s.front.rounding := (convertedFrame_mix f s).2.1
  obtain ⟨t, clipped, front⟩ := mixClip_eq_offerClip (convertedFrame f s)
  rw [(mixedFrame_blocks f s).1]
  cases mixClips f s with
  | true => rw [if_pos rfl, clipped, offerClip_rounding, front, converted]
  | false => rw [if_neg Bool.false_ne_true, converted]

theorem convertedFrame_clipFlag :
    (convertedFrame f s).front.clipFlag = (s.front.clipFlag || !(frameClips (convertAll s f)).isEmpty) := by
  rw [convertedFrame, convertFrame_clipFlag, metFrame_front]

theorem mixedFrame_clipFlag :
    (mixedFrame f s).front.clipFlag =
      (s.front.clipFlag || !(frameClips (convertAll s f)).isEmpty || mixClips f s) := by
  obtain ⟨t, clipped, -⟩ := mixClip_eq_offerClip (convertedFrame f s)
  rw [(mixedFrame_blocks f s).1]
  cases mixClips f s with
  | true => rw [if_pos rfl, clipped, offerClip_clipFlag, Bool.or_true]
  | false => rw [if_neg Bool.false_ne_true, convertedFrame_clipFlag, Bool.or_false]

/-- Once the flag is set the record stands through the mix (R22). -/
theorem mixedFrame_firstClip_of_converted (flag : (convertedFrame f s).front.clipFlag = true) :
    (mixedFrame f s).front.firstClip = (convertedFrame f s).front.firstClip := by
  obtain ⟨t, clipped, front⟩ := mixClip_eq_offerClip (convertedFrame f s)
  rw [(mixedFrame_blocks f s).1]
  cases mixClips f s with
  | true => rw [if_pos rfl, clipped, offerClip_firstClip_of_set (by rw [front, flag]), front]
  | false => rw [if_neg Bool.false_ne_true]

theorem mixedFrame_firstClip_of_set (flag : s.front.clipFlag = true) :
    (mixedFrame f s).front.firstClip = s.front.firstClip := by
  rw [mixedFrame_firstClip_of_converted f s (by rw [convertedFrame_clipFlag, flag, Bool.true_or]), convertedFrame,
    convertFrame_firstClip_of_set (by rw [metFrame_front, flag]), metFrame_front]

/-- The first-clip record holds a clip of this frame from this source, and CLIP is pending (R22). -/
def FilledBy (src : ClipSource) (t : State) : Prop :=
  t.front.firstClip =
      some { source := src, serial := (openTake (metFrame s)).map Take.serial, pos := (s.counter.newest + 1) % s.day } ∧
    isPending .clip t = true

theorem mixedFrame_filledBy_track {n : Fin 16} (flag : s.front.clipFlag = false)
    (clips : (convertAll s f)[n].clip = true) (lowest : ∀ m : Fin 16, m < n → (convertAll s f)[m].clip = false) :
    FilledBy s (.track (n.val + 1)) (mixedFrame f s) := by
  obtain ⟨rest, set⟩ := frameClips_eq_cons clips lowest
  have converted : convertedFrame f s = _ := convertFrame_of_cons set (metFrame s)
  have clear : (withTracks (convertAll s f) (metFrame s)).front.clipFlag = false := by
    rw [withTracks_clipFlag, metFrame_front, flag]
  obtain ⟨record, pending⟩ :=
    offerClip_fills clear (.track (n.val + 1)) ((openTake (metFrame s)).map Take.serial) (metFrame s).counter.newest
  rw [← converted] at record pending
  refine ⟨?_, ?_⟩
  · rw [mixedFrame_firstClip_of_converted f s (by rw [converted, offerClip_clipFlag]), record, metFrame_counter]
  · have grown : NoticesGrow (convertedFrame f s).notices (mixedFrame f s).notices := by
      unfold mixedFrame
      exact noticesGrow_mixFrame (.refl _) _
    exact grown _ pending

theorem convertedFrame_of_silent (silent : ∀ n : Fin 16, (convertAll s f)[n].clip = false) :
    convertedFrame f s = withTracks (convertAll s f) (metFrame s) :=
  convertFrame_of_silent ((frameClips_eq_nil_iff _).mpr silent) _

theorem mixedFrame_filledBy_mix (flag : s.front.clipFlag = false) (silent : ∀ n : Fin 16, (convertAll s f)[n].clip = false)
    (mix : mixClips f s = true) : FilledBy s .mix (mixedFrame f s) := by
  have clear : (convertedFrame f s).front.clipFlag = false := by
    rw [convertedFrame_clipFlag, flag, (frameClips_eq_nil_iff _).mpr silent]
    rfl
  obtain ⟨counter, takes, -⟩ := convertedFrame_frame f s
  have newest : (convertedFrame f s).counter.newest = (s.counter.newest + 1) % s.day := by rw [counter, metFrame_counter]
  obtain ⟨front, notices, -⟩ := mixedFrame_blocks f s
  obtain ⟨t, clipped, frontBefore⟩ := mixClip_eq_offerClip (convertedFrame f s)
  rw [if_pos mix, clipped] at front notices
  rw [FilledBy, isPending, front, notices, ← openTake_of_takes takes, ← newest]
  exact offerClip_fills (by rw [frontBefore, clear]) _ _ _

theorem mixedFrame_firstClip_of_silent (silent : ∀ n : Fin 16, (convertAll s f)[n].clip = false)
    (noMix : mixClips f s = false) : (mixedFrame f s).front.firstClip = s.front.firstClip := by
  rw [(mixedFrame_blocks f s).1, noMix, if_neg Bool.false_ne_true, convertedFrame_of_silent f s silent,
    withTracks_firstClip, metFrame_front]

end

/-! ### A full ring (R44, R45) -/

theorem isProtected_of_takes {s t : State} (takes : t.takes = s.takes) (counter : t.counter = s.counter) :
    isProtected t = isProtected s := by
  funext p
  simp only [isProtected, State.day, takes, counter]

theorem ringAction_of_full {s : State} {o : RingFrame} {rest : List RingFrame} (ring : s.ring.frames = o :: rest)
    (full : 1048576 ≤ rest.length + 1) : ringAction s = if isProtected s o.pos then .overrun else .replaceOldest := by
  have noRoom : ¬s.ring.frames.length < Config.ringCapacity := by
    rw [ring, List.length_cons]
    exact Nat.not_lt.mpr full
  rw [ringAction, if_neg noRoom, ring]

theorem offerFrame_of_unprotected (frame : RingFrame) {s : State} {o : RingFrame} {rest : List RingFrame}
    (ring : s.ring.frames = o :: rest) (full : 1048576 ≤ rest.length + 1) (unprotected : isProtected s o.pos = false) :
    (offerFrame frame s).ring = { s.ring with frames := rest ++ [frame] } := by
  rw [offerFrame, ringAction_of_full ring full, unprotected, if_neg Bool.false_ne_true, ring]
  rfl

theorem offerFrame_of_protected (frame : RingFrame) {s : State} {o : RingFrame} {rest : List RingFrame}
    (ring : s.ring.frames = o :: rest) (full : 1048576 ≤ rest.length + 1) (held : isProtected s o.pos = true) :
    offerFrame frame s = overrun frame.pos s := by
  rw [offerFrame, ringAction_of_full ring full, held, if_pos rfl]

theorem overrun_ring (p : Nat) (s : State) :
    (overrun p s).ring = { s.ring with discards := min 4294967295 (s.ring.discards + 1) } := by
  simp only [overrun, reportDiscard_frame]
  rfl

theorem isPending_overrun (p : Nat) (s : State) : isPending .overrun (overrun p s) = true := by
  rw [isPending, overrun]
  simp only [reportDiscard_frame]
  exact isPending_raise_self .overrun _

/-- A take at the discard of the frame at p: its gap list takes the position in when its range covers it (R45). -/
def reported (D postRoll p : Nat) (u : Take) : Take :=
  if coversArrival D postRoll u p then insertRun D p 1 u else u

theorem reportDiscard_slots (i j : Fin 3) (p : Nat) (s : State) :
    (reportDiscard i p s).takes.slots[j] =
      if i = j then s.takes.slots[j].map (reported s.day s.takes.postRoll p) else s.takes.slots[j] :=
  modifySlot_slots _ _ _ _

theorem reportDiscard_limits (i : Fin 3) (p : Nat) (s : State) :
    (reportDiscard i p s).day = s.day ∧ (reportDiscard i p s).takes.postRoll = s.takes.postRoll := by
  refine ⟨?_, modifySlot_postRoll _ _ _⟩
  simp only [State.day, reportDiscard_frame]

theorem overrun_slots (i : Fin 3) (p : Nat) (s : State) :
    (overrun p s).takes.slots[i] = s.takes.slots[i].map (reported s.day s.takes.postRoll p) := by
  simp only [overrun, reportDiscard_slots, reportDiscard_limits]
  rcases slot_cases i with rfl | rfl | rfl <;> rfl

theorem reported_accounts (D postRoll p : Nat) (u : Take) :
    (reported D postRoll p u).next = u.next ∧ (reported D postRoll p u).g = u.g := by
  unfold reported
  split
  · obtain ⟨gaps, merged, inserted⟩ := insertRun_eq D p 1 u
    rw [inserted]
    exact ⟨rfl, rfl⟩
  · exact ⟨rfl, rfl⟩

theorem coversArrival_iff (D postRoll : Nat) (u : Take) (p : Nat) :
    coversArrival D postRoll u p = true ↔
      u.phase = .rolling ∨ (u.phase = .post ∧ isLater D p (posAdd D (u.e.getD u.sr) postRoll) = false) ∨
        (u.phase = .closing ∧ inRange D postRoll u p = true) := by
  unfold coversArrival
  cases u.phase <;> simp

/-- At an overrun a take whose next frame is held ends the arrival with the discard reported and no other account changed. -/
theorem arriveFrame_slot_of_overrun (f : FrameIn) {s : State} (run : s.inRun = true) (room : cardFull s = false)
    (overruns : offerFrame (ringFrameOf f s) (mixedFrame f s) = overrun ((s.counter.newest + 1) % s.day) (mixedFrame f s))
    {i : Fin 3} {u : Take} (holds : (metFrame s).takes.slots[i] = some u) (held : ∃ g ∈ s.ring.frames, g.pos = u.next) :
    ∃ issued, (arriveFrame f s).takes.slots[i] =
      some { reported s.day s.takes.postRoll ((s.counter.newest + 1) % s.day) u with indexIssued := issued } := by
  obtain ⟨-, -, counter, ring, takes, -⟩ := mixedFrame_frame f s
  have day : (mixedFrame f s).day = s.day := by rw [State.day, counter, ← State.day, metFrame_day]
  refine arriveFrame_slot_of_held f run room ?_ ?_
  · rw [overruns, overrun_slots, day, takes, metFrame_postRoll, holds, Option.map_some]
  · rw [overruns, overrun_ring, ring, (reported_accounts _ _ _ _).1]
    exact held

/-! ### The whole arrival -/

/-- What an arrival in RUN leaves in the blocks that the writer and the announcement do not own. -/
theorem arriveFrame_blocks (f : FrameIn) {s : State} (run : s.inRun = true) :
    (arriveFrame f s).ring = (offerFrame (ringFrameOf f s) (mixedFrame f s)).ring ∧
      (arriveFrame f s).mixer = (mixedFrame f s).mixer ∧ (arriveFrame f s).front = (mixedFrame f s).front := by
  rw [arriveFrame_of_run f s run]
  simp only [finish_frame, promote_frame, offerFrame_frame, and_self]

/-- What an arrival in RUN leaves of link, note store and writer. -/
theorem arriveFrame_rest (f : FrameIn) {s : State} (run : s.inRun = true) :
    (arriveFrame f s).link.peers = s.link.peers ∧ (arriveFrame f s).link.run = s.link.run ∧
      (arriveFrame f s).link.counts = s.link.counts ∧ (arriveFrame f s).store.seq = s.store.seq ∧
      (arriveFrame f s).writer.range = s.writer.range ∧ (arriveFrame f s).writer.cursor = s.writer.cursor ∧
      (arriveFrame f s).writer.capture = s.writer.capture := by
  have mixed := mixedFrame_frame f s
  obtain ⟨peers, linkRun, counts⟩ := finish_link s (promote .afterFrame (offerFrame (ringFrameOf f s) (mixedFrame f s)))
  obtain ⟨range, cursor, capture⟩ := finish_writer s (promote .afterFrame (offerFrame (ringFrameOf f s) (mixedFrame f s)))
  rw [arriveFrame_of_run f s run, peers, linkRun, counts, finish_seq, range, cursor, capture]
  simp only [promote_frame, offerFrame_frame, mixed, and_self]

theorem isPending_clockBack_of_lost {s : State} (lost : s.counter.clock = .lost) :
    isPending .clockBack (metFrame s) = true := by
  have raised : isPending .clockBack (stampFrame s) = true := by
    rw [stampFrame, lost]
    exact isPending_raise_self .clockBack _
  have grown : NoticesGrow (stampFrame s).notices (metFrame s).notices :=
    noticesGrow_fireCue (noticesGrow_promoteAtStamp (noticesGrow_takeArrival (.refl _)))
  exact grown _ raised

/-- Settles O29: the arrival is its stages in turn, each clause is that of its stage, and the end of the event leaves the
blocks of the sample path. -/
theorem runFrameIsStampedMixedAndHeld : Obligations.RunFrameIsStampedMixedAndHeld := by
  unfold Obligations.RunFrameIsStampedMixedAndHeld
  intro f s phase p met conv mix frame mixed
  have run := inRun_of_run phase
  obtain ⟨ring, mixer, front⟩ := arriveFrame_blocks f run
  obtain ⟨-, -, counter, ringBefore, takes, -⟩ := mixedFrame_frame f s
  have protects : isProtected (mixedFrame f s) = isProtected met := isProtected_of_takes takes counter
  obtain ⟨peers, linkRun, counts, seq, range, cursor, capture⟩ := arriveFrame_rest f run
  obtain ⟨time, port, -⟩ := arriveFrame_frame f s
  have filled (src : ClipSource) (h : FilledBy s src (mixedFrame f s)) : FilledBy s src (arriveFrame f s) :=
    ⟨by rw [front]; exact h.1, isPending_of_mixedFrame f run h.2⟩
  refine ⟨?sum, ?enabled, ?undisturbed, arriveFrame f s, rfl, (arriveFrame_counter f run).trans (metFrame_counter s), ?room,
    ?full, ?output, ?clips, ?tracks, ?rounding, ?flag, ?recordKept, ?record, ?clockBack, port, time, peers, linkRun, counts,
    seq, range, cursor, capture⟩
  case sum =>
    intro term value silent
    exact mixSum_eq_sum s conv (fun n on => value n ((mixEnabled_iff s n).mp on))
      fun n off => silent n (mt (mixEnabled_iff s n).mpr off)
  case enabled => exact (mixIsEnabled_iff s).trans (exists_congr (mixEnabled_iff s))
  case undisturbed =>
    intro noStart noCue i u holds calm
    exact metFrame_slot_of_undisturbed noStart noCue holds calm
  case room =>
    intro room
    rw [ring, offerFrame_of_room _ (by rw [ringBefore]; exact room), ringBefore]
    rfl
  case full =>
    intro o rest oldest full
    have frames : (mixedFrame f s).ring.frames = o :: rest := by rw [ringBefore, oldest]
    refine ⟨fun unprotected => ?_, fun held => ?_⟩
    · rw [ring, offerFrame_of_unprotected _ frames full (by rw [protects]; exact unprotected), ringBefore]
      rfl
    · have overruns : offerFrame (ringFrameOf f s) (mixedFrame f s) = overrun p (mixedFrame f s) :=
        offerFrame_of_protected _ frames full (by rw [protects]; exact held)
      refine ⟨?_, ?_, fun card i u holds heldNext => ?_⟩
      · rw [ring, overruns, overrun_ring, ringBefore]
      · refine noticesGrow_arriveFrame f run .overrun ?_
        rw [overruns]
        exact isPending_overrun _ _
      · obtain ⟨issued, slot⟩ := arriveFrame_slot_of_overrun f run card overruns holds heldNext
        obtain ⟨next, g⟩ := reported_accounts s.day s.takes.postRoll p u
        refine ⟨_, slot, ?_⟩
        simp only [← coversArrival_iff]
        exact ⟨rfl, rfl, next, g⟩
  case output =>
    obtain ⟨-, -, -, output⟩ := mixedFrame_blocks f s
    refine ⟨_, by rw [mixer, output], ?_, by simp [portBits], fun k => portBits_getElem? _⟩
    cases mixIsEnabled s with
    | true => exact toInt_ofInt_stage3 _ _
    | false => rfl
  case clips => rw [mixer, mixedFrame_clips]
  case tracks => exact arriveFrame_tracks f run
  case rounding => rw [front, mixedFrame_rounding]
  case flag => rw [front, mixedFrame_clipFlag, mixClips]
  case recordKept =>
    intro flag
    rw [front, mixedFrame_firstClip_of_set f s flag]
  case record =>
    intro clear
    refine ⟨fun n clips lowest => ?_, fun silent on clips => ?_, fun silent quiet => ?_⟩
    · exact filled _ (mixedFrame_filledBy_track f s clear clips lowest)
    · exact filled _ (mixedFrame_filledBy_mix f s clear silent (by rw [mixClips, on, Bool.true_and]; exact clips))
    · rw [front, mixedFrame_firstClip_of_silent f s silent]
      rwa [mixClips, Bool.and_eq_false_iff]
  case clockBack =>
    intro lost
    exact isPending_of_metFrame f run (isPending_clockBack_of_lost lost)

end Sys2Proof.Proofs
end

section
/-! PROOFS. The pre-roll ring under a start and under a full ring: the places of positions counted forward from a start and the
head that the lookup gives, which frames the slots protect, and the gap list that takes a discarded position in (R43 to R45, R48,
R49, R67, R75). -/

namespace Sys2Proof.Proofs

open Sys2Proof Sys2Proof.Machine

/-! ### Places counted forward, and the signed difference (R1) -/

section Places

variable {D : Nat} (pos : 0 < D)
include pos

/-- The place of b counted forward from a is the residue of b - a. -/
theorem posSub_eq_emod (a b : Nat) : (posSub D b a : Int) = ((b : Int) - a) % D := by
  have below : a % D ≤ D := (Nat.mod_lt a pos).le
  have division : ((D * (a / D) + a % D : Nat) : Int) = a := congrArg Nat.cast (Nat.div_add_mod a D)
  have shifted : (b : Int) + (D - (a % D : Nat)) = (b - a) + D * (1 + (a / D : Nat)) := by
    push_cast at division ⊢
    linarith
  rw [posSub, Int.natCast_mod, Nat.cast_add, Nat.cast_sub below, shifted, Int.add_mul_emod_self_left]

/-- The place of q counted forward from p leads from p to q. -/
theorem add_posSub_mod (p q : Nat) : (p + posSub D q p) % D = q % D := by
  zify
  rw [posSub_eq_emod pos, Int.add_emod_emod, add_sub_cancel]

theorem signedDiff_of_place {a b : Nat} (half : 2 * posSub D b a ≤ D) : signedDiff D a b = posSub D b a := by
  rw [signedDiff_eq, ← posSub_eq_emod pos, if_pos (by omega)]

theorem countAfter_of_place {a b : Nat} (half : 2 * posSub D b a ≤ D) : countAfter D a b = posSub D b a := by
  rw [countAfter, signedDiff_of_place pos half, Int.toNat_natCast]

theorem countTo_of_place {a b : Nat} (half : 2 * posSub D b a ≤ D) : countTo D a b = posSub D b a + 1 := by
  rw [countTo, signedDiff_of_place pos half]
  rfl

/-- A position up to half a day ahead is reached by the count of the positions before it. -/
theorem countAfter_reaches {p q : Nat} (half : 2 * posSub D q p ≤ D) :
    (p + countAfter D p q) % D = q % D ∧ 2 * countAfter D p q ≤ D := by
  rw [countAfter_of_place pos half]
  exact ⟨add_posSub_mod pos p q, half⟩

/-- From a position that is not later than n, the place of n lies within half a day. -/
theorem place_of_not_later {p n : Nat} (notLater : isLater D p n = false) : 2 * posSub D n p < D := by
  have back : signedDiff D n p ≤ 0 := not_lt.mp (of_decide_eq_false notLater)
  obtain ⟨low, -⟩ := signedDiff_range n p pos
  have forward : ((n : Int) - p) % D = -signedDiff D n p := by
    have congruent : (D : Int) ∣ (n : Int) - p - -signedDiff D n p := by
      have h := (dvd_sub_signedDiff D n p).neg_right
      rwa [show -((p : Int) - n - signedDiff D n p) = (n : Int) - p - -signedDiff D n p by ring] at h
    rw [Int.emod_eq_emod_iff_emod_sub_eq_zero.mpr (Int.emod_eq_zero_of_dvd congruent), Int.emod_eq_of_lt] <;> omega
  have place := posSub_eq_emod pos p n
  omega

/-- The position after n stands one place after n, short of a whole day. -/
theorem posSub_succ {p n : Nat} (short : posSub D n p + 1 < D) : posSub D ((n + 1) % D) p = posSub D n p + 1 := by
  have place := posSub_eq_emod pos p n
  zify
  rw [posSub_eq_emod pos, Int.natCast_mod, Int.emod_sub_emod, Nat.cast_succ, add_sub_right_comm, ← Int.emod_add_emod,
    ← place, Int.emod_eq_of_lt] <;> omega

end Places

/-- A day has an even number of positions (R28). -/
theorem day_even (s : State) : s.day % 2 = 0 := by
  rw [State.day, dayLength]
  omega

/-! ### The head of a start by the lookup (R48, R49, R67) -/

section Head

variable {s : State} {p : Nat} (arrived : isLater s.day p s.counter.newest = false)
include arrived

theorem headOf_of_held (v : RingView) {f : RingFrame}
    (found : s.ring.frames.find? (fun g => fromUpToNewest s p g.pos) = some f) :
    headOf v s p = (countAfter s.day p f.pos, f.pos) := by
  simp only [headOf, lookup, arrived, found, Bool.false_eq_true, if_false]

theorem headOf_of_none (v : RingView) (missing : s.ring.frames.find? (fun g => fromUpToNewest s p g.pos) = none) :
    headOf v s p = (countAfter s.day p (firstUnseen v s), firstUnseen v s) := by
  simp only [headOf, lookup, arrived, missing, Bool.false_eq_true, if_false]

/-- The first position the ring could still supply stands at most half a day after the start: at the newest position's place, or
one after it. -/
theorem place_firstUnseen (v : RingView) :
    posSub s.day (firstUnseen v s) p = posSub s.day s.counter.newest p + (if v = .afterFrame then 1 else 0) ∧
      2 * posSub s.day (firstUnseen v s) p ≤ s.day := by
  have pos : 0 < s.day := Nat.lt_of_succ_lt (one_lt_day s)
  have near := place_of_not_later pos arrived
  have even := day_even s
  cases v with
  | beforeFrame => exact ⟨rfl, near.le⟩
  | afterFrame =>
    have next : posSub s.day (firstUnseen .afterFrame s) p = posSub s.day s.counter.newest p + 1 :=
      posSub_succ pos (by omega)
    exact ⟨next, by omega⟩

end Head

/-- Settles O21: the lookup finds the first frame in reach, the count of positions before it leads from the start to it, and the
first position not yet seen stands within half a day of the start. -/
theorem headShortfallFollowsTheLookup : Obligations.HeadShortfallFollowsTheLookup := by
  unfold Obligations.HeadShortfallFollowsTheLookup
  intro v s p arrived offset inReach
  have pos : 0 < s.day := Nat.lt_of_succ_lt (one_lt_day s)
  have near := place_of_not_later pos arrived
  refine ⟨fun older newer f frames before reaches => ?held, fun outside => ?none⟩
  case held =>
    have found : s.ring.frames.find? (fun g => fromUpToNewest s p g.pos) = some f := by
      rw [frames]
      refine List.find?_eq_some_iff_append.mpr ⟨decide_eq_true reaches, older, newer, rfl, fun g early => ?_⟩
      exact (Bool.not_eq_true' _).mpr (decide_eq_false (before g early))
    have within : posSub s.day f.pos p ≤ posSub s.day s.counter.newest p := reaches
    rw [headOf_of_held arrived v found]
    exact ⟨rfl, countAfter_reaches pos (by omega)⟩
  case none =>
    have missing : s.ring.frames.find? (fun g => fromUpToNewest s p g.pos) = none :=
      List.find?_eq_none.mpr fun g held found => outside g held (of_decide_eq_true found)
    obtain ⟨place, half⟩ := place_firstUnseen arrived v
    obtain ⟨reached, short⟩ := countAfter_reaches pos half
    have unseen : firstUnseen v s = if v = .afterFrame then (s.counter.newest + 1) % s.day else s.counter.newest := by
      cases v <;> rfl
    rw [headOf_of_none arrived v missing]
    refine ⟨unseen, unseen ▸ reached, short, fun after => ?_⟩
    rw [countAfter_of_place pos half, countTo_of_place pos near.le, place, if_pos after]

/-! ### The frames that a slot still needs (R43) -/

theorem inRange_iff (D postRoll : Nat) (u : Take) (p : Nat) :
    inRange D postRoll u p = true ↔
      isEarlier D p u.sr = false ∧
        (u.phase = .rolling ∨
          (u.phase = .post ∧ placeIn D u p ≤ placeIn D u (posAdd D (u.e.getD u.sr) postRoll)) ∨
          (u.phase = .closing ∧ placeIn D u p ≤ placeIn D u (u.z.getD u.sr))) := by
  unfold inRange
  cases u.phase <;> simp

theorem slotNeeds_iff (D postRoll : Nat) (slot : Option Take) (p : Nat) :
    slotNeeds D postRoll slot p = true ↔
      ∃ u, slot = some u ∧ inRange D postRoll u p = true ∧ placeIn D u u.next ≤ placeIn D u p := by
  cases slot <;> simp [slotNeeds]

theorem isProtected_iff (s : State) (p : Nat) :
    isProtected s p = true ↔ ∃ i : Fin 3, slotNeeds s.day s.takes.postRoll s.takes.slots[i] p = true := by
  simp only [isProtected, Bool.or_eq_true, or_assoc, Fin.exists_fin_succ, IsEmpty.exists_iff, or_false]
  rfl

/-! ### A run in the gap list (R75) -/

/-- No entry of the list adjoins the run of n positions from a. -/
def Apart (D a n : Nat) (l : List GapEntry) : Prop := ∀ x ∈ l, ¬(x.first + x.count) % D = a ∧ ¬(a + n) % D = x.first

section Gaps

variable {D a n : Nat}

theorem coalesce_of_not_follows {x : GapEntry} (noFollow : ¬(x.first + x.count) % D = a) (rest : List GapEntry) :
    coalesce D a n (x :: rest) =
      if (a + n) % D = x.first then some ({ first := a, count := n + x.count } :: rest)
      else (coalesce D a n rest).map (x :: ·) := by
  cases rest <;> exact if_neg noFollow

/-- The entries that do not adjoin the run are passed over. -/
theorem coalesce_append {pre : List GapEntry} (apart : Apart D a n pre) (l : List GapEntry) :
    coalesce D a n (pre ++ l) = (coalesce D a n l).map (pre ++ ·) := by
  induction pre with
  | nil => simp
  | cons x pre ih =>
    obtain ⟨⟨noFollow, noPrecede⟩, apart⟩ := List.forall_mem_cons.mp apart
    rw [List.cons_append, coalesce_of_not_follows noFollow, if_neg noPrecede, ih apart, Option.map_map]
    rfl

theorem coalesce_eq_none {l : List GapEntry} (apart : Apart D a n l) : coalesce D a n l = none := by
  have passed := coalesce_append apart []
  rwa [List.append_nil] at passed

theorem coalesce_between {x y : GapEntry} (post : List GapEntry) (follows : (x.first + x.count) % D = a)
    (precedes : (a + n) % D = y.first) :
    coalesce D a n (x :: y :: post) = some ({ first := x.first, count := x.count + n + y.count } :: post) :=
  (if_pos follows).trans (if_pos precedes)

theorem coalesce_after {x : GapEntry} {post : List GapEntry} (follows : (x.first + x.count) % D = a)
    (free : ∀ y, post.head? = some y → ¬(a + n) % D = y.first) :
    coalesce D a n (x :: post) = some ({ first := x.first, count := x.count + n } :: post) := by
  cases post with
  | nil => exact if_pos follows
  | cons y post => exact (if_pos follows).trans (if_neg (free y rfl))

theorem coalesce_before {x : GapEntry} (post : List GapEntry) (noFollow : ¬(x.first + x.count) % D = a)
    (precedes : (a + n) % D = x.first) :
    coalesce D a n (x :: post) = some ({ first := a, count := n + x.count } :: post) := by
  rw [coalesce_of_not_follows noFollow, if_pos precedes]

theorem insertEntry_append {pre post : List GapEntry} (before : ∀ x ∈ pre, isLater D x.first a = false)
    (after : ∀ x, post.head? = some x → isLater D x.first a = true) :
    insertEntry D a n (pre ++ post) = pre ++ { first := a, count := n } :: post := by
  induction pre with
  | nil =>
    cases post with
    | nil => rfl
    | cons x post => exact if_pos (after x rfl)
  | cons x pre ih =>
    obtain ⟨notLater, before⟩ := List.forall_mem_cons.mp before
    rw [List.cons_append, insertEntry, notLater, if_neg Bool.false_ne_true, ih before, List.cons_append]

theorem foldLast_append (pre : List GapEntry) (x : GapEntry) :
    foldLast n (pre ++ [x]) = pre ++ [{ first := x.first, count := x.count + n }] := by
  induction pre with
  | nil => rfl
  | cons y pre ih =>
    have passed : foldLast n (y :: (pre ++ [x])) = y :: foldLast n (pre ++ [x]) := by
      cases pre <;> rfl
    rw [List.cons_append, passed, ih, List.cons_append]

variable {u : Take}

/-- A run joined behind the entries that it does not adjoin keeps them before it, and the merged entry last. -/
theorem insertRun_of_joined (positive : 0 < n) {pre rest joined : List GapEntry}
    (plain : joinable u.gaps u.gapsMerged = pre ++ rest) (apart : Apart D a n pre)
    (joins : coalesce D a n rest = some joined) :
    insertRun D a n u = { u with gaps := pre ++ joined ++ mergedTail u.gaps u.gapsMerged } := by
  rw [insertRun, if_neg positive.ne', plain, coalesce_append apart, joins]
  rfl

theorem insertRun_of_room (positive : 0 < n) (apart : Apart D a n (joinable u.gaps u.gapsMerged))
    (unmerged : u.gapsMerged = false) (room : u.gaps.length < 16) :
    insertRun D a n u = { u with gaps := insertEntry D a n u.gaps } := by
  have fits : (u.gaps.length < Config.maxGapEntries && !u.gapsMerged) = true := by
    rw [unmerged, Bool.not_false, Bool.and_true]
    exact decide_eq_true room
  simp only [insertRun, if_neg positive.ne', coalesce_eq_none apart, if_pos fits]

theorem insertRun_of_full (positive : 0 < n) (apart : Apart D a n (joinable u.gaps u.gapsMerged))
    (full : u.gapsMerged = true ∨ 16 ≤ u.gaps.length) :
    insertRun D a n u = { u with gaps := foldLast n u.gaps, gapsMerged := true } := by
  have noRoom : ¬(u.gaps.length < Config.maxGapEntries && !u.gapsMerged) = true := by
    rw [Bool.and_eq_true, Bool.not_eq_true', decide_eq_true_iff]
    rintro ⟨room, unmerged⟩
    rcases full with merged | long
    · exact Bool.false_ne_true (unmerged.symm.trans merged)
    · exact absurd room (Nat.not_lt.mpr long)
  simp only [insertRun, if_neg positive.ne', coalesce_eq_none apart, if_neg noRoom]

end Gaps

/-! ### A frame offered to the ring (R44, R45) -/

theorem offerFrame_replaces_oldest (frame : RingFrame) {s : State} {o : RingFrame} {rest : List RingFrame}
    (ring : s.ring.frames = o :: rest) (full : 1048576 ≤ rest.length + 1) (unprotected : isProtected s o.pos = false) :
    offerFrame frame s = { s with ring := { s.ring with frames := rest ++ [frame] } } := by
  rw [offerFrame, ringAction_of_full ring full, unprotected, if_neg Bool.false_ne_true, ring]
  rfl

theorem overrun_notices (p : Nat) (s : State) :
    (overrun p s).notices = noticeUnit (s.notices.pending ||| BitVec.twoPow 20 11) s.notices.mask := by
  simp only [overrun, reportDiscard_frame]
  rfl

/-- Whatever the ring does with an arriving frame, it keeps the frames that a slot needs. -/
theorem offerFrame_keeps_protected (frame : RingFrame) {s : State} {g : RingFrame} (held : g ∈ s.ring.frames)
    (needed : isProtected s g.pos = true) : g ∈ (offerFrame frame s).ring.frames := by
  by_cases room : s.ring.frames.length < 1048576
  · rw [offerFrame_of_room frame room]
    exact List.mem_append_left _ held
  · obtain ⟨o, rest, ring⟩ := List.exists_cons_of_ne_nil (List.ne_nil_of_mem held)
    have full : 1048576 ≤ rest.length + 1 := by rw [ring, List.length_cons] at room; omega
    cases oldest : isProtected s o.pos with
    | true =>
      rw [offerFrame_of_protected frame ring full oldest, overrun_ring]
      exact held
    | false =>
      rw [offerFrame_replaces_oldest frame ring full oldest]
      rw [ring] at held
      rcases List.mem_cons.mp held with rfl | later
      · exact absurd (needed.symm.trans oldest) Bool.false_ne_true.symm
      · exact List.mem_append_left _ later

/-- Settles O31: the slot that needs a frame by its range, the run's place in the gap list by the first entry that it adjoins,
and the arrival by the ring's room and its oldest frame. -/
theorem fullRingDropsOrOverruns : Obligations.FullRingDropsOrOverruns := by
  unfold Obligations.FullRingDropsOrOverruns
  refine ⟨fun s p => ?needs, ?gaps,
    fun f s => ⟨fun g => offerFrame_keeps_protected f, offerFrame_of_room f, fun o rest ring full => ⟨?drops, ?overruns⟩⟩⟩
  case needs =>
    simp only [isProtected_iff, slotNeeds_iff, inRange_iff]
    refine exists_congr fun i => exists_congr fun u => and_congr_right fun _ => ?_
    rw [and_right_comm, and_assoc]
    rfl
  case gaps =>
    intro D a n t plain merged follows precedes apart becomes
    refine ⟨fun nothing => if_pos nothing, fun positive => ?_⟩
    have joined {pre rest l : List GapEntry} (split : plain = pre ++ rest) (passed : apart pre)
        (joins : coalesce D a n rest = some l) : becomes (pre ++ l ++ merged) :=
      insertRun_of_joined positive split passed joins
    refine ⟨fun pre x y post split passed after before => joined split passed (coalesce_between post after before),
      fun pre x post split passed after free => joined split passed (coalesce_after after free),
      fun pre x post split passed notAfter before => joined split passed (coalesce_before post notAfter before),
      fun alone => ⟨fun unmerged room pre post split earlier later => ?_, fun full pre x split => ?_⟩⟩
    · exact (insertRun_of_room positive alone unmerged room).trans (by rw [split, insertEntry_append earlier later])
    · rw [insertRun_of_full positive alone full, split, foldLast_append]
  case drops => exact offerFrame_replaces_oldest f ring full
  case overruns =>
    intro held
    rw [offerFrame_of_protected f ring full held]
    refine ⟨overrun_ring f.pos s, overrun_notices f.pos s, fun i => ?_⟩
    rw [overrun_slots]
    simp only [← coversArrival_iff]
    rfl

end Sys2Proof.Proofs
end

section
/-! PROOFS. What each command does to takes, ring and mix: the commands sorted into a few effects, so that an invariant of these
blocks is proved effect by effect (R61, R176 to R178, R183). -/

namespace Sys2Proof.Proofs

open Sys2Proof Sys2Proof.Machine Sys2Proof.Safety

/-! ### States that agree on slots, ring and mix -/

/-- What the invariants of takes, ring and mix read of a state. -/
structure Core where
  phase : PortPhase
  rate : SampleRate
  slots : Vector (Option Take) 3
  pendingStart : Option PendingStart
  closed : List Identity
  frames : List RingFrame
  mixer : Mixer
  inFlight : Option Write

def coreOf (s : State) : Core :=
  { phase := s.port.phase, rate := s.counter.sampleRate, slots := s.takes.slots, pendingStart := s.takes.pendingStart
    closed := s.takes.closed, frames := s.ring.frames, mixer := s.mixer, inFlight := s.writer.inFlight }

/-- The states agree on all that the invariants of takes, ring and mix read. -/
def Alike (s t : State) : Prop := coreOf t = coreOf s

section

variable {s t : State} (h : Alike s t)

include h

theorem Alike.phase : t.port.phase = s.port.phase := congrArg Core.phase h
theorem Alike.rate : t.counter.sampleRate = s.counter.sampleRate := congrArg Core.rate h
theorem Alike.slots : t.takes.slots = s.takes.slots := congrArg Core.slots h
theorem Alike.pendingStart : t.takes.pendingStart = s.takes.pendingStart := congrArg Core.pendingStart h
theorem Alike.closed : t.takes.closed = s.takes.closed := congrArg Core.closed h
theorem Alike.frames : t.ring.frames = s.ring.frames := congrArg Core.frames h
theorem Alike.mixer : t.mixer = s.mixer := congrArg Core.mixer h
theorem Alike.inFlight : t.writer.inFlight = s.writer.inFlight := congrArg Core.inFlight h

end

theorem Alike.refl (s : State) : Alike s s := rfl

theorem Alike.trans {s t u : State} (first : Alike s t) (second : Alike t u) : Alike s u := Eq.trans second first

theorem Alike.day {s t : State} (h : Alike s t) : t.day = s.day := by rw [State.day, h.rate, State.day]

/-- States with the same port, counter, takes, ring, mixer and writer agree. -/
theorem alike_of_blocks {s t : State} (port : t.port = s.port) (counter : t.counter = s.counter) (takes : t.takes = s.takes)
    (ring : t.ring = s.ring) (mixer : t.mixer = s.mixer) (writer : t.writer = s.writer) : Alike s t := by
  unfold Alike coreOf
  rw [port, counter, takes, ring, mixer, writer]

theorem alike_respond (c : ResponseCode) (data : List Byte) (s : State) : Alike s (respond c data s) :=
  rfl

theorem alike_responseRead (s : State) :
    Alike s { s with port := { s.port with output := responseBytes s.port.response } } :=
  rfl

theorem alike_clockLost (s : State) :
    Alike s
      (if s.counter.clock = .running then
        raise .clockLost
          { advanceTime (s.counter.lossTimer.getD s.time + Config.lossTime) s with
            counter := { s.counter with clock := .lost, lossTimer := none } }
      else s) := by
  split <;> rfl

theorem alike_referencePulse (s : State) : Alike s (referencePulse s) := by
  unfold referencePulse
  dsimp only
  split_ifs <;> rfl

theorem alike_announceChange (before s : State) : Alike s (announceChange before s) := by
  apply alike_of_blocks <;> simp only [announceChange_frame]

/-! ### Commands of the host that touch neither slots nor ring nor mix -/

theorem alike_configureTrack (a : TrackArgs) (s : State) : Alike s (configureTrack a s) := by
  unfold configureTrack
  split
  · split <;> rfl
  · exact alike_respond _ _ s

theorem alike_configureCapture (a : CaptureArgs) (s : State) : Alike s (configureCapture a s) := by
  unfold configureCapture
  split
  · split <;> rfl
  · exact alike_respond _ _ s

theorem alike_configureMedia (a : Nat × Nat) (s : State) : Alike s (configureMedia a s) := by
  unfold configureMedia
  split <;> rfl

theorem alike_setRunNumber (n : Nat) (s : State) : Alike s (setRunNumber n s) := by
  unfold setRunNumber
  split <;> rfl

theorem alike_setTrim (a : Nat × Nat) (s : State) : Alike s (setTrim a s) := by
  unfold setTrim
  split <;> rfl

theorem alike_setScene (name : Text) (s : State) : Alike s (setScene name s) := by
  exact Alike.trans rfl (alike_announceChange _ _)

theorem alike_setNextTake (n : Nat) (s : State) : Alike s (setNextTake n s) := by
  exact Alike.trans rfl (alike_announceChange _ _)

theorem alike_setCue (a : Nat × Nat) (s : State) : Alike s (setCue a s) := by
  unfold setCue
  split
  · split_ifs <;> rfl
  · exact alike_respond _ _ s

theorem alike_cancelCue (u : Unit) (s : State) : Alike s (cancelCue u s) := by
  unfold cancelCue
  split <;> rfl

theorem alike_clearClip (u : Unit) (s : State) : Alike s (clearClip u s) := by
  unfold clearClip
  split <;> rfl

theorem alike_answerRead (data : Option (List Byte)) (s : State) : Alike s (answerRead data s) := by
  unfold answerRead
  split <;> exact alike_respond _ _ s

theorem alike_setNoticeMask (v : Nat) (s : State) : Alike s (setNoticeMask v s) := by
  unfold setNoticeMask
  split <;> rfl

theorem alike_ackNotices (v : Nat) (s : State) : Alike s (ackNotices v s) := by
  unfold ackNotices
  split <;> rfl

/-! ### The effects of the commands -/

/-- What a command does to takes, ring and mix. -/
inductive Effect (s : State) : State → Prop
  | stands : Effect s s
  | restarted (strap : Fin 8) : Effect s (restart strap s)
  | arrived (f : FrameIn) : Effect s (arriveFrame f s)
  | promoted (run : s.inRun = true) : Effect s (finish s (promote .afterFrame s))
  | started (run : s.inRun = true) (src : Source) : Effect s (endRequest s (localStart .afterFrame src s))
  | stopped (run : s.inRun = true) : Effect s (endRequest s (localStop s))
  | completed {w : Write} (flight : s.writer.inFlight = some w) : Effect s (finish s (completeOk w s))
  | failed {w : Write} (flight : s.writer.inFlight = some w) : Effect s (finish s (completeFailed w s))
  | decided : Effect s (makeDecision s)
  | heard {u : State} (alike : Alike s u) (rests : mayRest u = true) : Effect s (finish u (endReception (becomeIdle u)))
  | absent (p : Fin 8) : Effect s (peerAbsent p s)
  | clockConfigured (setup : s.port.phase = .setup) (a : ClockArgs) : Effect s (configureClock a s)
  | gateSet (a : Nat × GateSettings) : Effect s (setGate a s)
  | jammed (a : Nat × Nat × Nat × Nat) : Effect s (jamTimecode a s)
  | committed (setup : s.port.phase = .setup) : Effect s (enterRun s)
  | noted (run : s.inRun = true) (n : Note) : Effect s (finish s (storeLocal n s))
  | retried (run : s.inRun = true) : Effect s (issueWrite (.fault s.writer.skipped s.writer.unlisted) .first true s)
  | abandoned (run : s.inRun = true) : Effect s (finish s (restartAll s))

/-- The state t comes of s by an effect, up to what the invariants do not read. -/
def Comes (s t : State) : Prop := ∃ u, Effect s u ∧ Alike u t

theorem comes_of_effect {s t : State} (effect : Effect s t) : Comes s t := ⟨t, effect, .refl t⟩

theorem comes_of_alike {s t : State} (alike : Alike s t) : Comes s t := ⟨s, .stands, alike⟩

theorem comes_of_ite {s t : State} {c : Prop} [Decidable c] (effect : c → Effect s t) :
    Comes s (if c then t else s) := by
  split
  case isTrue h => exact comes_of_effect (effect h)
  case isFalse => exact comes_of_effect .stands

/-- A command message is refused, or its action is taken in its phase (R177). -/
theorem comes_of_hostCommand {α : Type} {p : TakenIn} {operands : Option α} {act : α → State → State} {s : State}
    (taken : ∀ a, takenNow p s.port.phase = true → Comes s (act a s)) : Comes s (hostCommand p operands act s) := by
  unfold hostCommand
  split
  case isTrue phase =>
    split
    case h_1 a => exact taken a phase
    case h_2 => exact comes_of_alike (alike_respond _ _ s)
  case isFalse => exact comes_of_alike (alike_respond _ _ s)

theorem setup_of_takenNow {s : State} (taken : takenNow .setupOnly s.port.phase = true) : s.port.phase = .setup := by
  cases phase : s.port.phase with
  | setup => rfl
  | run => rw [phase] at taken; cases taken

theorem inRun_of_takenNow {s : State} (taken : takenNow .runOnly s.port.phase = true) : s.inRun = true := by
  cases phase : s.port.phase with
  | setup => rw [phase] at taken; cases taken
  | run => exact inRun_of_run phase

theorem comes_respond {s t : State} (effect : Effect s t) (c : ResponseCode) (data : List Byte) :
    Comes s (respond c data t) :=
  ⟨t, effect, alike_respond c data t⟩

theorem comes_lineIdle {s u : State} (alike : Alike s u) : Comes s (lineIdle u) := by
  unfold lineIdle
  split
  case isTrue rests => exact comes_of_effect (.heard alike rests)
  case isFalse => exact comes_of_alike alike

theorem comes_receiveFrame (kind : Byte) (f : HeardFrame) (s : State) : Comes s (receiveFrame kind f s) := by
  unfold receiveFrame
  split
  · refine comes_lineIdle ?_
    apply alike_of_blocks <;> simp only [hearFrame_frame]
  · exact comes_of_effect .stands

theorem comes_recordKey (s : State) : Comes s (recordKey s) := by
  unfold recordKey
  split
  case isTrue run =>
    split
    · exact comes_of_effect (.started run .key)
    · exact comes_of_effect (.started run .key)
    · exact comes_of_effect (.stopped run)
    · exact comes_of_effect (.stopped run)
  case isFalse => exact comes_of_effect .stands

theorem comes_commit {s : State} (setup : s.port.phase = .setup) (u : Unit) : Comes s (commit u s) := by
  unfold commit
  split
  · exact comes_respond (.committed setup) _ _
  · exact comes_of_alike (alike_respond _ _ s)

theorem comes_addNote {s : State} (run : s.inRun = true) (a : NoteArgs) : Comes s (addNote a s) := by
  unfold addNote
  split
  case h_1 n _ => exact comes_respond (.noted run n) _ _
  case h_2 => exact comes_of_alike (alike_respond _ _ s)

theorem comes_mediaRetry {s : State} (run : s.inRun = true) (u : Unit) : Comes s (mediaRetry u s) := by
  unfold mediaRetry
  split_ifs
  · exact comes_of_alike (alike_respond _ _ s)
  · exact comes_of_alike (alike_respond _ _ s)
  · exact comes_respond (.retried run) _ _
  · exact comes_of_alike (alike_respond _ _ s)

theorem comes_successfulCompletion (s : State) : Comes s (successfulCompletion s) := by
  unfold successfulCompletion
  split
  · exact comes_of_effect .stands
  case h_2 flight => exact comes_of_effect (.completed flight)

theorem comes_failedCompletion (s : State) : Comes s (failedCompletion s) := by
  unfold failedCompletion
  split
  · exact comes_of_effect .stands
  case h_2 flight => exact comes_of_effect (.failed flight)

theorem alike_lineBusy (b : Byte) (s : State) : Alike s (lineBusy b s) := by
  apply alike_of_blocks <;> simp only [lineBusy_frame]

theorem alike_deferralExpiry (s : State) : Alike s (deferralExpiry s) := by
  apply alike_of_blocks <;> simp only [deferralExpiry_frame]

theorem alike_successfulSend (s : State) : Alike s (successfulSend s) := by
  apply alike_of_blocks <;> simp only [successfulSend_frame]

theorem alike_collision (s : State) : Alike s (collision s) := by
  apply alike_of_blocks <;> simp only [collision_frame]

theorem alike_announceTimerExpiry (s : State) : Alike s (announceTimerExpiry s) := by
  apply alike_of_blocks <;> simp only [announceTimerExpiry_frame]

/-- Every command comes to one of the effects. -/
theorem exec_comes {i : Instr} {s t : State} (executed : exec i s = .next t) : Comes s t := by
  have host {α : Type} {p : TakenIn} {operands : Option α} {act : α → State → State}
      (taken : ∀ a, takenNow p s.port.phase = true → Comes s (act a s))
      (answered : Host.Outcome.next (hostCommand p operands act s) = (.next t : Host.Outcome State Fault Refusal)) :
      Comes s t :=
    Host.Outcome.next.inj answered ▸ comes_of_hostCommand taken
  have next {u : State} (comes : Comes s u) (answered : Host.Outcome.next u = (.next t : Host.Outcome State Fault Refusal)) :
      Comes s t :=
    Host.Outcome.next.inj answered ▸ comes
  cases i with
  | powerOn strap => exact next (comes_of_effect (.restarted strap)) executed
  | reset strap => exact next (comes_of_effect (.restarted strap)) executed
  | frameArrival f => exact next (comes_of_effect (.arrived f)) executed
  | returnToHigh track f => exact next (comes_of_ite fun _ => .arrived f) executed
  | cueFire f => exact next (comes_of_ite fun _ => .arrived f) executed
  | awaitedStop f => exact next (comes_of_ite fun _ => .arrived f) executed
  | postRollComplete f => exact next (comes_of_ite fun _ => .arrived f) executed
  | halfDayStop f => exact next (comes_of_ite fun _ => .arrived f) executed
  | blockEnd f => exact next (comes_of_ite fun _ => .arrived f) executed
  | pendingStartPromotion =>
    exact next (comes_of_ite fun due => .promoted (Bool.and_eq_true_iff.mp due).1) executed
  | clockLost => exact next (comes_of_alike (alike_clockLost s)) executed
  | referencePulse => exact next (comes_of_alike (alike_referencePulse s)) executed
  | recordKey => exact next (comes_recordKey s) executed
  | successfulCompletion => exact next (comes_successfulCompletion s) executed
  | failedCompletion => exact next (comes_failedCompletion s) executed
  | writeIssue => exact next (comes_of_effect .decided) executed
  | lineIdle => exact next (comes_lineIdle (.refl s)) executed
  | deferralExpiry => exact next (comes_of_alike (alike_deferralExpiry s)) executed
  | successfulSend => exact next (comes_of_alike (alike_successfulSend s)) executed
  | collision => exact next (comes_of_alike (alike_collision s)) executed
  | announceTimerExpiry => exact next (comes_of_alike (alike_announceTimerExpiry s)) executed
  | peerAbsent p => exact next (comes_of_effect (.absent p)) executed
  | statusFrame f => exact next (comes_receiveFrame _ f s) executed
  | noteFrame f => exact next (comes_receiveFrame _ f s) executed
  | noteRequestFrame f => exact next (comes_receiveFrame _ f s) executed
  | noteGoneFrame f => exact next (comes_receiveFrame _ f s) executed
  | configureClock args =>
    exact host (fun a taken => comes_of_effect (.clockConfigured (setup_of_takenNow taken) a)) executed
  | configureTrack args => exact host (fun a _ => comes_of_alike (alike_configureTrack a s)) executed
  | configureCapture args => exact host (fun a _ => comes_of_alike (alike_configureCapture a s)) executed
  | configureMedia args => exact host (fun a _ => comes_of_alike (alike_configureMedia a s)) executed
  | setRunNumber args => exact host (fun n _ => comes_of_alike (alike_setRunNumber n s)) executed
  | commit args => exact host (fun u taken => comes_commit (setup_of_takenNow taken) u) executed
  | setTrim args => exact host (fun a _ => comes_of_alike (alike_setTrim a s)) executed
  | setGate args => exact host (fun a _ => comes_of_effect (.gateSet a)) executed
  | setScene args => exact host (fun name _ => comes_of_alike (alike_setScene name s)) executed
  | setNextTake args => exact host (fun n _ => comes_of_alike (alike_setNextTake n s)) executed
  | jamTimecode args => exact host (fun a _ => comes_of_effect (.jammed a)) executed
  | start args =>
    exact host (fun _ taken => comes_respond (.started (inRun_of_takenNow taken) .command) _ _) executed
  | stop args => exact host (fun _ taken => comes_respond (.stopped (inRun_of_takenNow taken)) _ _) executed
  | addNote args => exact host (fun a taken => comes_addNote (inRun_of_takenNow taken) a) executed
  | setCue args => exact host (fun a _ => comes_of_alike (alike_setCue a s)) executed
  | cancelCue args => exact host (fun u _ => comes_of_alike (alike_cancelCue u s)) executed
  | clearClip args => exact host (fun u _ => comes_of_alike (alike_clearClip u s)) executed
  | mediaRetry args => exact host (fun u taken => comes_mediaRetry (inRun_of_takenNow taken) u) executed
  | captureRestart args =>
    exact host (fun _ taken => comes_respond (.abandoned (inRun_of_takenNow taken)) _ _) executed
  | readStatus args => exact host (fun a _ => comes_of_alike (alike_answerRead _ s)) executed
  | readSlot args => exact host (fun a _ => comes_of_alike (alike_answerRead _ s)) executed
  | readPeer args => exact host (fun a _ => comes_of_alike (alike_answerRead _ s)) executed
  | readNote args => exact host (fun a _ => comes_of_alike (alike_answerRead _ s)) executed
  | readClip args => exact host (fun a _ => comes_of_alike (alike_answerRead _ s)) executed
  | readNotices args => exact host (fun a _ => comes_of_alike (alike_answerRead _ s)) executed
  | setNoticeMask args => exact host (fun v _ => comes_of_alike (alike_setNoticeMask v s)) executed
  | ackNotices args => exact host (fun v _ => comes_of_alike (alike_ackNotices v s)) executed
  | unknownCommand code args =>
    refine next ?_ executed
    split
    · exact comes_of_alike (alike_respond _ _ s)
    · exact comes_of_effect .stands
  | responseRead =>
    exact next (comes_of_alike (alike_responseRead s)) executed
  | lineBusy b => exact next (comes_of_alike (alike_lineBusy b s)) executed
  | selectionReleased received => exact next (comes_of_effect .stands) executed

/-- An invariant that every effect keeps, and that states which agree share, is kept by every step. -/
theorem keptByEveryStep_of_effects {I : State → Prop} (alike : ∀ s t, Alike s t → I s → I t)
    (effects : ∀ s t, I s → Effect s t → I t) : KeptByEveryStep I := by
  intro s t holds stepped
  unfold Machine.step at stepped
  split at stepped
  case h_1 =>
    cases stepped
    exact alike s (tick s) (by apply alike_of_blocks <;> simp only [tick_frame]) holds
  case h_2 i rest _ =>
    obtain ⟨u, effect, same⟩ := exec_comes stepped
    exact alike u t same (effects { s with pending := rest } u (alike s { s with pending := rest } rfl holds) effect)

end Sys2Proof.Proofs
end

section
/-! PROOFS. Slots and engine phase: which slot is open or EMPTY, the engine phase by the open take and the pending start, and a
stop at the newest position (R55, R58, R68, R71). -/

namespace Sys2Proof.Proofs

open Sys2Proof Sys2Proof.Machine Sys2Proof.Safety

/-! ### The open slot and the EMPTY slots (R55) -/

theorem isOpen_iff (u : Take) : isOpen (some u) = true ↔ u.phase ≠ .closing := by
  cases phase : u.phase <;> simp [isOpen, phase]

theorem openSlot_eq_some {s : State} {i : Fin 3} (isOpenSlot : openSlot s = some i) :
    isOpen s.takes.slots[i] = true := by
  rcases findSlot_spec isOpen s with ⟨j, found, isOpenTake, -⟩ | ⟨noSlot, -⟩
  · rw [openSlot, found] at isOpenSlot
    cases isOpenSlot
    exact isOpenTake
  · rw [openSlot, noSlot] at isOpenSlot
    cases isOpenSlot

theorem openSlot_eq_none_iff (s : State) : openSlot s = none ↔ ∀ i : Fin 3, isOpen s.takes.slots[i] = false := by
  rcases findSlot_spec isOpen s with ⟨j, found, isOpenTake, -⟩ | ⟨noSlot, closed⟩
  · refine ⟨fun noSlot => ?_, fun closed => ?_⟩
    · rw [openSlot, found] at noSlot
      cases noSlot
    · rw [closed j] at isOpenTake
      cases isOpenTake
  · exact ⟨fun _ => closed, fun _ => noSlot⟩

/-- The open slot holds a take that is ROLLING or POST. -/
theorem openSlot_holds {s : State} {i : Fin 3} (isOpenSlot : openSlot s = some i) :
    ∃ u, s.takes.slots[i] = some u ∧ u.phase ≠ .closing := by
  have isOpenTake := openSlot_eq_some isOpenSlot
  cases holds : s.takes.slots[i] with
  | none => rw [holds] at isOpenTake; cases isOpenTake
  | some u => exact ⟨u, rfl, (isOpen_iff u).mp (holds ▸ isOpenTake)⟩

/-- The EMPTY slots decide which of them is the lowest. -/
theorem emptySlot_congr {s t : State} (same : ∀ i : Fin 3, t.takes.slots[i].isNone = s.takes.slots[i].isNone) :
    emptySlot t = emptySlot s := by
  have h0 := same 0
  have h1 := same 1
  have h2 := same 2
  simp only [Fin.getElem_fin, Fin.val_zero, Fin.val_one, Fin.val_two] at h0 h1 h2
  simp only [emptySlot, findSlot, h0, h1, h2]

/-! ### The engine phase (R58) -/

theorem enginePhase_of_openSlot {s : State} {i : Fin 3} {u : Take} (isOpenSlot : openSlot s = some i)
    (holds : s.takes.slots[i] = some u) :
    enginePhase s = if u.phase = .rolling then .rolling else .post := by
  simp only [enginePhase, openTake_of_slot isOpenSlot holds, beq_iff_eq]

theorem enginePhase_of_no_openSlot {s : State} (noOpen : openSlot s = none) :
    enginePhase s = if s.takes.pendingStart.isSome then .startPending else .idle := by
  simp only [enginePhase, openTake, noOpen]

/-- What the engine phase says of the open slot and the pending start. -/
theorem enginePhase_spec (s : State) :
    (∃ i u, openSlot s = some i ∧ s.takes.slots[i] = some u ∧
      ((u.phase = .rolling ∧ enginePhase s = .rolling) ∨ (u.phase = .post ∧ enginePhase s = .post))) ∨
    (openSlot s = none ∧
      ((s.takes.pendingStart ≠ none ∧ enginePhase s = .startPending) ∨
        (s.takes.pendingStart = none ∧ enginePhase s = .idle))) := by
  cases isOpenSlot : openSlot s with
  | some i =>
    obtain ⟨u, holds, notClosing⟩ := openSlot_holds isOpenSlot
    have phase := enginePhase_of_openSlot isOpenSlot holds
    refine .inl ⟨i, u, rfl, holds, ?_⟩
    cases state : u.phase with
    | rolling => exact .inl ⟨rfl, by rw [phase, state, if_pos rfl]⟩
    | post => exact .inr ⟨rfl, by rw [phase, state, if_neg (by decide)]⟩
    | closing => exact absurd state notClosing
  | none =>
    have phase := enginePhase_of_no_openSlot isOpenSlot
    refine .inr ⟨rfl, ?_⟩
    cases start : s.takes.pendingStart with
    | some q => exact .inl ⟨Option.some_ne_none q, by rw [phase, start]; rfl⟩
    | none => exact .inr ⟨rfl, by rw [phase, start]; rfl⟩

theorem enginePhase_idle {s : State} (idle : enginePhase s = .idle) :
    openSlot s = none ∧ s.takes.pendingStart = none := by
  rcases enginePhase_spec s with ⟨i, u, -, -, ⟨-, phase⟩ | ⟨-, phase⟩⟩ | ⟨noOpen, ⟨-, phase⟩ | ⟨noStart, -⟩⟩
  · cases idle.symm.trans phase
  · cases idle.symm.trans phase
  · cases idle.symm.trans phase
  · exact ⟨noOpen, noStart⟩

theorem enginePhase_startPending {s : State} (pending : enginePhase s = .startPending) :
    openSlot s = none ∧ s.takes.pendingStart ≠ none := by
  rcases enginePhase_spec s with ⟨i, u, -, -, ⟨-, phase⟩ | ⟨-, phase⟩⟩ | ⟨noOpen, ⟨start, -⟩ | ⟨-, phase⟩⟩
  · cases pending.symm.trans phase
  · cases pending.symm.trans phase
  · exact ⟨noOpen, start⟩
  · cases pending.symm.trans phase

theorem enginePhase_post {s : State} (post : enginePhase s = .post) :
    ∃ i u, openSlot s = some i ∧ s.takes.slots[i] = some u ∧ u.phase = .post := by
  rcases enginePhase_spec s with ⟨i, u, isOpenSlot, holds, ⟨-, phase⟩ | ⟨state, -⟩⟩ | ⟨-, ⟨-, phase⟩ | ⟨-, phase⟩⟩
  · cases post.symm.trans phase
  · exact ⟨i, u, isOpenSlot, holds, state⟩
  · cases post.symm.trans phase
  · cases post.symm.trans phase

/-! ### Stops and cuts at the newest position (R68, R71) -/

theorem day_pos (s : State) : 0 < s.day := Nat.lt_of_succ_lt (one_lt_day s)

@[simp] theorem closeSlot_slots (i j : Fin 3) (u : Take) (s : State) :
    (closeSlot i u s).takes.slots[j] = if i = j then some { u with phase := .closing } else s.takes.slots[j] :=
  setSlot_slots i j _ _

/-- A stop at the newest position is POST with no post-roll taken yet, or with Q = 0 CLOSING there (R68). -/
theorem stopTake_newest (i : Fin 3) (u : Take) (s : State) :
    stopTake i u s.counter.newest s =
      if 0 < s.takes.postRoll then
        setSlot i (some { u with e := some s.counter.newest, phase := .post, postRoll := 0 }) s
      else closeSlot i { u with e := some s.counter.newest, z := some s.counter.newest, postRoll := 0 } s := by
  have pos := day_pos s
  unfold stopTake
  dsimp only
  rw [isLater_self pos, if_neg Bool.false_ne_true, countAfter_self pos]
  split
  case isTrue => rfl
  case isFalse noPostRoll =>
    have end_here : laterOf s.day (posAdd s.day s.counter.newest s.takes.postRoll) s.counter.newest = s.counter.newest := by
      have same : signedDiff s.day s.counter.newest (posAdd s.day s.counter.newest s.takes.postRoll) = 0 := by
        rw [signedDiff_eq_zero_iff _ _ pos, Nat.eq_zero_of_not_pos noPostRoll, posAdd, Nat.add_zero, Nat.mod_mod]
      rw [laterOf, isLater, same]
      rfl
    rw [end_here, countAfter_self pos]

theorem applyStop_of_rolling {s : State} {i : Fin 3} {u : Take} (holds : s.takes.slots[i] = some u)
    (rolling : u.phase = .rolling) (e : Nat) : applyStop i e s = stopTake i u e s := by
  simp only [applyStop, holds, rolling, if_true]

/-- A cut of a POST take at the newest position, which lies within its post-roll, ends it there (R71). -/
theorem cutPostRoll_newest {s : State} {i : Fin 3} {u : Take} {e : Nat} (holds : s.takes.slots[i] = some u)
    (post : u.phase = .post) (stop : u.e = some e) (afterStop : isEarlier s.day s.counter.newest e = false)
    (within : isLater s.day s.counter.newest (posAdd s.day e s.takes.postRoll) = false) :
    cutPostRoll i s.counter.newest s =
      closeSlot i { u with z := some s.counter.newest, postRoll := countAfter s.day e s.counter.newest } s := by
  simp only [cutPostRoll, holds, post, stop, if_true, Option.getD_some, afterStop, within, Bool.false_eq_true, if_false,
    laterOf, isLater_self (day_pos s)]

end Sys2Proof.Proofs
end

section
/-! PROOFS. What the operations on takes may do to a take record, to the open take and to the pending start: one relation on take
records, one on states for operations that start nothing, and one for those that may start a take (R55 to R82, R107 to R120). -/

namespace Sys2Proof.Proofs

open Sys2Proof Sys2Proof.Machine Sys2Proof.Safety

/-! ### Take records (R56, R75, R78, R117, R133) -/

/-- The accounting of one take, modulo D (R78). -/
def Accounted (D : Nat) (u : Take) : Prop := (u.sr + u.w + u.g + u.h) % D = u.next % D

/-- The record u may become v: a CLOSING take stays CLOSING, and accounting and limits carry over. -/
structure Revised (D : Nat) (u v : Take) : Prop where
  closing : u.phase = .closing → v.phase = .closing
  accounted : Accounted D u → Accounted D v
  bounded : RecordBounded u → RecordBounded v

theorem Revised.refl (D : Nat) (u : Take) : Revised D u u := ⟨id, id, id⟩

theorem Revised.trans {D : Nat} {u v w : Take} (first : Revised D u v) (second : Revised D v w) : Revised D u w where
  closing := second.closing ∘ first.closing
  accounted := second.accounted ∘ first.accounted
  bounded := second.bounded ∘ first.bounded

/-- A change of state, E, Z, post-roll, flags, serial, watch position, tracks, first block, block count or index-issued mark
touches neither accounting nor limits. -/
theorem revised_of_fields {D : Nat} {u v : Take} (closing : u.phase = .closing → v.phase = .closing)
    (account : (v.sr, v.w, v.g, v.h, v.next) = (u.sr, u.w, u.g, u.h, u.next))
    (lists : (v.gaps, v.gapsMerged, v.former, v.noteRefs) = (u.gaps, u.gapsMerged, u.former, u.noteRefs)) :
    Revised D u v := by
  simp only [Prod.mk.injEq] at account lists
  obtain ⟨sr, w, g, h, next⟩ := account
  obtain ⟨gaps, merged, former, refs⟩ := lists
  refine ⟨closing, fun accounted => ?_, fun bounded => ⟨?_, ?_, ?_, ?_⟩⟩
  · rw [Accounted, sr, w, g, h, next]
    exact accounted
  · rw [gaps]
    exact bounded.gaps
  · rw [gaps, merged]
    exact bounded.merged
  · rw [former]
    exact bounded.former
  · rw [refs]
    exact bounded.refs

/-! ### The gap list stays within its limit (R75) -/

theorem coalesce_length {D a n : Nat} {l joined : List GapEntry} (joins : coalesce D a n l = some joined) :
    joined.length ≤ l.length := by
  induction l generalizing joined with
  | nil => cases joins
  | cons x rest ih =>
    by_cases follows : posAdd D x.first x.count = a
    · cases rest with
      | nil =>
        rw [coalesce, if_pos follows] at joins
        cases joins
        exact Nat.le_refl _
      | cons y rest =>
        rw [coalesce, if_pos follows] at joins
        split at joins <;> cases joins <;> simp only [List.length_cons] <;> omega
    · rw [coalesce_of_not_follows follows] at joins
      split at joins
      · cases joins
        exact Nat.le_refl _
      · obtain ⟨r, passed, rfl⟩ := Option.map_eq_some_iff.mp joins
        exact Nat.succ_le_succ (ih passed)

theorem insertEntry_length (D a n : Nat) (l : List GapEntry) : (insertEntry D a n l).length = l.length + 1 := by
  induction l with
  | nil => rfl
  | cons x rest ih =>
    rw [insertEntry]
    split
    · rfl
    · rw [List.length_cons, ih, List.length_cons]

theorem foldLast_length (n : Nat) (l : List GapEntry) : (foldLast n l).length = l.length := by
  rcases List.eq_nil_or_concat l with rfl | ⟨pre, x, rfl⟩
  · rfl
  · rw [List.concat_eq_append, foldLast_append, List.length_append, List.length_append]
    rfl

/-- The entries that may be joined and the merged entry are the gap list, an empty list having no merged entry. -/
theorem joinable_append_mergedTail (gaps : List GapEntry) (merged : Bool) :
    (joinable gaps merged).length + (mergedTail gaps merged).length = gaps.length := by
  cases merged with
  | false => rfl
  | true =>
    simp only [joinable, mergedTail, if_true, List.length_dropLast, List.length_drop]
    omega

theorem recordBounded_insertRun {u : Take} (D a n : Nat) (bounded : RecordBounded u) :
    RecordBounded (insertRun D a n u) := by
  obtain ⟨gaps, merged, former, refs⟩ := bounded
  have parts := joinable_append_mergedTail u.gaps u.gapsMerged
  unfold insertRun
  split
  · exact ⟨gaps, merged, former, refs⟩
  · split
    case h_1 joined joins =>
      have shorter := coalesce_length joins
      refine ⟨?_, fun isMerged => ?_, former, refs⟩
      · rw [List.length_append]
        omega
      · have present := List.length_pos_of_ne_nil (merged isMerged)
        have tail : 0 < (mergedTail u.gaps u.gapsMerged).length := by
          simp only [mergedTail, show u.gapsMerged = true from isMerged, if_true, List.length_drop]
          omega
        exact List.append_ne_nil_of_right_ne_nil _ (List.ne_nil_of_length_pos tail)
    case h_2 =>
      split
      case isTrue room =>
        rw [Bool.and_eq_true, decide_eq_true_iff] at room
        refine ⟨?_, fun _ => ?_, former, refs⟩
        · exact (insertEntry_length D a n u.gaps).trans_le room.1
        · exact List.ne_nil_of_length_pos (by rw [insertEntry_length]; exact Nat.succ_pos _)
      case isFalse full =>
        refine ⟨(foldLast_length n u.gaps).trans_le gaps, fun _ => ?_, former, refs⟩
        have present : 0 < u.gaps.length := by
          cases isMerged : u.gapsMerged with
          | true => exact List.length_pos_of_ne_nil (merged isMerged)
          | false =>
            rw [isMerged, Bool.not_false, Bool.and_true, decide_eq_true_iff] at full
            exact Nat.lt_of_lt_of_le (by decide) (Nat.not_lt.mp full)
        exact List.ne_nil_of_length_pos (by rw [foldLast_length]; exact present)

theorem revised_insertRun (D a n : Nat) (u : Take) : Revised D u (insertRun D a n u) := by
  obtain ⟨gaps, merged, inserted⟩ := insertRun_eq D a n u
  refine ⟨fun closing => ?_, fun accounted => ?_, recordBounded_insertRun D a n⟩
  · rw [inserted]
    exact closing
  · rw [inserted]
    exact accounted

/-- Positions counted at the next-to-write position keep the accounting when it moves past them (R76, R78). -/
theorem add_mod_of_accounted {D total next : Nat} (accounted : total % D = next % D) (n : Nat) :
    (total + n) % D = posAdd D next n % D := by
  rw [posAdd, Nat.mod_mod, Nat.add_mod, accounted, ← Nat.add_mod]

theorem revised_gapReport (D : Nat) (holes : Bool) (n : Nat) (u : Take) : Revised D u (gapReport D holes n u) := by
  unfold gapReport
  dsimp only
  generalize (if holes then _ else n) = count
  refine (revised_insertRun D u.next count u).trans ?_
  obtain ⟨gaps, merged, inserted⟩ := insertRun_eq D u.next count u
  rw [inserted]
  refine ⟨id, fun accounted => ?_, fun ⟨gaps, merged, former, refs⟩ => ⟨gaps, merged, former, refs⟩⟩
  have moved := add_mod_of_accounted accounted n
  rw [Accounted, ← moved]
  dsimp only
  congr 1
  omega

theorem revised_writtenReport (D addr : Nat) (frames : List RingFrame) (u : Take) :
    Revised D u (writtenReport D addr frames u) := by
  refine ⟨id, fun accounted => ?_, fun ⟨gaps, merged, former, refs⟩ => ⟨gaps, merged, former, refs⟩⟩
  have moved := add_mod_of_accounted accounted frames.length
  rw [Accounted, writtenReport, ← moved]
  dsimp only
  congr 1
  omega

theorem addReference_length {refs : List NoteId} (bounded : refs.length ≤ Config.maxNoteRefs) (id : NoteId) :
    (addReference id refs).length ≤ Config.maxNoteRefs := by
  unfold addReference
  split
  case isTrue => exact bounded
  case isFalse room =>
    rw [Bool.or_eq_true, decide_eq_true_iff] at room
    rw [List.length_append, List.length_singleton]
    omega

theorem revised_attachTo (D : Nat) (n : Note) (u : Take) : Revised D u (attachTo n u) := by
  have reference : Revised D u { u with noteRefs := addReference n.id u.noteRefs } :=
    ⟨id, id, fun ⟨gaps, merged, former, refs⟩ => ⟨gaps, merged, former, addReference_length refs n.id⟩⟩
  unfold attachTo
  refine reference.trans ?_
  generalize { u with noteRefs := addReference n.id u.noteRefs } = v
  unfold noteEffect
  split
  · exact .refl D v
  · exact .refl D v
  · exact revised_of_fields id rfl rfl
  · exact revised_of_fields id rfl rfl
  · exact revised_of_fields id rfl rfl
  · split
    · exact .refl D v
    · exact revised_of_fields id rfl rfl

/-! ### Starts and merges (R67, R117, R118) -/

/-- A take that begins: accounted up to its next-to-write position, its lists within their limits. -/
structure Begun (D : Nat) (u : Take) : Prop where
  accounted : Accounted D u
  bounded : RecordBounded u

theorem Begun.revised {D : Nat} {u v : Take} (begun : Begun D u) (revised : Revised D u v) : Begun D v :=
  ⟨revised.accounted begun.accounted, revised.bounded begun.bounded⟩

/-- A held position that a lookup answers is reached by the count of the positions before it (R48). -/
theorem lookup_held {v : RingView} {s : State} {p o : Nat} (answer : lookup v s p = .held o) :
    (p + countAfter s.day p o) % s.day = o % s.day := by
  unfold lookup at answer
  split at answer
  · cases answer
  case isFalse notLater =>
    have arrived : isLater s.day p s.counter.newest = false := Bool.eq_false_iff.mpr notLater
    split at answer
    case h_1 f found =>
      cases answer
      have inReach : fromUpToNewest s p f.pos = true :=
        List.find?_some (p := fun g : RingFrame => fromUpToNewest s p g.pos) found
      have reach : posSub s.day f.pos p ≤ posSub s.day s.counter.newest p := of_decide_eq_true inReach
      have near := place_of_not_later (day_pos s) arrived
      exact (countAfter_reaches (day_pos s) (by omega)).1
    case h_2 => cases answer

/-- The head of a start leads from its requested start to its next-to-write position (R67). -/
theorem headOf_accounted (v : RingView) (s : State) (p : Nat) :
    (p + (headOf v s p).1) % s.day = (headOf v s p).2 % s.day := by
  unfold headOf
  split
  case h_1 o answer => exact lookup_held answer
  case h_2 next answer =>
    unfold lookup at answer
    split at answer
    · cases answer
    case isFalse notLater =>
      have arrived : isLater s.day p s.counter.newest = false := Bool.eq_false_iff.mpr notLater
      split at answer
      · cases answer
      · cases answer
        exact (countAfter_reaches (day_pos s) (place_firstUnseen arrived v).2).1
  case h_3 => rfl

theorem begun_freshTake (v : RingView) (label : Label) (origin p : Nat) (flags : TakeFlags) (s : State) :
    Begun s.day (freshTake v label origin p flags s) where
  accounted := headOf_accounted v s p
  bounded := ⟨Nat.zero_le _, nofun, Nat.zero_le _, Nat.zero_le _⟩

theorem formerAfter_length (old new : Label) {former : List Label} (bounded : former.length ≤ 2) :
    (formerAfter old new former).length ≤ 2 := by
  unfold formerAfter
  split_ifs
  · exact bounded
  · rw [List.length_append, List.length_singleton]
    omega
  · rw [List.length_append, List.length_drop, List.length_singleton]
    omega

/-- From an earlier position the count of positions leads to the later one (R1). -/
theorem countAfter_of_earlier {D a b : Nat} (pos : 0 < D) (earlier : isEarlier D a b = true) :
    (a + countAfter D a b) % D = b % D := by
  have below : signedDiff D b a < 0 := of_decide_eq_true earlier
  have notLater : isLater D a b = false := decide_eq_false (by omega)
  have near := place_of_not_later pos notLater
  exact (countAfter_reaches pos near.le).1

/-- A merge that moves the requested start earlier accounts what it adds at the head (R118). -/
theorem revised_extendHead (s : State) (outstanding : Bool) {p : Nat} {u : Take}
    (earlier : isEarlier s.day p u.sr = true) : Revised s.day u (extendHead s outstanding p u) := by
  unfold extendHead
  split
  case h_1 o served =>
    have head : u.w = 0 ∧ u.g = 0 ∧ lookup .afterFrame s p = .held o := by
      unfold servedFrom at served
      split at served
      case isFalse => cases served
      case isTrue untouched =>
        obtain ⟨-, w, g, -⟩ := untouched
        split at served
        · split at served
          · cases served
          · cases served
            exact ⟨w, g, ‹_›⟩
        · cases served
    obtain ⟨w, g, answer⟩ := head
    refine ⟨id, fun _ => ?_, fun ⟨gaps, merged, former, refs⟩ => ⟨gaps, merged, former, refs⟩⟩
    rw [Accounted]
    dsimp only
    rw [w, g]
    exact lookup_held answer
  case h_2 =>
    refine ⟨id, fun accounted => ?_, fun ⟨gaps, merged, former, refs⟩ => ⟨gaps, merged, former, refs⟩⟩
    have added := countAfter_of_earlier (day_pos s) earlier
    rw [Accounted] at accounted ⊢
    dsimp only
    rw [show p + u.w + u.g + (u.h + countAfter s.day p u.sr) = p + countAfter s.day p u.sr + (u.w + u.g + u.h) by omega,
      Nat.add_mod, added, ← Nat.add_mod, ← accounted]
    congr 1
    omega

theorem revised_mergeTake (s : State) (outstanding : Bool) (x : Identity) (u : Take) :
    Revised s.day u (mergeTake s outstanding x u) := by
  have relabelled : Revised s.day u
      { u with
        former := formerAfter u.label x.label u.former
        label := x.label
        origin := x.origin
        flags := { u.flags with merged := true, follower := true } } :=
    ⟨id, id, fun ⟨gaps, merged, former, refs⟩ => ⟨gaps, merged, formerAfter_length _ _ former, refs⟩⟩
  unfold mergeTake
  dsimp only
  split
  case isTrue earlier => exact relabelled.trans (revised_extendHead s outstanding earlier)
  case isFalse => exact relabelled

/-! ### Operations that start nothing -/

/-- From s to t no take starts: a slot of t is EMPTY or holds the revised take of s, no pending start is made, and the
closed-identity list keeps its limit. -/
structure Revises (s t : State) : Prop where
  day : t.day = s.day
  takes : ∀ (i : Fin 3) (v : Take), t.takes.slots[i] = some v → ∃ u, s.takes.slots[i] = some u ∧ Revised s.day u v
  pendingStart : s.takes.pendingStart = none → t.takes.pendingStart = none
  closed : s.takes.closed.length ≤ Config.maxClosed → t.takes.closed.length ≤ Config.maxClosed

theorem Alike.revises {s t : State} (h : Alike s t) : Revises s t where
  day := h.day
  takes i v holds := ⟨v, by rwa [h.slots] at holds, .refl _ v⟩
  pendingStart := by rw [h.pendingStart]; exact id
  closed := by rw [h.closed]; exact id

/-- States that hold the same takes at the same sample rate. -/
theorem revises_of_takes {s t : State} (rate : t.counter.sampleRate = s.counter.sampleRate) (takes : t.takes = s.takes) :
    Revises s t where
  day := by rw [State.day, rate, State.day]
  takes _ v holds := ⟨v, by rwa [takes] at holds, .refl _ v⟩
  pendingStart := by rw [takes]; exact id
  closed := by rw [takes]; exact id

theorem Revises.refl (s : State) : Revises s s := revises_of_takes rfl rfl

theorem Revises.trans {s t u : State} (first : Revises s t) (second : Revises t u) : Revises s u where
  day := second.day.trans first.day
  takes i v holds := by
    obtain ⟨x, held, later⟩ := second.takes i v holds
    obtain ⟨y, began, earlier⟩ := first.takes i x held
    rw [first.day] at later
    exact ⟨y, began, earlier.trans later⟩
  pendingStart := second.pendingStart ∘ first.pendingStart
  closed := second.closed ∘ first.closed

/-- A slot EMPTY in s is EMPTY in t. -/
theorem Revises.empty {s t : State} (h : Revises s t) {i : Fin 3} (empty : s.takes.slots[i] = none) :
    t.takes.slots[i] = none := by
  cases holds : t.takes.slots[i] with
  | none => rfl
  | some v =>
    obtain ⟨u, held, -⟩ := h.takes i v holds
    cases empty.symm.trans held

theorem Revises.closing {s t : State} (h : Revises s t) {i : Fin 3} (notOpen : isOpen s.takes.slots[i] = false) :
    isOpen t.takes.slots[i] = false := by
  cases holds : t.takes.slots[i] with
  | none => rfl
  | some v =>
    obtain ⟨u, held, revised⟩ := h.takes i v holds
    rw [held, Bool.eq_false_iff, Ne, isOpen_iff, not_not] at notOpen
    rw [Bool.eq_false_iff, Ne, isOpen_iff, not_not]
    exact revised.closing notOpen

theorem revises_setSlot {s : State} {i : Fin 3} {u v : Take} (holds : s.takes.slots[i] = some u)
    (revised : Revised s.day u v) : Revises s (setSlot i (some v) s) where
  day := rfl
  takes j w held := by
    rw [setSlot_slots] at held
    split at held
    case isTrue here =>
      cases held
      exact ⟨u, here ▸ holds, revised⟩
    case isFalse => exact ⟨w, held, .refl _ w⟩
  pendingStart := id
  closed := id

theorem revises_clearSlot (i : Fin 3) (s : State) : Revises s (setSlot i none s) where
  day := rfl
  takes j w held := by
    rw [setSlot_slots] at held
    split at held
    · cases held
    · exact ⟨w, held, .refl _ w⟩
  pendingStart := id
  closed := id

theorem revises_modifySlot {f : Take → Take} (i : Fin 3) {s : State} (revised : ∀ u, Revised s.day u (f u)) :
    Revises s (modifySlot i f s) := by
  unfold modifySlot
  split
  · exact .refl s
  case h_2 u holds => exact revises_setSlot holds (revised u)

theorem appendClosed_length (x : Identity) {l : List Identity} (bounded : l.length ≤ Config.maxClosed) :
    (appendClosed x l).length ≤ Config.maxClosed := by
  have room : 0 < Config.maxClosed := by decide
  rw [appendClosed, List.length_append, List.length_singleton]
  split
  · omega
  · rw [List.length_drop]
    omega

theorem revises_closeSlot {s : State} {i : Fin 3} {u v : Take} (holds : s.takes.slots[i] = some u)
    (revised : Revised s.day u { v with phase := .closing }) : Revises s (closeSlot i v s) where
  day := rfl
  takes := (revises_setSlot holds revised).takes
  pendingStart := id
  closed := appendClosed_length _

/-- A stop revises the take, whose flags may have been set, of a slot that is not CLOSING (R68). -/
theorem revises_stopTake {s : State} {i : Fin 3} {u : Take} (holds : s.takes.slots[i] = some u)
    (rolling : u.phase = .rolling) (flags : TakeFlags) (e : Nat) :
    Revises s (stopTake i { u with flags := flags } e s) := by
  have notClosing (phase : TakePhase) : u.phase = .closing → phase = .closing := by
    rw [rolling]
    exact nofun
  unfold stopTake
  dsimp only
  split_ifs
  · exact revises_setSlot holds (revised_of_fields id rfl rfl)
  · exact revises_setSlot holds (revised_of_fields (notClosing _) rfl rfl)
  · exact revises_closeSlot holds (revised_of_fields (fun _ => rfl) rfl rfl)

theorem revises_applyStop (i : Fin 3) (e : Nat) (s : State) : Revises s (applyStop i e s) := by
  unfold applyStop
  split
  · exact .refl s
  case h_2 u holds =>
    split
    case isTrue rolling => exact revises_stopTake holds rolling u.flags e
    case isFalse => exact .refl s

theorem revises_cutPostRoll (i : Fin 3) (c : Nat) (s : State) : Revises s (cutPostRoll i c s) := by
  unfold cutPostRoll
  split
  · exact .refl s
  case h_2 u holds =>
    split
    · exact revises_closeSlot holds (revised_of_fields (fun _ => rfl) rfl rfl)
    · exact .refl s

theorem revises_dropPending (s : State) : Revises s (dropPending s) where
  day := rfl
  takes _ v holds := ⟨v, holds, .refl _ v⟩
  pendingStart _ := rfl
  closed := id

theorem revises_forcedStop (s : State) : Revises s (forcedStop s) := by
  unfold forcedStop
  dsimp only
  refine Revises.trans ?_ (revises_dropPending _)
  split
  · exact .refl s
  · split
    · exact .refl s
    case h_2 u holds =>
      split
      · exact revises_closeSlot holds (revised_of_fields (fun _ => rfl) rfl rfl)
      · exact revises_closeSlot holds (revised_of_fields (fun _ => rfl) rfl rfl)

theorem revises_arriveSlot (i : Fin 3) (s : State) : Revises s (arriveSlot i s) := by
  unfold arriveSlot
  split
  · exact .refl s
  case h_2 u holds =>
    split_ifs with limit awaited post full
    · exact revises_stopTake holds (by simpa using (Bool.and_eq_true_iff.mp limit).1) _ _
    · exact revises_stopTake holds (by simpa using (Bool.and_eq_true_iff.mp awaited).1) u.flags _
    · exact revises_closeSlot holds (revised_of_fields (fun _ => rfl) rfl rfl)
    · exact revises_setSlot holds (revised_of_fields id rfl rfl)
    · exact .refl s

theorem revises_arrivePending (s : State) : Revises s (arrivePending s) := by
  unfold arrivePending
  split
  · exact .refl s
  case h_2 q start =>
    split
    · exact revises_dropPending s
    · exact ⟨rfl, fun _ v holds => ⟨v, holds, .refl _ v⟩,
        fun noStart => absurd (start.symm.trans noStart) (Option.some_ne_none q), id⟩

theorem revises_takeArrival (s : State) : Revises s (takeArrival s) :=
  (((revises_arriveSlot 0 s).trans (revises_arriveSlot 1 _)).trans (revises_arriveSlot 2 _)).trans
    (revises_arrivePending _)

theorem revises_reportDiscard (i : Fin 3) (p : Nat) (s : State) : Revises s (reportDiscard i p s) := by
  refine revises_modifySlot i fun u => ?_
  split
  · exact revised_insertRun _ _ _ u
  · exact .refl _ u

theorem revises_offerFrame (f : RingFrame) (s : State) : Revises s (offerFrame f s) := by
  unfold offerFrame
  split
  · exact revises_of_takes rfl rfl
  · exact revises_of_takes rfl rfl
  · refine Revises.trans ?_ (revises_reportDiscard 2 _ _)
    refine Revises.trans ?_ (revises_reportDiscard 1 _ _)
    refine Revises.trans ?_ (revises_reportDiscard 0 _ _)
    exact revises_of_takes rfl rfl

theorem revises_raise (k : Notice) (s : State) : Revises s (raise k s) := revises_of_takes rfl rfl

theorem revises_markOriginLost (i : Fin 3) (s : State) : Revises s (markOriginLost i s) :=
  (revises_modifySlot (f := fun u => { u with flags := { u.flags with originLost := true } }) i
    fun _ => revised_of_fields id rfl rfl).trans (revises_raise _ _)

theorem revises_tryAttach (n : Note) (s : State) : Revises s (tryAttach n s) := by
  unfold tryAttach
  split
  · exact revises_modifySlot _ (revised_attachTo _ n)
  · exact .refl s

/-! ### The end of an event (R160, R161, R164) -/

theorem revises_accountSlot (i : Fin 3) (fuel : Nat) (s : State) : Revises s (accountSlot i fuel s) := by
  induction fuel generalizing s with
  | zero => exact .refl s
  | succ fuel ih =>
    rw [accountSlot]
    split
    · exact .refl s
    · exact (revises_modifySlot i (revised_gapReport _ _ _)).trans (ih _)

theorem revises_settle (s : State) : Revises s (settle s) := by
  unfold settle
  split
  · have dropped : Revises s (dropHeldAudio s) := by apply revises_of_takes <;> simp only [dropHeldAudio_frame]
    exact ((dropped.trans (revises_accountSlot 0 _ _)).trans (revises_accountSlot 1 _ _)).trans (revises_accountSlot 2 _ _)
  · exact .refl s

theorem revises_issueRequest (r : Request) (s : State) : Revises s (issueRequest r s) := by
  unfold issueRequest
  split
  · split
    · exact .refl s
    · split
      · exact .refl s
      · exact revises_of_takes rfl rfl
  · split
    · exact .refl s
    case h_2 u holds =>
      refine (revises_setSlot (v := { u with indexIssued := true }) holds (revised_of_fields id rfl rfl)).trans ?_
      exact revises_of_takes rfl rfl
  · exact revises_of_takes rfl rfl
  · exact revises_of_takes rfl rfl

theorem revises_makeDecision (s : State) : Revises s (makeDecision s) := by
  rcases makeDecision_cases s with same | ⟨r, -, -, issued⟩
  · rw [same]
    exact .refl s
  · rw [issued]
    exact revises_issueRequest r s

theorem revises_finish (before after : State) : Revises after (finish before after) := by
  refine (revises_settle after).trans (Revises.trans ?_ (revises_makeDecision _))
  exact (alike_announceChange before _).revises

/-! ### Completions (R158, R167, R168) -/

theorem revises_setSpace (s : State) : Revises s (setSpace s) := by
  unfold setSpace
  split
  · exact .refl s
  · dsimp only
    split
    · exact revises_of_takes rfl rfl
    · split
      · exact revises_of_takes rfl rfl
      · refine Revises.trans ?_ (revises_forcedStop _)
        exact revises_of_takes rfl rfl
      · exact revises_of_takes rfl rfl

theorem revises_advanceCursor (s : State) : Revises s (advanceCursor s) := by
  refine Revises.trans ?_ (revises_setSpace _)
  exact revises_of_takes rfl rfl

theorem revises_completeFailed (w : Write) (s : State) : Revises s (completeFailed w s) := by
  have counted : Revises s (advanceCursor (listFailure w.addr (clearFlight s))) := by
    refine Revises.trans ?_ (revises_advanceCursor _)
    apply revises_of_takes <;> simp only [listFailure_frame] <;> rfl
  unfold completeFailed
  dsimp only
  split
  · exact counted
  · refine counted.trans ?_
    apply revises_of_takes <;> simp only [failedOutcome_frame]

/-! ### Operations that may start a take -/

/-- No take is open and no start is pending. -/
structure Calm (s : State) : Prop where
  slots : ∀ i : Fin 3, isOpen s.takes.slots[i] = false
  pendingStart : s.takes.pendingStart = none

/-- From s to t takes are revised or begun, and where at most one take was open none opens beside it. -/
structure Moves (s t : State) : Prop where
  day : t.day = s.day
  takes : ∀ (i : Fin 3) (v : Take), t.takes.slots[i] = some v →
    (∃ u, s.takes.slots[i] = some u ∧ Revised s.day u v) ∨ Begun s.day v
  closed : s.takes.closed.length ≤ Config.maxClosed → t.takes.closed.length ≤ Config.maxClosed
  one : OneOpenTake s → OneOpenTake t

theorem Revises.moves {s t : State} (h : Revises s t) : Moves s t where
  day := h.day
  takes i v holds := .inl (h.takes i v holds)
  closed := h.closed
  one single := by
    have stays (i : Fin 3) (isOpenTake : isOpen t.takes.slots[i] = true) : isOpen s.takes.slots[i] = true := by
      by_contra notOpen
      exact Bool.false_ne_true ((h.closing (Bool.eq_false_iff.mpr notOpen)).symm.trans isOpenTake)
    refine ⟨fun i j openI openJ => single.one i j (stays i openI) (stays j openJ), fun start i => ?_⟩
    refine h.closing (single.none_pending ?_ i)
    rw [Option.isSome_iff_ne_none] at start ⊢
    exact mt h.pendingStart start

theorem moves_of_takes {s t : State} (rate : t.counter.sampleRate = s.counter.sampleRate)
    (takes : t.takes = s.takes) : Moves s t :=
  (revises_of_takes rate takes).moves

theorem Moves.refl (s : State) : Moves s s := (Revises.refl s).moves

theorem Moves.trans {s t u : State} (first : Moves s t) (second : Moves t u) : Moves s u where
  day := second.day.trans first.day
  takes i v holds := by
    have later := second.takes i v holds
    rw [first.day] at later
    rcases later with ⟨x, held, revised⟩ | begun
    · rcases first.takes i x held with ⟨y, began, earlier⟩ | begun
      · exact .inl ⟨y, began, earlier.trans revised⟩
      · exact .inr (begun.revised revised)
    · exact .inr begun
  closed := second.closed ∘ first.closed
  one := second.one ∘ first.one

theorem Moves.revises {s t u : State} (first : Moves s t) (second : Revises t u) : Moves s u := first.trans second.moves

theorem Calm.oneOpenTake {s : State} (calm : Calm s) : OneOpenTake s where
  one i _ openI := absurd openI (Bool.eq_false_iff.mp (calm.slots i))
  none_pending _ := calm.slots

/-- A take put into an EMPTY slot where none is open is the one open take. -/
theorem oneOpenTake_setSlot {s : State} (calm : Calm s) (i : Fin 3) (u : Take) (serial : Nat) :
    OneOpenTake (setSlot i (some u) { s with takes := { s.takes with serial := serial } }) where
  one j k openJ openK := by
    have here (l : Fin 3)
        (isOpenTake : isOpen
          (setSlot i (some u) { s with takes := { s.takes with serial := serial } }).takes.slots[l] = true) : i = l := by
      by_contra other
      rw [setSlot_slots, if_neg other] at isOpenTake
      exact Bool.false_ne_true ((calm.slots l).symm.trans isOpenTake)
    exact (here j openJ).symm.trans (here k openK)
  none_pending start := by
    change s.takes.pendingStart.isSome = true at start
    rw [calm.pendingStart] at start
    cases start

section

variable {s t : State} (moves : Moves s t)

include moves

/-- A slot is started where, if at most one take was open before, none is open and none pending (R67). -/
theorem Moves.startSlot (calm : OneOpenTake s → Calm t) (v : RingView) (label : Label) (origin p : Nat)
    (flags : TakeFlags) : Moves s (startSlot v label origin p flags t) := by
  unfold Machine.startSlot
  split
  · exact moves
  case h_2 i empty =>
    dsimp only
    have started : Moves s
        (setSlot i (some (freshTake v label origin p flags t))
          { t with takes := { t.takes with serial := nextSerial t.takes.serial } }) := by
      refine ⟨moves.day, fun j w holds => ?_, moves.closed, fun single => oneOpenTake_setSlot (calm single) i _ _⟩
      rw [setSlot_slots] at holds
      split at holds
      · cases holds
        have begun := begun_freshTake v label origin p flags t
        rw [moves.day] at begun
        exact .inr begun
      · exact moves.takes j w holds
    have raised := started.revises (revises_raise .takeStarted _)
    split
    · exact raised.revises (revises_markOriginLost i _)
    · exact raised

/-- A start becomes pending where, if at most one take was open before, none is open (R59). -/
theorem Moves.makePending (calm : OneOpenTake s → ∀ i : Fin 3, isOpen t.takes.slots[i] = false) (q : PendingStart) :
    Moves s (makePending q t) where
  day := moves.day
  takes := moves.takes
  closed := moves.closed
  one single := ⟨fun i _ openI => absurd openI (Bool.eq_false_iff.mp (calm single i)), fun _ => calm single⟩

/-- The promotion test starts a slot only from a pending start, beside which no take is open (R60). -/
theorem Moves.promote (v : RingView) : Moves s (promote v t) := by
  unfold Machine.promote
  split
  case h_1 q start =>
    split
    · refine (moves.revises (revises_dropPending t)).startSlot (fun single => ⟨?_, rfl⟩) _ _ _ _ _
      exact (moves.one single).none_pending (by rw [start]; rfl)
    · exact moves
  case h_2 => exact moves

theorem Moves.startLocal (calm : OneOpenTake s → Calm t) (v : RingView) (src : Source) :
    Moves s (startLocal v src t) := by
  unfold Machine.startLocal
  dsimp only
  split
  · exact moves.startSlot calm _ _ _ _ _
  · exact moves.makePending (fun single => (calm single).slots) _

end

theorem calm_of_idle {s : State} (idle : enginePhase s = .idle) : Calm s := by
  obtain ⟨noOpen, noStart⟩ := enginePhase_idle idle
  exact ⟨(openSlot_eq_none_iff s).mp noOpen, noStart⟩

/-- A cut of a POST take leaves it CLOSING (R71). -/
theorem cutPostRoll_closes {s : State} {i : Fin 3} {u : Take} (holds : s.takes.slots[i] = some u)
    (post : u.phase = .post) (c : Nat) : isOpen (cutPostRoll i c s).takes.slots[i] = false := by
  unfold cutPostRoll
  split
  case h_1 empty => cases empty.symm.trans holds
  case h_2 v held =>
    cases held.symm.trans holds
    rw [if_pos post]
    dsimp only
    rw [closeSlot_slots, if_pos rfl]
    rfl

/-- A cut leaves no take open where at most the one in its slot was, and that one was not ROLLING (R71). -/
theorem calm_cutPostRoll {s : State} {i : Fin 3} (c : Nat) (others : ∀ j, j ≠ i → isOpen s.takes.slots[j] = false)
    (notRolling : ∀ u, s.takes.slots[i] = some u → u.phase ≠ .rolling) (noStart : s.takes.pendingStart = none) :
    Calm (cutPostRoll i c s) := by
  have revises := revises_cutPostRoll i c s
  refine ⟨fun j => ?_, revises.pendingStart noStart⟩
  by_cases here : j = i
  · subst here
    cases holds : s.takes.slots[j] with
    | none => rw [revises.empty holds]; rfl
    | some u =>
      cases phase : u.phase with
      | rolling => exact absurd phase (notRolling u holds)
      | closing => exact revises.closing (by rw [holds]; simp [isOpen, phase])
      | post => exact cutPostRoll_closes holds phase c
  · exact revises.closing (others j here)

/-- Where at most one take is open and it is the one in slot i, the other slots hold none and no start is pending. -/
theorem others_of_oneOpenTake {s : State} (single : OneOpenTake s) {i : Fin 3} (isOpenTake : isOpen s.takes.slots[i] = true) :
    (∀ j, j ≠ i → isOpen s.takes.slots[j] = false) ∧ s.takes.pendingStart = none := by
  refine ⟨fun j other => Bool.eq_false_iff.mpr fun openJ => other (single.one j i openJ isOpenTake), ?_⟩
  by_contra start
  exact Bool.false_ne_true
    ((single.none_pending (Option.isSome_iff_ne_none.mpr start) i).symm.trans isOpenTake)

/-- A local START starts nothing beside an open take: in POST it cuts the post-roll first (R62, R63). -/
theorem moves_localStart (v : RingView) (src : Source) (s : State) : Moves s (localStart v src s).2 := by
  unfold localStart
  split
  case h_1 idle =>
    split
    · exact (revises_raise _ s).moves
    · exact (Moves.refl s).startLocal (fun _ => calm_of_idle idle) v src
  case h_2 phase =>
    obtain ⟨i, u, isOpenSlot, holds, post⟩ := enginePhase_post phase
    split
    · exact (revises_raise _ s).moves
    · rw [isOpenSlot]
      refine (revises_cutPostRoll i _ s).moves.startLocal (fun single => ?_) v src
      obtain ⟨others, noStart⟩ := others_of_oneOpenTake single (openSlot_eq_some isOpenSlot)
      refine calm_cutPostRoll _ others (fun w held => ?_) noStart
      cases holds.symm.trans held
      rw [post]
      decide
  case h_3 => exact .refl s
  case h_4 => exact .refl s

theorem revises_localStop (s : State) : Revises s (localStop s).2 := by
  unfold localStop
  split
  · split
    · exact revises_applyStop _ _ s
    · exact .refl s
  · exact revises_dropPending s
  · exact .refl s
  · exact .refl s

theorem moves_cueRequest (kind : CueKind) (s : State) : Moves s (cueRequest kind s) := by
  cases kind with
  | start => exact moves_localStart _ _ s
  | stop => exact (revises_localStop s).moves

/-! ### The arrival of a frame (R39, R60, R68 to R70) -/

theorem moves_promoteAtStamp (s : State) : Moves s (promoteAtStamp s) := by
  have counted : Moves s { s with orders := s.orders + 1 } := moves_of_takes rfl rfl
  unfold promoteAtStamp
  split
  · split
    · exact counted
    · exact counted.promote _
  · exact .refl s

theorem moves_fireCue (s : State) : Moves s (fireCue s) := by
  unfold fireCue
  split
  · split
    · refine Moves.trans ?_ (moves_cueRequest _ _)
      exact moves_of_takes rfl rfl
    · exact .refl s
  · exact .refl s

theorem moves_metFrame (s : State) : Moves s (metFrame s) := by
  have stamped : Revises s (stampFrame s) := by
    refine revises_of_takes ?_ (by simp only [stampFrame_frame])
    rw [stampFrame_counter]
  exact ((stamped.trans (revises_takeArrival _)).moves.trans (moves_promoteAtStamp _)).trans (moves_fireCue _)

theorem moves_arriveFrame_of_run (f : FrameIn) {s : State} (run : s.inRun = true) : Moves s (arriveFrame f s) := by
  rw [arriveFrame_of_run f s run]
  have mixed : Revises (metFrame s) (mixedFrame f s) := by
    apply revises_of_takes <;> simp only [mixedFrame_frame]
  exact (((moves_metFrame s).revises (mixed.trans (revises_offerFrame _ _))).promote _).revises (revises_finish s _)

/-! ### Followed announcements (R111 to R119) -/

section

variable {s t : State} (moves : Moves s t)

include moves

theorem Moves.pendAnnounced (calm : OneOpenTake s → Calm t) (x : Identity) (reached : Bool) :
    Moves s (pendAnnounced x reached t) :=
  (moves.makePending (fun single => (calm single).slots) _).promote _

theorem Moves.followRolling (calm : OneOpenTake s → Calm t) (x : Identity) : Moves s (followRolling x t) := by
  unfold Machine.followRolling
  split_ifs
  · exact moves.revises (revises_raise _ t)
  · exact moves.pendAnnounced calm _ _
  · exact moves.startSlot calm _ _ _ _ _
  · exact moves.pendAnnounced calm _ _

theorem Moves.lateJoin (calm : OneOpenTake s → Calm t) (x : Identity) (e : Nat) : Moves s (lateJoin x e t) := by
  unfold Machine.lateJoin
  split_ifs
  · exact moves.revises (revises_raise _ t)
  · exact moves.pendAnnounced calm _ _
  · split
    · exact (moves.startSlot calm _ _ _ _ _).revises (revises_applyStop _ _ _)
    · exact moves.pendAnnounced calm _ _

theorem Moves.followIdle (calm : OneOpenTake s → Calm t) (p : Fin 8) (a : Announced) : Moves s (followIdle p a t) := by
  unfold Machine.followIdle
  split
  · split
    · exact moves.lateJoin calm _ _
    · exact moves.followRolling calm _
  · exact moves.followRolling calm _

/-- A new take during post-roll starts after the cut of the only open take, which is not ROLLING (R116). -/
theorem Moves.newTake {i : Fin 3}
    (only : OneOpenTake s → (∀ j, j ≠ i → isOpen t.takes.slots[j] = false) ∧ t.takes.pendingStart = none)
    (notRolling : ∀ u, t.takes.slots[i] = some u → u.phase ≠ .rolling) (p : Fin 8) (a : Announced) :
    Moves s (newTake p a i t) := by
  refine (moves.revises (revises_cutPostRoll i _ t)).followIdle (fun single => ?_) p a
  obtain ⟨others, noStart⟩ := only single
  exact calm_cutPostRoll _ others notRolling noStart

end

theorem revises_sameTake (p : Fin 8) (a : Announced) (i : Fin 3) (s : State) : Revises s (sameTake p a i s) := by
  unfold sameTake
  split
  · split
    · exact revises_applyStop _ _ s
    · exact .refl s
  · exact .refl s

theorem revises_mergeInto (x : Identity) {i : Fin 3} {u : Take} {s : State} (holds : s.takes.slots[i] = some u) :
    Revises s (mergeInto x i u s) := by
  have merged := (revises_setSlot holds (revised_mergeTake s (audioOutstanding s i) x u)).trans (revises_raise .merged _)
  unfold mergeInto
  dsimp only
  split
  · exact merged.trans (revises_markOriginLost i _)
  · exact merged

theorem moves_meetPending (a : Announced) (q : PendingStart) {s : State} (noOpen : openSlot s = none) :
    Moves s (meetPending a q s) := by
  unfold meetPending
  split_ifs
  · exact .refl s
  · exact (((Moves.refl s).makePending (fun _ => (openSlot_eq_none_iff s).mp noOpen) _).revises (revises_raise _ _)).promote _
  · exact .refl s

theorem moves_meetAnnouncement (p : Fin 8) (a : Announced) (s : State) : Moves s (meetAnnouncement p a s) := by
  unfold meetAnnouncement
  split
  case h_1 i isOpenSlot =>
    split
    · exact .refl s
    case h_2 u holds =>
      split_ifs with same new precedes
      · exact (revises_sameTake p a i s).moves
      · refine (Moves.refl s).newTake (fun single => others_of_oneOpenTake single (openSlot_eq_some isOpenSlot))
          (fun w held => ?_) p a
        cases holds.symm.trans held
        rw [new.1]
        decide
      · exact (revises_mergeInto _ holds).moves.revises (revises_sameTake p a i _)
      · exact .refl s
  case h_2 noOpen =>
    split
    · exact moves_meetPending a _ noOpen
    case h_2 noStart =>
      exact (Moves.refl s).followIdle (fun _ => ⟨(openSlot_eq_none_iff s).mp noOpen, noStart⟩) p a

theorem departing_eq_some {p : Fin 8} {s : State} {i : Fin 3} (departs : departing p s = some i) :
    openSlot s = some i ∧ ∃ u, s.takes.slots[i] = some u ∧ u.phase = .rolling := by
  unfold departing at departs
  split at departs
  · split at departs
    · split at departs
      · cases departs
        exact ⟨‹_›, _, ‹_›, (‹_ ∧ _› : _ ∧ _).1⟩
      · cases departs
    · cases departs
  · cases departs

/-- A take stopped at the newest position is not ROLLING (R68, R115). -/
theorem depart_not_rolling {s : State} {i : Fin 3} {u : Take} (holds : s.takes.slots[i] = some u)
    (rolling : u.phase = .rolling) : ∀ v, (depart i s).takes.slots[i] = some v → v.phase ≠ .rolling := by
  intro v held
  rw [depart, applyStop_of_rolling holds rolling, stopTake_newest] at held
  split at held
  · rw [setSlot_slots, if_pos rfl] at held
    cases held
    exact nofun
  · rw [closeSlot_slots, if_pos rfl] at held
    cases held
    exact nofun

theorem moves_afterDeparture (p : Fin 8) (a : Announced) {i : Fin 3} {s : State} (departs : departing p s = some i) :
    Moves s (afterDeparture p a i (depart i s)) := by
  obtain ⟨isOpenSlot, u, holds, rolling⟩ := departing_eq_some departs
  have stopped : Revises s (depart i s) := revises_applyStop _ _ s
  unfold afterDeparture
  split
  · refine stopped.moves.newTake (fun single => ?_) (depart_not_rolling holds rolling) p a
    obtain ⟨others, noStart⟩ := others_of_oneOpenTake single (openSlot_eq_some isOpenSlot)
    exact ⟨fun j other => stopped.closing (others j other), stopped.pendingStart noStart⟩
  · exact stopped.moves

theorem moves_takeAnnouncement (p : Fin 8) (f : StatusFields) (s : State) : Moves s (takeAnnouncement p f s) := by
  unfold takeAnnouncement
  split
  · split
    · exact (revises_applyStop _ _ s).moves
    · exact .refl s
  · split_ifs
    · exact .refl s
    · exact .refl s
    · split
      case h_1 departs =>
        split
        · exact moves_afterDeparture p _ departs
        · exact moves_meetAnnouncement p _ s
      case h_2 => exact moves_meetAnnouncement p _ s

/-! ### Received frames (R97, R98) -/

theorem moves_takeStatus (p : Fin 8) (payload : List Byte) (arrival : Nat) (s : State) :
    Moves s (takeStatus p payload arrival s) := by
  unfold takeStatus
  dsimp only
  have applied : Moves s (applyStatus p (readStatusPayload payload) arrival s) :=
    Revises.moves (by apply revises_of_takes <;> simp only [applyStatus_frame])
  have tested (t : State) : Revises t (testCatchUp p (readStatusPayload payload).highWater t) := by
    apply revises_of_takes <;> simp only [testCatchUp_frame]
  split
  · exact (applied.trans (moves_takeAnnouncement p _ _)).revises (tested _)
  · exact applied.revises (tested _)

theorem revises_acceptNote (p : Fin 8) (n : Note) (s : State) : Revises s (acceptNote p n s) := by
  unfold acceptNote
  dsimp only
  split_ifs
  · exact revises_of_takes rfl rfl
  · have stored : Revises s (storeNote n s) := revises_of_takes rfl rfl
    refine (stored.trans (revises_tryAttach n _)).trans ?_
    apply revises_of_takes <;> simp only [setHeard_frame, raise_counter, raise_takes]
  · exact revises_of_takes rfl rfl

theorem revises_takePeerNote (p : Fin 8) (payload : List Byte) (s : State) : Revises s (takePeerNote p payload s) := by
  have rejected (q : Nat) : Revises s (rejectNote p q s) := by apply revises_of_takes <;> simp only [rejectNote_frame]
  unfold takePeerNote
  dsimp only
  split
  · exact .refl s
  · split
    · exact rejected _
    · split
      · exact revises_acceptNote p _ s
      · exact rejected _

theorem moves_handOn (kind : Byte) (p : Fin 8) (payload : List Byte) (arrival : Nat) (s : State) :
    Moves s (handOn kind p payload arrival s) := by
  unfold handOn
  split
  · exact moves_takeStatus p payload arrival s
  · refine Revises.moves (Revises.trans ?_ (revises_takePeerNote p payload _))
    apply revises_of_takes <;> simp only [applyRun_frame]
  · exact Revises.moves (by apply revises_of_takes <;> simp only [takeRequest_frame])
  · exact Revises.moves (by apply revises_of_takes <;> simp only [takeGone_frame])

theorem moves_processFrame (kind : Byte) (f : HeardFrame) (arrival : Nat) (s : State) :
    Moves s (processFrame kind f arrival s) := by
  unfold processFrame
  split_ifs
  · exact Revises.moves (by apply revises_of_takes <;> rfl)
  · exact Revises.moves (by apply revises_of_takes <;> rfl)
  · refine Moves.trans ?_ (moves_handOn _ _ _ _ _)
    exact Revises.moves (by apply revises_of_takes <;> simp only [peerHeard_frame])

theorem moves_endReception (s : State) : Moves s (endReception s) := by
  have ready : Moves s { s with link := { s.link with receiver := .ready } } := moves_of_takes rfl rfl
  unfold endReception
  dsimp only
  split
  · split
    · exact ready.trans (moves_processFrame _ _ _ _)
    · exact moves_of_takes rfl rfl
  · exact moves_of_takes rfl rfl
  · exact ready

theorem moves_heard {s u : State} (alike : Alike s u) : Moves s (finish u (endReception (becomeIdle u))) := by
  have idle : Revises u (becomeIdle u) := by apply revises_of_takes <;> simp only [becomeIdle_frame]
  exact ((alike.revises.trans idle).moves.trans (moves_endReception _)).revises (revises_finish u _)

/-! ### Successful completions (R60, R76, R167) -/

theorem moves_contentWritten (addr : Nat) (content : Content) (s : State) : Moves s (contentWritten addr content s) := by
  unfold contentWritten
  split
  · exact (revises_modifySlot _ (revised_writtenReport _ addr _)).moves
  · exact moves_of_takes rfl rfl
  · exact ((revises_clearSlot _ s).trans (revises_raise _ _)).moves.promote _
  · exact moves_of_takes rfl rfl

theorem moves_completeOk (w : Write) (s : State) : Moves s (completeOk w s) := by
  have counted : Moves s (advanceCursor (clearFlight s)) := by
    refine Revises.moves (Revises.trans ?_ (revises_advanceCursor _))
    exact revises_of_takes rfl rfl
  unfold completeOk
  dsimp only
  split
  · exact counted
  · have written := counted.trans (moves_contentWritten w.addr w.content _)
    split
    · refine written.revises ?_
      apply revises_of_takes <;> simp only [retrySucceeded_frame]
    · exact written

end Sys2Proof.Proofs
end

section
/-! PROOFS. The invariants of takes: at most one is open, every position is counted once, and the records stay within their limits
(R55, R56, R59, R78, R110). -/

namespace Sys2Proof.Proofs

open Sys2Proof Sys2Proof.Machine Sys2Proof.Safety

/-! ### What each effect does to the takes -/

/-- Every slot EMPTY, no pending start, no closed identity: the takes after a reset and after CAPTURE RESTART (R82, R110). -/
structure TakesCleared (s : State) : Prop where
  slots : ∀ i : Fin 3, s.takes.slots[i] = none
  pendingStart : s.takes.pendingStart = none
  closed : s.takes.closed.length ≤ Config.maxClosed

theorem takesCleared_restart (strap : Fin 8) (s : State) : TakesCleared (restart strap s) := by
  refine ⟨fun i => ?_, rfl, Nat.zero_le _⟩
  change (Vector.replicate 3 none)[i] = none
  exact Vector.getElem_replicate i.isLt

theorem TakesCleared.revises {s t : State} (cleared : TakesCleared s) (revises : Revises s t) : TakesCleared t :=
  ⟨fun i => revises.empty (cleared.slots i), revises.pendingStart cleared.pendingStart, revises.closed cleared.closed⟩

theorem takesCleared_restartAll (s : State) : TakesCleared (restartAll s) := by
  have emptied : (restartAll s).takes =
      { s.takes with slots := Vector.replicate 3 none, pendingStart := none, closed := [] } := by
    simp only [restartAll, restartNotes_takes, restartWriter_takes, restartMix_takes, emptyRing_takes, restartTakes,
      raiseIf_frame]
  refine ⟨fun i => ?_, by rw [emptied], by rw [emptied]; exact Nat.zero_le _⟩
  rw [emptied]
  exact Vector.getElem_replicate i.isLt

theorem revises_storeLocal (n : Note) (s : State) : Revises s (storeLocal n s) := by
  have stored : Revises s (storeNote n { s with store := { s.store with seq := s.store.seq + 1 } }) := revises_of_takes rfl rfl
  unfold storeLocal
  refine (stored.trans (revises_tryAttach n _)).trans ?_
  apply revises_of_takes <;> simp only [queueFrame_frame]

theorem revises_requestStatus (s : State) : Revises s (requestStatus s) := by
  apply revises_of_takes <;> simp only [requestStatus_frame]

theorem revises_enterRun (s : State) : Revises s (enterRun s) := by
  unfold enterRun
  refine Revises.trans ?_ (revises_requestStatus _)
  refine Revises.trans ?_ (revises_setSpace _)
  exact revises_of_takes rfl rfl

theorem revises_loseOrigin (p : Fin 8) (s : State) : Revises s (loseOrigin p s) := by
  unfold loseOrigin
  split
  · split
    · exact revises_markOriginLost _ s
    · exact .refl s
  · exact .refl s

theorem revises_peerAbsent (p : Fin 8) (s : State) : Revises s (peerAbsent p s) := by
  unfold peerAbsent
  split
  · refine Revises.trans ?_ (revises_loseOrigin p _)
    exact revises_of_takes rfl rfl
  · exact .refl s

theorem moves_endRequest {s : State} {r : ResponseCode × State} (moves : Moves s r.2) : Moves s (endRequest s r) := by
  unfold endRequest
  split
  · exact moves.revises (revises_finish s _)
  · exact moves

theorem moves_arriveFrame (f : FrameIn) (s : State) : Moves s (arriveFrame f s) := by
  cases run : s.inRun with
  | true => exact moves_arriveFrame_of_run f run
  | false =>
    rw [arriveFrame_of_not_inRun f run]
    refine moves_of_takes ?_ ?_
    · rw [sendMix_counter, stampFrame_counter]
    · simp only [sendMix_takes, stampFrame_frame]

/-- An effect moves the takes by their operations, clears them, or is a CONFIGURE CLOCK that leaves them (R28). -/
theorem Effect.takes {s t : State} (effect : Effect s t) :
    Moves s t ∨ TakesCleared t ∨ (s.port.phase = .setup ∧ t.takes = s.takes) := by
  cases effect with
  | stands => exact .inl (.refl s)
  | restarted strap => exact .inr (.inl (takesCleared_restart strap s))
  | arrived f => exact .inl (moves_arriveFrame f s)
  | promoted run => exact .inl (((Moves.refl s).promote _).revises (revises_finish s _))
  | started run src => exact .inl (moves_endRequest (moves_localStart _ src s))
  | stopped run => exact .inl (moves_endRequest (revises_localStop s).moves)
  | completed flight => exact .inl ((moves_completeOk _ s).revises (revises_finish s _))
  | failed flight => exact .inl ((revises_completeFailed _ s).trans (revises_finish s _)).moves
  | decided => exact .inl (revises_makeDecision s).moves
  | heard alike rests => exact .inl (moves_heard alike)
  | absent p => exact .inl (revises_peerAbsent p s).moves
  | clockConfigured setup a => exact .inr (.inr ⟨setup, by simp only [configureClock_frame]⟩)
  | gateSet a => exact .inl (by apply moves_of_takes <;> simp only [setGate_frame])
  | jammed a =>
    refine .inl (moves_of_takes ?_ (by simp only [jamTimecode_frame]))
    unfold jamTimecode
    dsimp only
    split_ifs <;> rfl
  | committed setup => exact .inl (revises_enterRun s).moves
  | noted run n => exact .inl ((revises_storeLocal n s).trans (revises_finish s _)).moves
  | retried run => exact .inl (moves_of_takes rfl rfl)
  | abandoned run => exact .inr (.inl ((takesCleared_restartAll s).revises (revises_finish s _)))

/-! ### At most one open take (R55, R59) -/

theorem TakesCleared.oneOpenTake {s : State} (cleared : TakesCleared s) : OneOpenTake s :=
  Calm.oneOpenTake ⟨fun i => by rw [cleared.slots i]; rfl, cleared.pendingStart⟩

theorem oneOpenTake_congr {s t : State} (slots : t.takes.slots = s.takes.slots)
    (start : t.takes.pendingStart = s.takes.pendingStart) (single : OneOpenTake s) : OneOpenTake t where
  one := by rw [slots]; exact single.one
  none_pending := by rw [slots, start]; exact single.none_pending

/-- Settles O56: operations that start a take do so beside no open one and drop the pending start, the others open none. -/
theorem atMostOneTakeIsOpen : Obligations.AtMostOneTakeIsOpen := by
  unfold Obligations.AtMostOneTakeIsOpen
  refine keptByEveryStep_of_effects (fun s t alike => oneOpenTake_congr alike.slots alike.pendingStart)
    fun s t single effect => ?_
  rcases effect.takes with moves | cleared | ⟨-, same⟩
  · exact moves.one single
  · exact cleared.oneOpenTake
  · exact oneOpenTake_congr (by rw [same]) (by rw [same]) single

/-! ### Every position counted once (R78) -/

/-- Every take of the state is accounted (R78). -/
def AllAccounted (s : State) : Prop := ∀ (i : Fin 3) (u : Take), s.takes.slots[i] = some u → Accounted s.day u

theorem Moves.allAccounted {s t : State} (moves : Moves s t) (accounted : AllAccounted s) : AllAccounted t := by
  intro i v holds
  rw [moves.day]
  rcases moves.takes i v holds with ⟨u, held, revised⟩ | begun
  · exact revised.accounted (accounted i u held)
  · exact begun.accounted

theorem allAccounted_of_empty {s : State} (empty : ∀ i : Fin 3, s.takes.slots[i] = none) : AllAccounted s := by
  intro i u holds
  cases (empty i).symm.trans holds

theorem setGate_phase (a : Nat × GateSettings) (s : State) : (setGate a s).port.phase = s.port.phase := by
  unfold setGate
  split <;> rfl

theorem jamTimecode_phase (a : Nat × Nat × Nat × Nat) (s : State) : (jamTimecode a s).port.phase = s.port.phase := by
  unfold jamTimecode
  dsimp only
  split_ifs <;> rfl

/-- No take and no write in flight (R55). -/
def NothingHeld (s : State) : Prop := (∀ i : Fin 3, s.takes.slots[i] = none) ∧ s.writer.inFlight = none

theorem NothingHeld.congr {s t : State} (held : NothingHeld s) (takes : t.takes = s.takes)
    (writer : t.writer.inFlight = s.writer.inFlight) : NothingHeld t := by
  unfold NothingHeld
  rw [takes, writer]
  exact held

/-- An effect that is over in SETUP leaves no take and no write where there was none, or began in RUN as the RESET line does
(R176). -/
theorem Effect.quiet {s t : State} (effect : Effect s t) (quiet : s.port.phase = .setup → NothingHeld s)
    (setup : t.port.phase = .setup) : NothingHeld t := by
  have not_run {u : State} (run : s.inRun = true) (port : u.port = s.port) (ended : u.port.phase = .setup) :
      NothingHeld u := by
    rw [port] at ended
    cases (inRun_of_setup ended).symm.trans run
  cases effect with
  | stands => exact quiet setup
  | restarted strap => exact ⟨(takesCleared_restart strap s).slots, rfl⟩
  | arrived f =>
    have began : s.port.phase = .setup := by simpa only [arriveFrame_frame] using setup
    rw [arriveFrame_of_not_inRun f (inRun_of_setup began)]
    apply (quiet began).congr <;> simp only [sendMix_takes, sendMix_writer, stampFrame_frame]
  | promoted run => exact not_run run (by simp only [finish_frame, promote_frame]) setup
  | started run src => exact not_run run (by simp only [endRequest_frame, localStart_frame]) setup
  | stopped run => exact not_run run (by simp only [endRequest_frame, localStop_frame]) setup
  | completed flight =>
    have began : s.port.phase = .setup := by simpa only [finish_frame, completeOk_frame] using setup
    cases (quiet began).2.symm.trans flight
  | failed flight =>
    have began : s.port.phase = .setup := by simpa only [finish_frame, completeFailed_frame] using setup
    cases (quiet began).2.symm.trans flight
  | decided =>
    have began : s.port.phase = .setup := by simpa only [makeDecision_frame] using setup
    rw [makeDecision, mayIssue, inRun_of_setup began, Bool.false_and, Bool.false_and, Bool.false_and, if_neg Bool.false_ne_true]
    exact quiet began
  | @heard u alike rests =>
    have ended : u.port.phase = .setup := by simpa only [finish_frame, endReception_frame, becomeIdle_frame] using setup
    rw [mayRest, inRun_of_setup ended, Bool.false_and, Bool.false_and] at rests
    cases rests
  | absent p =>
    have began : s.port.phase = .setup := by simpa only [peerAbsent_frame] using setup
    refine ⟨fun i => (revises_peerAbsent p s).empty ((quiet began).1 i), ?_⟩
    simp only [peerAbsent_frame, (quiet began).2]
  | clockConfigured began a => apply (quiet began).congr <;> simp only [configureClock_frame]
  | gateSet a =>
    have began : s.port.phase = .setup := by rw [← setGate_phase a s]; exact setup
    apply (quiet began).congr <;> simp only [setGate_frame]
  | jammed a =>
    have began : s.port.phase = .setup := by rw [← jamTimecode_phase a s]; exact setup
    apply (quiet began).congr <;> simp only [jamTimecode_frame]
  | committed began =>
    have entered : (enterRun s).port.phase = .run := by simp only [enterRun, requestStatus_frame, setSpace_frame]
    cases entered.symm.trans setup
  | noted run n => exact not_run run (by simp only [finish_frame, storeLocal_frame]) setup
  | retried run => exact not_run run (by simp only [issueWrite_port]) setup
  | abandoned run => exact not_run run (by simp only [finish_frame, restartAll_frame]) setup

/-- Settles O57: a take begins accounted, and a gap, a write report and a merge count what they move the take past. -/
theorem everyPositionIsAccounted : Obligations.EveryPositionIsAccounted := by
  unfold Obligations.EveryPositionIsAccounted
  refine keptByEveryStep_of_effects (fun s t alike accounted => ⟨?_, ?_⟩)
    fun s t accounted effect => ⟨effect.quiet accounted.quiet, ?_⟩
  · rw [alike.phase, alike.slots, alike.inFlight]
    exact accounted.quiet
  · rw [alike.slots, alike.day]
    exact accounted.sum
  · rcases effect.takes with moves | cleared | ⟨setup, same⟩
    · exact moves.allAccounted accounted.sum
    · exact allAccounted_of_empty cleared.slots
    · refine allAccounted_of_empty fun i => ?_
      rw [same]
      exact (accounted.quiet setup).1 i

/-! ### The take records and the closed-identity list (R56, R110) -/

theorem recordsBounded_kept : KeptByEveryStep RecordsBounded := by
  refine keptByEveryStep_of_effects (fun s t alike bounded => ⟨?_, ?_⟩) fun s t bounded effect => ?_
  · rw [alike.slots]
    exact bounded.takes
  · rw [alike.closed]
    exact bounded.closed
  · rcases effect.takes with moves | cleared | ⟨-, same⟩
    · refine ⟨fun i v holds => ?_, moves.closed bounded.closed⟩
      rcases moves.takes i v holds with ⟨u, held, revised⟩ | begun
      · exact revised.bounded (bounded.takes i u held)
      · exact begun.bounded
    · exact ⟨fun i v holds => absurd ((cleared.slots i).symm.trans holds) nofun, cleared.closed⟩
    · exact ⟨by rw [same]; exact bounded.takes, by rw [same]; exact bounded.closed⟩

end Sys2Proof.Proofs
end

section
/-! PROOFS. The ring and the mix stay within their limits: a full ring drops its oldest frame or takes none, and every gain move ends
between 0 and its target or full gain (R44, R144, R149, R151, R153). -/

namespace Sys2Proof.Proofs

open Sys2Proof Sys2Proof.Machine Sys2Proof.Safety

/-- An effect leaves ring and mix, or is one of the five that do not. -/
theorem Effect.ring_and_mixer {s t : State} (effect : Effect s t) :
    (t.ring.frames = s.ring.frames ∧ t.mixer = s.mixer) ∨ (∃ f, t = arriveFrame f s) ∨ (∃ strap, t = restart strap s) ∨
      (∃ a, t = setGate a s) ∨ (∃ a, t = jamTimecode a s) ∨ t = finish s (restartAll s) := by
  cases effect with
  | stands => exact .inl ⟨rfl, rfl⟩
  | restarted strap => exact .inr (.inr (.inl ⟨strap, rfl⟩))
  | arrived f => exact .inr (.inl ⟨f, rfl⟩)
  | promoted run => left; simp only [finish_frame, promote_frame, and_self]
  | started run src => left; simp only [endRequest_frame, localStart_frame, and_self]
  | stopped run => left; simp only [endRequest_frame, localStop_frame, and_self]
  | completed flight => left; simp only [finish_frame, completeOk_frame, and_self]
  | failed flight => left; simp only [finish_frame, completeFailed_frame, and_self]
  | decided => left; simp only [makeDecision_frame, and_self]
  | heard alike rests =>
    left
    simp only [finish_frame, endReception_frame, becomeIdle_frame]
    exact ⟨alike.frames, alike.mixer⟩
  | absent p => left; simp only [peerAbsent_frame, and_self]
  | clockConfigured setup a => left; simp only [configureClock_frame, and_self]
  | gateSet a => exact .inr (.inr (.inr (.inl ⟨a, rfl⟩)))
  | jammed a => exact .inr (.inr (.inr (.inr (.inl ⟨a, rfl⟩))))
  | committed setup => left; simp only [enterRun_frame, and_self]
  | noted run n => left; simp only [finish_frame, storeLocal_frame, and_self]
  | retried run => exact .inl ⟨rfl, rfl⟩
  | abandoned run => exact .inr (.inr (.inr (.inr (.inr rfl))))

/-! ### The ring (R44) -/

/-- The ring takes a frame only with room, or in place of its oldest (R44). -/
theorem offerFrame_length (f : RingFrame) {s : State} (bounded : s.ring.frames.length ≤ Config.ringCapacity) :
    (offerFrame f s).ring.frames.length ≤ Config.ringCapacity := by
  have capacity : 0 < Config.ringCapacity := by decide
  unfold offerFrame
  split
  case h_1 append =>
    rw [ringAction] at append
    change (s.ring.frames ++ [f]).length ≤ _
    rw [List.length_append, List.length_singleton]
    split at append
    case isTrue room => exact room
    case isFalse =>
      split at append
      · rw [‹s.ring.frames = []›]
        exact capacity
      · split at append <;> cases append
  case h_2 =>
    change (s.ring.frames.drop 1 ++ [f]).length ≤ _
    rw [List.length_append, List.length_drop, List.length_singleton]
    omega
  case h_3 =>
    rw [overrun_ring]
    exact bounded

theorem ringBounded_arriveFrame (f : FrameIn) {s : State} (bounded : RingBounded s) : RingBounded (arriveFrame f s) := by
  unfold RingBounded at bounded ⊢
  cases run : s.inRun with
  | true =>
    rw [arriveFrame_of_run f s run]
    simp only [finish_frame, promote_frame]
    apply offerFrame_length
    simpa only [mixedFrame_frame, metFrame_frame] using bounded
  | false =>
    rw [arriveFrame_of_not_inRun f run]
    simpa only [sendMix_ring, stampFrame_frame] using bounded

theorem ringBounded_jamTimecode (a : Nat × Nat × Nat × Nat) {s : State} (bounded : RingBounded s) :
    RingBounded (jamTimecode a s) := by
  unfold jamTimecode
  dsimp only
  split_ifs
  · exact bounded
  · exact Nat.zero_le _
  · exact bounded

theorem ringBounded_kept : KeptByEveryStep RingBounded := by
  refine keptByEveryStep_of_effects (fun s t alike bounded => ?_) fun s t bounded effect => ?_
  · rw [RingBounded, alike.frames]
    exact bounded
  · rcases effect.ring_and_mixer with ⟨same, -⟩ | ⟨f, rfl⟩ | ⟨strap, rfl⟩ | ⟨a, rfl⟩ | ⟨a, rfl⟩ | rfl
    · rw [RingBounded, same]
      exact bounded
    · exact ringBounded_arriveFrame f bounded
    · exact Nat.zero_le _
    · simpa only [RingBounded, setGate_frame] using bounded
    · exact ringBounded_jamTimecode a bounded
    · simp only [RingBounded, finish_frame, restartAll, restartNotes_ring, restartWriter_ring, restartMix_ring]
      exact Nat.zero_le _

/-! ### One track of the mix (R149, R151) -/

theorem mixTrackSound_gateUpdate {m : MixTrack} (sound : MixTrackSound m) : MixTrackSound (gateUpdate m) := by
  obtain ⟨settings, hold, gain, closed⟩ := sound
  have counted := settings.closeHold
  unfold gateUpdate
  split
  · split_ifs <;> exact ⟨settings, Nat.zero_le _, gain, closed⟩
  · split_ifs with above within
    · exact ⟨settings, Nat.zero_le _, gain, closed⟩
    · exact ⟨settings, within.trans counted, gain, closed⟩
    · exact ⟨settings, Nat.zero_le _, gain, closed⟩

/-- A gain move toward a target within full gain leaves the track sound, whatever its gain's envelope was before. -/
theorem mixTrackSound_gainMove {target : Nat} (reach : target ≤ Config.fullGain) {m : MixTrack}
    (settings : SettingsInRange m.settings) (hold : m.hold ≤ 255) (gain : m.gain ≤ Config.fullGain) :
    MixTrackSound (gainMove target m) := by
  cases envelope : m.envelope with
  | closed =>
    simp only [gainMove, envelope]
    exact ⟨settings, hold, Nat.zero_le _, fun _ => rfl⟩
  | attack =>
    simp only [gainMove, envelope]
    split_ifs with full
    · exact ⟨settings, hold, Nat.le_refl _, nofun⟩
    · exact ⟨settings, hold, (Nat.not_le.mp full).le, nofun⟩
  | decay =>
    simp only [gainMove, envelope]
    split_ifs
    · exact ⟨settings, hold, reach, nofun⟩
    · exact ⟨settings, hold, (Nat.sub_le _ _).trans gain, nofun⟩
  | held =>
    simp only [gainMove, envelope]
    split_ifs
    · exact ⟨settings, hold, (Nat.min_le_left _ _).trans reach, nofun⟩
    · exact ⟨settings, hold, Nat.max_le.mpr ⟨reach, (Nat.sub_le _ _).trans gain⟩,
        nofun⟩
    · exact ⟨settings, hold, gain, fun closed => by cases envelope.symm.trans closed⟩
  | release =>
    simp only [gainMove, envelope]
    split_ifs
    · exact ⟨settings, hold, Nat.zero_le _, fun _ => rfl⟩
    · exact ⟨settings, hold, (Nat.sub_le _ _).trans gain, nofun⟩

theorem mixTrackSound_envelopeUpdate {target : Nat} (reach : target ≤ Config.fullGain) {m : MixTrack}
    (sound : MixTrackSound m) : MixTrackSound (envelopeUpdate target m) :=
  mixTrackSound_gainMove reach sound.settings sound.hold sound.gain

/-- A target level is a track's sustain or its duck, both within full gain (R150, R153). -/
theorem targetLevel_le (s : State) {gated : Vector MixTrack 16} {i : Fin 16} (sound : MixTrackSound gated[i]) :
    targetLevel s gated i ≤ Config.fullGain := by
  have sustain : gated[i].settings.sustain ≤ Config.fullGain := sound.settings.sustain
  unfold targetLevel
  split
  · exact sound.settings.duck.trans sustain
  · exact sustain

theorem mixBlock_pos : 0 < Config.mixBlock := by decide

/-! ### The mix of a frame (R144, R145, R149 to R151) -/

theorem mixSound_congr {s t : State} (same : t.mixer = s.mixer) (sound : MixSound s) : MixSound t :=
  ⟨by rw [same]; exact sound.tracks, by rw [same]; exact sound.count⟩

theorem mixTrackSound_peak {m : MixTrack} (sound : MixTrackSound m) (p : Nat) : MixTrackSound { m with peak := p } :=
  ⟨sound.settings, sound.hold, sound.gain, sound.closed⟩

theorem mixSound_raisePeaks (conv : Vector Converted 16) {s : State} (sound : MixSound s) :
    MixSound (raisePeaks conv s) := by
  refine ⟨fun i => ?_, sound.count⟩
  simp only [raisePeaks, Fin.getElem_fin, Vector.getElem_ofFn]
  split
  · exact mixTrackSound_peak (sound.tracks i) _
  · exact sound.tracks i

theorem mixTrackSound_gateAll {s : State} (sound : ∀ i : Fin 16, MixTrackSound s.mixer.tracks[i]) (i : Fin 16) :
    MixTrackSound (gateAll s)[i] := by
  simp only [gateAll, Fin.getElem_fin, Vector.getElem_ofFn]
  split
  · exact mixTrackSound_gateUpdate (sound i)
  · exact sound i

theorem blockEndUpdate_tracks (s : State) (i : Fin 16) :
    (blockEndUpdate s).mixer.tracks[i] =
      if mixEnabled s i then { envelopeUpdate (targetLevel s (gateAll s) i) (gateAll s)[i] with peak := 0 }
      else (gateAll s)[i] := by
  simp only [blockEndUpdate, Fin.getElem_fin, Vector.getElem_ofFn]

theorem mixTrackSound_blockEndUpdate {s : State} (sound : ∀ i : Fin 16, MixTrackSound s.mixer.tracks[i]) (i : Fin 16) :
    MixTrackSound (blockEndUpdate s).mixer.tracks[i] := by
  have gated := mixTrackSound_gateAll sound i
  have updated := mixTrackSound_envelopeUpdate (targetLevel_le s gated) gated
  rw [blockEndUpdate_tracks]
  split
  · exact mixTrackSound_peak updated 0
  · exact gated

theorem mixSound_countBlockFrame {s : State} (sound : MixSound s) : MixSound (countBlockFrame s) := by
  unfold countBlockFrame
  split
  case isTrue room => exact ⟨sound.tracks, room⟩
  case isFalse => exact ⟨mixTrackSound_blockEndUpdate sound.tracks, mixBlock_pos⟩

theorem mixSound_mixClip {s : State} (sound : MixSound s) : MixSound (mixClip s) := by
  unfold mixClip offerClip
  split <;> exact ⟨sound.tracks, sound.count⟩

theorem mixSound_mixFrame (conv : Vector Converted 16) {s : State} (sound : MixSound s) :
    MixSound (mixFrame conv s).1 := by
  have sent {t : State} (v : Int) (reached : MixSound t) : MixSound (sendMix v t) := ⟨reached.tracks, reached.count⟩
  unfold mixFrame
  dsimp only
  split
  · refine sent _ (mixSound_countBlockFrame (mixSound_raisePeaks conv ?_))
    split
    · exact mixSound_mixClip sound
    · exact sound
  · exact sent _ sound

theorem mixSound_arriveFrame (f : FrameIn) {s : State} (sound : MixSound s) : MixSound (arriveFrame f s) := by
  cases run : s.inRun with
  | true =>
    obtain ⟨-, -, mixer⟩ := convertedFrame_mix f s
    have mixed : MixSound (mixedFrame f s) := mixSound_mixFrame _ (mixSound_congr mixer sound)
    rw [arriveFrame_of_run f s run]
    refine mixSound_congr ?_ mixed
    simp only [finish_frame, promote_frame, offerFrame_frame]
  | false =>
    rw [arriveFrame_of_not_inRun f run]
    have stamped : MixSound (stampFrame s) := mixSound_congr (by simp only [stampFrame_frame]) sound
    exact ⟨stamped.tracks, stamped.count⟩

/-! ### SET GATE, CAPTURE RESTART and a reset (R153, R156, R188) -/

theorem mixSound_setGate (a : Nat × GateSettings) {s : State} (sound : MixSound s) : MixSound (setGate a s) := by
  unfold setGate
  split
  case h_1 n _ =>
    refine ⟨fun i => ?_, sound.count⟩
    change MixTrackSound (s.mixer.tracks.set n { s.mixer.tracks[n] with settings := normalGate a.2 })[i]
    simp only [Fin.getElem_fin, Vector.getElem_set]
    split
    · obtain ⟨-, hold, gain, closed⟩ := sound.tracks n
      exact ⟨settingsInRange_normalGate a.2, hold, gain, closed⟩
    · exact sound.tracks i
  case h_2 => exact mixSound_congr (s := s) rfl sound

theorem mixSound_restartMix {s : State} (sound : MixSound s) : MixSound (restartMix s) := by
  refine ⟨fun i => ?_, mixBlock_pos⟩
  simp only [restartMix, Fin.getElem_fin, Vector.getElem_ofFn]
  exact ⟨(sound.tracks i).settings, Nat.zero_le _, Nat.zero_le _, fun _ => rfl⟩

theorem mixTrackSound_reset : MixTrackSound MixTrack.reset := by
  refine ⟨⟨?_, ?_, ?_, ?_, ?_, ?_, ?_, ?_⟩, ?_, ?_, ?_⟩ <;> decide

theorem mixSound_restart (strap : Fin 8) (s : State) : MixSound (restart strap s) := by
  refine ⟨fun i => ?_, mixBlock_pos⟩
  change MixTrackSound (Vector.replicate 16 MixTrack.reset)[i]
  rw [Fin.getElem_fin, Vector.getElem_replicate]
  exact mixTrackSound_reset

theorem mixSound_kept : KeptByEveryStep MixSound := by
  refine keptByEveryStep_of_effects (fun s t alike => mixSound_congr alike.mixer) fun s t sound effect => ?_
  rcases effect.ring_and_mixer with ⟨-, same⟩ | ⟨f, rfl⟩ | ⟨strap, rfl⟩ | ⟨a, rfl⟩ | ⟨a, rfl⟩ | rfl
  · exact mixSound_congr same sound
  · exact mixSound_arriveFrame f sound
  · exact mixSound_restart strap s
  · exact mixSound_setGate a sound
  · exact mixSound_congr (by simp only [jamTimecode_frame]) sound
  · have restarted : MixSound (restartMix (emptyRing (restartTakes s))) :=
      mixSound_restartMix (mixSound_congr (by simp only [emptyRing_mixer, restartTakes_frame]) sound)
    refine mixSound_congr ?_ restarted
    simp only [finish_frame, restartAll, restartNotes_mixer, restartWriter_mixer]

/-- Settles O58: the records by what every take operation keeps, the ring by its own action, the mix by the gain moves. -/
theorem recordsRingAndMixStayBounded : Obligations.RecordsRingAndMixStayBounded := by
  unfold Obligations.RecordsRingAndMixStayBounded
  exact ⟨recordsBounded_kept, ringBounded_kept, mixSound_kept⟩

end Sys2Proof.Proofs
end

section
/-! PROOFS. What the end of an event leaves of the take engine, what its decision says of an index record, and what a start makes
of an EMPTY slot (R60, R62, R67, R160, R161, R164). -/

namespace Sys2Proof.Proofs

open Sys2Proof Sys2Proof.Machine Sys2Proof.Safety

/-! ### Operations that change take records alone -/

/-- The take engine of t is that of s but for the records in its slots. -/
def SlotsAlone (s t : State) : Prop := ∃ slots, t.takes = { s.takes with slots := slots }

theorem slotsAlone_of_takes {s t : State} (takes : t.takes = s.takes) : SlotsAlone s t := ⟨s.takes.slots, takes⟩

theorem SlotsAlone.refl (s : State) : SlotsAlone s s := slotsAlone_of_takes rfl

theorem SlotsAlone.trans {s t u : State} (first : SlotsAlone s t) (second : SlotsAlone t u) : SlotsAlone s u := by
  obtain ⟨_, first⟩ := first
  obtain ⟨slots, second⟩ := second
  exact ⟨slots, by rw [second, first]⟩

section

variable {s t : State} (h : SlotsAlone s t)

include h

theorem SlotsAlone.pendingStart : t.takes.pendingStart = s.takes.pendingStart := by
  obtain ⟨_, takes⟩ := h
  rw [takes]

theorem SlotsAlone.serial : t.takes.serial = s.takes.serial := by
  obtain ⟨_, takes⟩ := h
  rw [takes]

theorem SlotsAlone.scene : t.takes.scene = s.takes.scene := by
  obtain ⟨_, takes⟩ := h
  rw [takes]

theorem SlotsAlone.nextTake : t.takes.nextTake = s.takes.nextTake := by
  obtain ⟨_, takes⟩ := h
  rw [takes]

theorem SlotsAlone.closed : t.takes.closed = s.takes.closed := by
  obtain ⟨_, takes⟩ := h
  rw [takes]

end

theorem slotsAlone_setSlot (i : Fin 3) (u : Option Take) (s : State) : SlotsAlone s (setSlot i u s) := ⟨_, rfl⟩

theorem slotsAlone_modifySlot (i : Fin 3) (f : Take → Take) (s : State) : SlotsAlone s (modifySlot i f s) := by
  unfold modifySlot
  split
  · exact .refl s
  · exact slotsAlone_setSlot i _ s

theorem slotsAlone_accountSlot (i : Fin 3) (fuel : Nat) (s : State) : SlotsAlone s (accountSlot i fuel s) := by
  induction fuel generalizing s with
  | zero => exact .refl s
  | succ fuel ih =>
    rw [accountSlot]
    split
    · exact .refl s
    · exact (slotsAlone_modifySlot i _ s).trans (ih _)

theorem slotsAlone_settle (s : State) : SlotsAlone s (settle s) := by
  unfold settle
  split
  · have dropped : SlotsAlone s (dropHeldAudio s) := slotsAlone_of_takes (by simp only [dropHeldAudio_frame])
    exact ((dropped.trans (slotsAlone_accountSlot 0 _ _)).trans (slotsAlone_accountSlot 1 _ _)).trans
      (slotsAlone_accountSlot 2 _ _)
  · exact .refl s

theorem slotsAlone_issueRequest (r : Request) (s : State) : SlotsAlone s (issueRequest r s) := by
  unfold issueRequest
  split
  · split
    · exact .refl s
    · split <;> exact slotsAlone_of_takes rfl
  · split
    · exact .refl s
    · exact slotsAlone_setSlot _ _ s
  · exact slotsAlone_of_takes rfl
  · exact slotsAlone_of_takes rfl

theorem slotsAlone_makeDecision (s : State) : SlotsAlone s (makeDecision s) := by
  rcases makeDecision_cases s with same | ⟨r, -, -, issued⟩
  · exact slotsAlone_of_takes (by rw [same])
  · rw [issued]
    exact slotsAlone_issueRequest r s

theorem slotsAlone_finish (before after : State) : SlotsAlone after (finish before after) := by
  refine (slotsAlone_settle after).trans (SlotsAlone.trans ?_ (slotsAlone_makeDecision _))
  exact slotsAlone_of_takes (announceChange_takes before _)

theorem slotsAlone_reportDiscard (i : Fin 3) (p : Nat) (s : State) : SlotsAlone s (reportDiscard i p s) :=
  slotsAlone_modifySlot i _ s

theorem slotsAlone_overrun (p : Nat) (s : State) : SlotsAlone s (overrun p s) := by
  refine SlotsAlone.trans ?_ (slotsAlone_reportDiscard 2 p _)
  refine SlotsAlone.trans ?_ (slotsAlone_reportDiscard 1 p _)
  refine SlotsAlone.trans ?_ (slotsAlone_reportDiscard 0 p _)
  exact slotsAlone_of_takes rfl

theorem slotsAlone_offerFrame (f : RingFrame) (s : State) : SlotsAlone s (offerFrame f s) := by
  unfold offerFrame
  split
  · exact slotsAlone_of_takes rfl
  · exact slotsAlone_of_takes rfl
  · exact slotsAlone_overrun _ s

/-! ### The engine phase at the end of an event (R58) -/

theorem finish_openSlot_of_none {before after : State} (noOpen : openSlot after = none) :
    openSlot (finish before after) = none := by
  rw [openSlot_eq_none_iff] at noOpen ⊢
  exact fun i => (revises_finish before after).closing (noOpen i)

/-! ### The writer's decision over an index record (R161, R164) -/

theorem settle_writer (s : State) : ∃ held, (settle s).writer = { s.writer with held := held } := by
  unfold settle dropHeldAudio
  split
  · simp only [accountAll_frame]
    repeat' split
    all_goals exact ⟨_, rfl⟩
  · exact ⟨s.writer.held, rfl⟩

theorem HoldsAccounted.settle {i : Fin 3} {u : Take} {s : State} (h : HoldsAccounted i u s) :
    HoldsAccounted i u (settle s) := by
  unfold Machine.settle
  split
  · have dropped : HoldsAccounted i u (dropHeldAudio s) := by
      simpa only [HoldsAccounted, dropHeldAudio_frame] using h
    exact ((dropped.accountSlot 0 _).accountSlot 1 _).accountSlot 2 _
  · exact h

/-- The index-issued mark of the take in slot i. -/
def markOf (i : Fin 3) (s : State) : Option Bool := s.takes.slots[i].map Take.indexIssued

theorem markOf_of_some {i : Fin 3} {s : State} {u : Take} (holds : s.takes.slots[i] = some u) :
    markOf i s = some u.indexIssued := by
  rw [markOf, holds]
  rfl

theorem markOf_modifySlot {f : Take → Take} (keeps : ∀ u, (f u).indexIssued = u.indexIssued) (i j : Fin 3) (s : State) :
    markOf i (modifySlot j f s) = markOf i s := by
  rw [markOf, modifySlot_slots, markOf]
  split
  · rw [Option.map_map]
    exact congrArg (Option.map · _) (funext keeps)
  · rfl

theorem insertRun_indexIssued (D a n : Nat) (u : Take) : (insertRun D a n u).indexIssued = u.indexIssued := by
  obtain ⟨gaps, merged, inserted⟩ := insertRun_eq D a n u
  rw [inserted]

theorem markOf_accountSlot (i j : Fin 3) (fuel : Nat) (s : State) : markOf i (accountSlot j fuel s) = markOf i s := by
  induction fuel generalizing s with
  | zero => rfl
  | succ fuel ih =>
    rw [accountSlot]
    split
    · rfl
    · rw [ih, markOf_modifySlot]
      intro u
      rw [gapReport]
      exact insertRun_indexIssued _ _ _ u

theorem markOf_settle (i : Fin 3) (s : State) : markOf i (settle s) = markOf i s := by
  unfold settle
  split
  · rw [accountAll, markOf_accountSlot, markOf_accountSlot, markOf_accountSlot, markOf, markOf]
    simp only [dropHeldAudio_frame]
  · rfl

theorem markOf_reportDiscard (i j : Fin 3) (p : Nat) (s : State) : markOf i (reportDiscard j p s) = markOf i s := by
  refine markOf_modifySlot (fun u => ?_) i j s
  split
  · exact insertRun_indexIssued _ _ _ u
  · rfl

theorem markOf_offerFrame (i : Fin 3) (f : RingFrame) (s : State) : markOf i (offerFrame f s) = markOf i s := by
  unfold offerFrame
  split
  · rfl
  · rfl
  · rw [overrun, markOf_reportDiscard, markOf_reportDiscard, markOf_reportDiscard]
    rfl

theorem wordCount_of_front {s t : State} (front : s.front = t.front) : wordCount s = wordCount t := by
  have enabled : mixEnabled s = mixEnabled t := mixEnabled_of_settings fun i => by rw [front]; exact ⟨rfl, rfl⟩
  rw [wordCount, wordCount, enabledTracks, enabledTracks, mixIsEnabled, mixIsEnabled, enabled, front]

/-- A first write of the index record of this take, at the cursor of s (R161, R163). -/
def indexWrite (i : Fin 3) (u : Take) (s : State) : Write :=
  { addr := s.writer.cursor.getD 0, content := .index i (wordCount s) u, attempt := .first, stale := false
    ofRetryCommand := false }

/-- A decision leaves a take as it is, or issues its index record, which it then asked for (R161, R164). -/
theorem makeDecision_record {s : State} {i : Fin 3} {u : Take} (holds : s.takes.slots[i] = some u) :
    (makeDecision s).takes.slots[i] = some u ∨
      ((makeDecision s).takes.slots[i] = some { u with indexIssued := true } ∧ s.writer.inFlight = none ∧
        hasIndexRequest s.day u = true ∧ (makeDecision s).writer.inFlight = some (indexWrite i u s)) := by
  rcases makeDecision_cases s with same | ⟨r, may, chosen, issued⟩
  · exact .inl (same.symm ▸ holds)
  · rw [issued]
    unfold issueRequest
    split
    · left
      split
      · exact holds
      · split <;> exact holds
    case h_2 j =>
      split
      · exact .inl holds
      case h_2 w holdsW =>
        by_cases here : j = i
        · subst here
          cases holds.symm.trans holdsW
          obtain ⟨w, held, asks⟩ := choose_index chosen
          cases holds.symm.trans held
          simp only [mayIssue, Bool.and_eq_true, Option.isNone_iff_eq_none] at may
          obtain ⟨⟨-, noFlight⟩, -⟩ := may
          exact .inr ⟨(setSlot_slots j j _ s).trans (if_pos rfl), noFlight, asks, rfl⟩
        · exact .inl (((setSlot_slots j i _ s).trans (if_neg here)).trans holds)
    · exact .inl holds
    · exact .inl holds

theorem hasIndexRequest_spec {D : Nat} {u : Take} (asks : hasIndexRequest D u = true) :
    u.phase = .closing ∧ u.indexIssued = false ∧ ∃ z, u.z = some z ∧ u.next = (z + 1) % D := by
  simp only [hasIndexRequest, Bool.and_eq_true, beq_iff_eq, Bool.not_eq_true'] at asks
  obtain ⟨⟨closing, unissued⟩, past⟩ := asks
  refine ⟨closing, unissued, ?_⟩
  cases stop : u.z with
  | none => rw [stop] at past; cases past
  | some z =>
    rw [stop] at past
    exact ⟨z, rfl, eq_of_beq past⟩

/-- The end of an event that leaves the writer as it was, over a take that keeps its index-issued mark: the take but for its
accounts, and the decision over its record (R164). -/
theorem finish_record {s after : State} {i : Fin 3} {u w : Take} (before : State)
    (holds : after.takes.slots[i] = some w) (mark : w.indexIssued = u.indexIssued) (writer : after.writer = s.writer)
    (day : after.day = s.day) :
    ∃ v, (finish before after).takes.slots[i] = some v ∧ Accounts w v ∧
      RecordDecided s (finish before after) i u v := by
  have decidedAgain : exec .writeIssue (finish before after) = .next (finish before after) :=
    congrArg Host.Outcome.next (makeDecision_finish before after)
  obtain ⟨x, settled, same⟩ : HoldsAccounted i w (announceChange before (settle after)) := by
    rw [HoldsAccounted, announceChange_takes]
    exact (holdsAccounted_of_eq holds).settle
  have kept : x.indexIssued = u.indexIssued := by
    have marks : markOf i (announceChange before (settle after)) = markOf i after := by
      rw [markOf, announceChange_takes]
      exact markOf_settle i after
    rw [markOf_of_some settled, markOf_of_some holds, mark] at marks
    exact Option.some.inj marks
  rcases makeDecision_record settled with stands | ⟨issued, noFlight, asks, inFlight⟩
  · refine ⟨x, stands, same, decidedAgain, fun was => kept.trans was, fun unissued was => ?_⟩
    cases (kept.trans unissued).symm.trans was
  · obtain ⟨closing, unissued, z, stop, past⟩ := hasIndexRequest_spec asks
    have unmarked : ({ x with indexIssued := false } : Take) = x := by rw [← unissued]
    obtain ⟨held, settledWriter⟩ := settle_writer after
    have announced : (announceChange before (settle after)).writer = { s.writer with held := held } := by
      simp only [announceChange_frame, settledWriter, writer]
    have words : wordCount (announceChange before (settle after)) = wordCount (finish before after) :=
      wordCount_of_front (by simp only [finish, makeDecision_frame])
    have sameDay : (announceChange before (settle after)).day = s.day := by
      rw [← day, State.day, State.day]
      simp only [announceChange_frame, settle_frame]
    refine ⟨_, issued, same.trans ⟨x.next, x.g, x.gaps, x.gapsMerged, true, rfl⟩, decidedAgain, fun _ => rfl,
      fun _ _ => ⟨?_, closing, ⟨z, stop, ?_⟩, ?_⟩⟩
    · rw [announced] at noFlight
      exact noFlight
    · rw [past, sameDay]
    · refine inFlight.trans ?_
      rw [indexWrite, announced, words, unmarked]

/-! ### A take whose next frame is held or has not arrived has no report due (R47, R160) -/

/-- The ring holds the frame at p, or it has not arrived (R47). -/
def HeldOrAhead (s : State) (p : Nat) : Prop := (∃ g, ringAnswer s p = .held g) ∨ ringAnswer s p = .notArrived

theorem dueReport_of_heldOrAhead {s : State} {i : Fin 3} {u : Take} (holds : s.takes.slots[i] = some u)
    (answer : HeldOrAhead s u.next) (room : cardFull s = false) : dueReport s i = none := by
  rcases answer with ⟨g, held⟩ | ahead
  · simp only [dueReport, holds, held, room, Bool.false_and, Bool.false_eq_true, if_false]
  · simp only [dueReport, holds, ahead]

theorem accountSlot_of_heldOrAhead {s : State} {i : Fin 3} {u : Take} (j : Fin 3) (fuel : Nat)
    (holds : s.takes.slots[i] = some u) (answer : HeldOrAhead s u.next) (room : cardFull s = false) :
    (accountSlot j fuel s).takes.slots[i] = some u := by
  by_cases here : j = i
  · subst here
    cases fuel with
    | zero => exact holds
    | succ fuel => rw [accountSlot, dueReport_of_heldOrAhead holds answer room]; exact holds
  · rw [accountSlot_slot_of_ne here]
    exact holds

theorem heldOrAhead_congr {s t : State} (ring : t.ring = s.ring) (counter : t.counter = s.counter) {p : Nat}
    (answer : HeldOrAhead s p) : HeldOrAhead t p := by
  have same : ringAnswer t p = ringAnswer s p := by
    rw [ringAnswer, ringAnswer, heldAt, heldAt, State.day, State.day, ring, counter]
  rw [HeldOrAhead, same]
  exact answer

theorem settle_slot_of_heldOrAhead {s : State} {i : Fin 3} {u : Take} (holds : s.takes.slots[i] = some u)
    (answer : HeldOrAhead s u.next) (room : cardFull s = false) : (settle s).takes.slots[i] = some u := by
  unfold settle
  split
  · have dropped : dropHeldAudio s = s := by
      unfold dropHeldAudio
      split
      · rw [room]; exact if_neg Bool.false_ne_true
      · rfl
    have stays (j : Fin 3) (fuel : Nat) (t : State) (slot : t.takes.slots[i] = some u) (ring : t.ring = s.ring)
        (counter : t.counter = s.counter) (writer : t.writer = s.writer) :
        (accountSlot j fuel t).takes.slots[i] = some u :=
      accountSlot_of_heldOrAhead j fuel slot (heldOrAhead_congr ring counter answer) (by rwa [cardFull_of_writer writer])
    rw [dropped, accountAll]
    refine stays 2 _ _ (stays 1 _ _ (stays 0 _ _ holds rfl rfl rfl) ?_ ?_ ?_) ?_ ?_ ?_
    all_goals simp only [accountSlot_frame]
  · exact holds

/-- The end of an event leaves an open take whose next frame is held or ahead, on a card that is not FULL. -/
theorem finish_slot_of_heldOrAhead {before after : State} {i : Fin 3} {u : Take} (holds : after.takes.slots[i] = some u)
    (answer : HeldOrAhead after u.next) (room : cardFull after = false) (isOpenTake : u.phase ≠ .closing) :
    (finish before after).takes.slots[i] = some u := by
  have settled : (announceChange before (settle after)).takes.slots[i] = some u := by
    rw [announceChange_takes]
    exact settle_slot_of_heldOrAhead holds answer room
  rcases makeDecision_record settled with stands | ⟨-, -, asks, -⟩
  · exact stands
  · exact absurd (hasIndexRequest_spec asks).1 isOpenTake

/-! ### The head of a start (R48, R67) -/

theorem isLater_next {D : Nat} (p : Nat) (day : 1 < D) : isLater D ((p + 1) % D) p = true := by
  have residue : (((p + 1) % D : Nat) - (p : Int)) % D = 1 := by
    push_cast
    rw [Int.emod_sub_emod, add_sub_cancel_left]
    exact Int.emod_eq_of_lt (by omega) (by omega)
  rw [isLater, signedDiff_eq, residue, if_pos (by omega)]
  rfl

theorem heldOrAhead_of_later {s : State} {p : Nat} (later : isLater s.day p s.counter.newest = true) : HeldOrAhead s p := by
  unfold HeldOrAhead ringAnswer
  split
  case h_1 g _ => exact .inl ⟨g, rfl⟩
  case h_2 => exact .inr (if_pos later)

theorem heldOrAhead_of_mem {s : State} {g : RingFrame} (member : g ∈ s.ring.frames) : HeldOrAhead s g.pos := by
  have found : (heldAt s g.pos).isSome = true := by
    rw [heldAt, List.find?_isSome]
    exact ⟨g, member, beq_self_eq_true g.pos⟩
  obtain ⟨o, at_g⟩ := Option.isSome_iff_exists.mp found
  exact .inl ⟨o, by rw [ringAnswer, at_g]⟩

/-- Where a start inside no arrival leaves its next-to-write position, the ring holds the frame or it is still to come (R48). -/
theorem heldOrAhead_headOf (s : State) (p : Nat) : HeldOrAhead s (headOf .afterFrame s p).2 := by
  unfold headOf
  split
  case h_1 o answer =>
    unfold lookup at answer
    split at answer
    · cases answer
    · split at answer
      case h_1 g found =>
        cases answer
        exact heldOrAhead_of_mem (List.mem_of_find?_eq_some found)
      case h_2 => cases answer
  case h_2 next answer =>
    unfold lookup at answer
    split at answer
    · cases answer
    · split at answer
      · cases answer
      · cases answer
        exact heldOrAhead_of_later (isLater_next s.counter.newest (one_lt_day s))
  case h_3 answer =>
    unfold lookup at answer
    split at answer
    case isTrue later => exact heldOrAhead_of_later later
    case isFalse => split at answer <;> cases answer

/-! ### A start in the lowest EMPTY slot (R67, R121) -/

section

variable {s : State} {i : Fin 3} (empty : emptySlot s = some i) (v : RingView) (label : Label) (origin p : Nat)
  (flags : TakeFlags)

include empty

theorem startSlot_of_present (present : peerIsAbsent s origin = false) :
    startSlot v label origin p flags s =
      raise .takeStarted
        (setSlot i (some (freshTake v label origin p flags s))
          { s with takes := { s.takes with serial := nextSerial s.takes.serial } }) := by
  simp only [startSlot, empty, present, Bool.false_eq_true, if_false]

theorem startSlot_of_absent (absent : peerIsAbsent s origin = true) :
    startSlot v label origin p flags s =
      markOriginLost i
        (raise .takeStarted
          (setSlot i (some (freshTake v label origin p flags s))
            { s with takes := { s.takes with serial := nextSerial s.takes.serial } })) := by
  simp only [startSlot, empty, absent, if_true]

/-- The take that a start makes of the lowest EMPTY slot, its origin lost when that is an ABSENT peer (R67, R121). -/
theorem startSlot_slot :
    (startSlot v label origin p flags s).takes.slots[i] =
      some
        { freshTake v label origin p flags s with
          flags := { flags with originLost := flags.originLost || peerIsAbsent s origin } } := by
  cases absent : peerIsAbsent s origin with
  | false =>
    rw [startSlot_of_present empty v label origin p flags absent, Bool.or_false]
    exact (setSlot_slots i i _ _).trans (if_pos rfl)
  | true =>
    rw [startSlot_of_absent empty v label origin p flags absent, Bool.or_true]
    refine (modifySlot_slots i i _ _).trans ((if_pos rfl).trans ?_)
    exact congrArg (Option.map _) ((setSlot_slots i i _ _).trans (if_pos rfl))

/-- A start counts its serial, and leaves the pending start and the labels that follow (R57, R67). -/
theorem startSlot_counts :
    SlotsAlone { s with takes := { s.takes with serial := nextSerial s.takes.serial } }
      (startSlot v label origin p flags s) := by
  have started := slotsAlone_setSlot i (some (freshTake v label origin p flags s))
    { s with takes := { s.takes with serial := nextSerial s.takes.serial } }
  cases absent : peerIsAbsent s origin with
  | false => rw [startSlot_of_present empty v label origin p flags absent]; exact started
  | true =>
    rw [startSlot_of_absent empty v label origin p flags absent]
    exact started.trans (slotsAlone_modifySlot i _ _)

theorem isPending_takeStarted_startSlot : isPending .takeStarted (startSlot v label origin p flags s) = true := by
  cases absent : peerIsAbsent s origin with
  | false => rw [startSlot_of_present empty v label origin p flags absent]; exact isPending_raise_self _ _
  | true =>
    rw [startSlot_of_absent empty v label origin p flags absent, markOriginLost, isPending_raise, isPending]
    simp only [modifySlot_frame]
    rw [← isPending, isPending_raise_self, Bool.true_or]

theorem isPending_originLost_startSlot (absent : peerIsAbsent s origin = true) :
    isPending .originLost (startSlot v label origin p flags s) = true := by
  rw [startSlot_of_absent empty v label origin p flags absent, markOriginLost]
  exact isPending_raise_self _ _

end

end Sys2Proof.Proofs
end

section
/-! PROOFS. Local starts and stops: the START and STOP commands, the record key, by engine phase (R61 to R68, R71, R72). -/

namespace Sys2Proof.Proofs

open Sys2Proof Sys2Proof.Machine Sys2Proof.Safety

/-! ### The commands in RUN (R62, R65, R66) -/

theorem exec_start {s : State} (run : s.port.phase = .run) : exec (.start []) s = .next (startCommand () s) :=
  congrArg Host.Outcome.next (hostCommand_runOnly run)

theorem exec_stop {s : State} (run : s.port.phase = .run) : exec (.stop []) s = .next (stopCommand () s) :=
  congrArg Host.Outcome.next (hostCommand_runOnly run)

theorem endRequest_ok (s t : State) : endRequest s (.ok, t) = finish s t := if_pos rfl

theorem endRequest_other {c : ResponseCode} (other : c ≠ .ok) (s t : State) : endRequest s (c, t) = t := if_neg other

theorem startCommand_of_localStart {s t : State} {c : ResponseCode} (request : localStart .afterFrame .command s = (c, t)) :
    startCommand () s = respond c [] (endRequest s (c, t)) := by
  rw [startCommand, request]

theorem stopCommand_of_localStop {s t : State} {c : ResponseCode} (request : localStop s = (c, t)) :
    stopCommand () s = respond c [] (endRequest s (c, t)) := by
  rw [stopCommand, request]

theorem recordKey_of_start {s : State} (run : s.port.phase = .run)
    (phase : enginePhase s = .idle ∨ enginePhase s = .post) :
    recordKey s = endRequest s (localStart .afterFrame .key s) := by
  rw [recordKey, if_pos (inRun_of_run run)]
  rcases phase with idle | post
  · rw [idle]
  · rw [post]

theorem recordKey_of_stop {s : State} (run : s.port.phase = .run)
    (phase : enginePhase s = .rolling ∨ enginePhase s = .startPending) : recordKey s = endRequest s (localStop s) := by
  rw [recordKey, if_pos (inRun_of_run run)]
  rcases phase with rolling | pending
  · rw [rolling]
  · rw [pending]

theorem recordKey_of_setup {s : State} (setup : s.port.phase = .setup) : recordKey s = s := by
  rw [recordKey, inRun_of_setup setup]
  exact if_neg Bool.false_ne_true

/-! ### Requests answered ALREADY or REFUSED (R62 to R65) -/

theorem localStart_already (v : RingView) (src : Source) {s : State}
    (phase : enginePhase s = .rolling ∨ enginePhase s = .startPending) : localStart v src s = (.already, s) := by
  rcases phase with rolling | pending
  · rw [localStart, rolling]
  · rw [localStart, pending]

theorem localStart_refused (v : RingView) (src : Source) {s : State}
    (phase : enginePhase s = .idle ∨ enginePhase s = .post) (full : cardFull s = true) :
    localStart v src s = (.refused, raise .startRefused s) := by
  rcases phase with idle | post
  · rw [localStart, idle]
    exact if_pos full
  · rw [localStart, post]
    exact if_pos full

theorem localStop_already {s : State} (phase : enginePhase s = .post ∨ enginePhase s = .idle) :
    localStop s = (.already, s) := by
  rcases phase with post | idle
  · rw [localStop, post]
  · rw [localStop, idle]

/-- Settles O17: the engine phase alone decides ALREADY, and a FULL card leaves a START no more than its notice. -/
theorem startIsAlreadyOrRefused : Obligations.StartIsAlreadyOrRefused := by
  unfold Obligations.StartIsAlreadyOrRefused
  intro s run
  refine ⟨fun phase => ⟨?_, ?_⟩, fun phase full => ⟨?_, ?_, ?_⟩⟩
  · rw [Answered, exec_start run, startCommand_of_localStart (localStart_already _ _ phase), endRequest_other (by decide)]
    rfl
  · rw [cueRequest, localStart_already _ _ phase]
  · rw [exec_start run, startCommand_of_localStart (localStart_refused _ _ phase full), endRequest_other (by decide)]
    rfl
  · change Host.Outcome.next (recordKey s) = _
    rw [recordKey_of_start run phase, localStart_refused _ _ phase full, endRequest_other (by decide)]
    rfl
  · rw [cueRequest, localStart_refused _ _ phase full]
    rfl

/-! ### A START in IDLE (R62, R67) -/

theorem localStart_of_idle (v : RingView) (src : Source) {s : State} (idle : enginePhase s = .idle)
    (room : cardFull s = false) : localStart v src s = (.ok, startLocal v src s) := by
  rw [localStart, idle]
  exact if_neg (Bool.eq_false_iff.mp room)

/-- The label and the requested start of the next local take (R62). -/
def nextLabel (s : State) : Label := { scene := s.takes.scene, number := s.takes.nextTake }

def localStartPosition (s : State) : Nat := posSub s.day s.counter.newest s.takes.preRoll

theorem startLocal_of_empty (v : RingView) (src : Source) {s : State} {i : Fin 3} (empty : emptySlot s = some i) :
    startLocal v src s =
      raise .takeStarted
        (setSlot i (some (freshTake v (nextLabel s) s.port.station.val (localStartPosition s) {} s))
          { s with takes := { s.takes with serial := nextSerial s.takes.serial } }) := by
  rw [startLocal, empty]
  exact startSlot_of_present empty v _ _ _ _ (peerIsAbsent_own s)

/-- The pending start that a local start makes where no slot is EMPTY (R62). -/
def localPending (s : State) (src : Source) : PendingStart :=
  { label := nextLabel s, origin := s.port.station.val, start := localStartPosition s, source := src, reached := true }

theorem startLocal_of_none (v : RingView) (src : Source) {s : State} (occupied : emptySlot s = none) :
    startLocal v src s = makePending (localPending s src) s := by
  rw [startLocal, occupied]
  exact if_neg Bool.false_ne_true

theorem respond_port (c : ResponseCode) (data : List Byte) (s : State) :
    (respond c data s).port = { s.port with response := some { code := c, data := data } } := rfl

theorem finish_notices (before after : State) : (finish before after).notices = after.notices := by simp only [finish_frame]

/-- A local start leaves the blocks other than notices and takes, and the end of its event leaves them too. -/
theorem finish_startLocal_blocks (before : State) (v : RingView) (src : Source) (s : State) :
    let t := finish before (startLocal v src s)
    t.port = s.port ∧ t.counter = s.counter ∧ t.front = s.front ∧ t.mixer = s.mixer ∧ t.ring = s.ring ∧ t.time = s.time := by
  simp only [finish_frame, startLocal_frame, and_self]

/-- A local start leaves the labels that follow. -/
theorem finish_startLocal_labels (before : State) (v : RingView) (src : Source) (s : State) :
    let t := finish before (startLocal v src s)
    t.takes.scene = s.takes.scene ∧ t.takes.nextTake = s.takes.nextTake ∧ t.takes.closed = s.takes.closed := by
  have engine := slotsAlone_finish before (startLocal v src s)
  dsimp only
  rw [engine.scene, engine.nextTake, engine.closed]
  cases empty : emptySlot s with
  | none =>
    rw [startLocal_of_none v src empty]
    exact ⟨rfl, rfl, rfl⟩
  | some i =>
    rw [startLocal_of_empty v src empty]
    exact ⟨rfl, rfl, rfl⟩

/-- The take of a local start outside an arrival, on a card that is not FULL, ends the event as it began: its next frame is held or
ahead, so that no report moves it. -/
theorem finish_startLocal_slot (before : State) (src : Source) {s : State} {i : Fin 3} (empty : emptySlot s = some i)
    (room : cardFull s = false) :
    (finish before (startLocal .afterFrame src s)).takes.slots[i] =
      some (freshTake .afterFrame (nextLabel s) s.port.station.val (localStartPosition s) {} s) := by
  have started := startLocal_of_empty .afterFrame src empty
  refine finish_slot_of_heldOrAhead ?_ ?_ ?_ nofun
  · rw [started]
    exact (setSlot_slots i i _ _).trans (if_pos rfl)
  · exact heldOrAhead_congr (by rw [started]; rfl) (by rw [started]; rfl) (heldOrAhead_headOf s (localStartPosition s))
  · rw [started]
    exact room

theorem finish_startLocal_serial (before : State) (v : RingView) (src : Source) {s : State} {i : Fin 3}
    (empty : emptySlot s = some i) :
    (finish before (startLocal v src s)).takes.serial = nextSerial s.takes.serial := by
  rw [(slotsAlone_finish before _).serial, startLocal_of_empty v src empty]
  rfl

/-- Settles O16: the fresh take of the lowest EMPTY slot, or the pending start. -/
theorem startInIdle : Obligations.StartInIdle := by
  unfold Obligations.StartInIdle
  intro s run idle room
  obtain ⟨-, noStart⟩ := enginePhase_idle idle
  have command : exec (.start []) s = .next (respond .ok [] (finish s (startLocal .afterFrame .command s))) := by
    rw [exec_start run, startCommand_of_localStart (localStart_of_idle _ _ idle room), endRequest_ok]
  obtain ⟨port, blocks⟩ := finish_startLocal_blocks s .afterFrame .command s
  obtain ⟨counter, front, mixer, ring, time⟩ := blocks
  have labels := finish_startLocal_labels s .afterFrame .command s
  have answered : (respond .ok [] (finish s (startLocal .afterFrame .command s))).port =
      { s.port with response := some { code := .ok, data := [] } } := by
    rw [respond_port, port]
  have engine := slotsAlone_finish s (startLocal .afterFrame .command s)
  refine ⟨fun i empty => ?_, fun occupied => ?_⟩
  · have started := startLocal_of_empty .afterFrame .command empty
    have start : (finish s (startLocal .afterFrame .command s)).takes.pendingStart = none := by
      rw [engine.pendingStart, started]
      exact noStart
    have notices : (finish s (startLocal .afterFrame .command s)).notices =
        noticeUnit (s.notices.pending ||| 1#20) s.notices.mask := by
      rw [finish_notices, started]
      rfl
    exact ⟨_, _, command, ⟨answered, counter, front, mixer, ring, time, labels⟩, finish_startLocal_slot s .command empty room,
      start, finish_startLocal_serial s .afterFrame .command empty, notices, rfl, rfl, rfl, rfl, rfl, rfl, rfl, rfl, rfl, rfl,
      rfl, rfl, rfl, rfl, rfl, rfl, rfl, rfl, fun n => Vector.getElem_ofFn _⟩
  · have started := startLocal_of_none .afterFrame .command occupied
    have start := engine.pendingStart
    have serial := engine.serial
    have notices := finish_notices s (startLocal .afterFrame .command s)
    rw [congrArg State.takes started] at start serial
    rw [congrArg State.notices started] at notices
    exact ⟨_, command, ⟨answered, counter, front, mixer, ring, time, labels⟩, serial, notices, start⟩

/-! ### A START in POST (R63, R71, R72) -/

theorem localStart_of_post (v : RingView) (src : Source) {s : State} {i : Fin 3} (post : enginePhase s = .post)
    (isOpenSlot : openSlot s = some i) (room : cardFull s = false) :
    localStart v src s = (.ok, startLocal v src (cutPostRoll i s.counter.newest s)) := by
  rw [localStart, post, isOpenSlot]
  exact if_neg (Bool.eq_false_iff.mp room)

theorem appendClosed_of_room {x : Identity} {l : List Identity} (room : l.length < 4) : appendClosed x l = l ++ [x] := by
  rw [appendClosed, if_pos (show l.length < Config.maxClosed from room)]

theorem appendClosed_of_full {x oldest : Identity} {rest l : List Identity} (list : l = oldest :: rest)
    (full : l.length = 4) : appendClosed x l = rest ++ [x] := by
  rw [appendClosed, if_neg (show ¬l.length < Config.maxClosed by rw [full]; decide), full, list]
  rfl

theorem emptySlot_closeSlot {s : State} {i : Fin 3} {u : Take} (v : Take) (holds : s.takes.slots[i] = some u) :
    emptySlot (closeSlot i v s) = emptySlot s := by
  refine emptySlot_congr fun k => ?_
  rw [closeSlot_slots]
  split
  case isTrue here => rw [← here, holds]; rfl
  case isFalse => rfl

/-- Settles O18: the cut closes the only open take, and the next one starts in another slot; the end of the event leaves both but
for their accounts. -/
theorem startInPostCutsThePostRoll : Obligations.StartInPostCutsThePostRoll := by
  unfold Obligations.StartInPostCutsThePostRoll
  refine ⟨fun x l => ⟨appendClosed_of_room, fun oldest rest list full => appendClosed_of_full list full⟩, ?_⟩
  intro s i j u e run room isOpenSlot _ holds post stop empty afterStop within
  have phase : enginePhase s = .post := by
    rw [enginePhase_of_openSlot isOpenSlot holds, post]
    rfl
  have cut := cutPostRoll_newest holds post stop afterStop within
  have other : j ≠ i := by
    rintro rfl
    cases (emptySlot_eq_some empty).symm.trans holds
  have command : exec (.start []) s =
      .next (respond .ok [] (finish s (startLocal .afterFrame .command (cutPostRoll i s.counter.newest s)))) := by
    rw [exec_start run, startCommand_of_localStart (localStart_of_post _ _ phase isOpenSlot room), endRequest_ok]
  rw [cut] at command
  generalize closing :
    ({ u with z := some s.counter.newest, postRoll := countAfter s.day e s.counter.newest } : Take) = x at command
  have stillEmpty : emptySlot (closeSlot i x s) = some j := (emptySlot_closeSlot x holds).trans empty
  have closed : (startLocal .afterFrame .command (closeSlot i x s)).takes.slots[i] = some { x with phase := .closing } := by
    rw [startLocal_of_empty .afterFrame .command stillEmpty]
    refine (setSlot_slots j i _ _).trans ((if_neg other).trans ?_)
    exact (closeSlot_slots i i x s).trans (if_pos rfl)
  obtain ⟨v, slot, next, g, gaps, merged, issued, rfl⟩ := HoldsAccounted.finish s (holdsAccounted_of_eq closed)
  have started := finish_startLocal_slot s .command stillEmpty room
  obtain ⟨port, counter, -, -, ring, -⟩ := finish_startLocal_blocks s .afterFrame .command (closeSlot i x s)
  obtain ⟨scene, nextTake, identities⟩ := finish_startLocal_labels s .afterFrame .command (closeSlot i x s)
  subst closing
  refine ⟨_, _, _, command, ?_, slot, started, counter, ring, rfl, rfl, stop, rfl, rfl, rfl, rfl, rfl, scene, nextTake,
    identities, rfl, ?_, rfl, rfl, rfl⟩
  · rw [respond_port, port]
    rfl
  · exact congrArg₂ Label.mk scene.symm nextTake.symm

/-! ### A STOP by phase (R65, R68) -/

theorem localStop_of_startPending {s : State} (pending : enginePhase s = .startPending) :
    localStop s = (.ok, dropPending s) := by
  rw [localStop, pending]

/-- A STOP in ROLLING stops the open take, and no other, at the newest position (R65, R68). -/
theorem localStop_of_openSlot {s : State} {i : Fin 3} {u : Take} (isOpenSlot : openSlot s = some i)
    (holds : s.takes.slots[i] = some u) (rolling : u.phase = .rolling) :
    localStop s = (.ok, stopTake i u s.counter.newest s) := by
  have phase : enginePhase s = .rolling := by
    rw [enginePhase_of_openSlot isOpenSlot holds, rolling, if_pos rfl]
  rw [localStop, phase, isOpenSlot, ← applyStop_of_rolling holds rolling]

/-- What a stop at the newest position makes of the take (R68). -/
def stoppedHere (newest postRoll : Nat) (u : Take) : Take :=
  if 0 < postRoll then { u with e := some newest, phase := .post, postRoll := 0 }
  else { u with e := some newest, z := some newest, phase := .closing, postRoll := 0 }

theorem stopTake_slot (i : Fin 3) (u : Take) (s : State) :
    (stopTake i u s.counter.newest s).takes.slots[i] = some (stoppedHere s.counter.newest s.takes.postRoll u) := by
  rw [stopTake_newest, stoppedHere]
  split
  · exact (setSlot_slots i i _ s).trans (if_pos rfl)
  · exact (closeSlot_slots i i _ s).trans (if_pos rfl)

theorem stoppedHere_of_postRoll {newest postRoll : Nat} (some_postRoll : 0 < postRoll) (u : Take) :
    stoppedHere newest postRoll u = { u with e := some newest, phase := .post, postRoll := 0 } := if_pos some_postRoll

theorem stoppedHere_of_none (newest : Nat) (u : Take) :
    stoppedHere newest 0 u = { u with e := some newest, z := some newest, phase := .closing, postRoll := 0 } :=
  if_neg (Nat.lt_irrefl 0)

/-- What a stop leaves of the take in every case. -/
theorem stoppedHere_fields (newest postRoll : Nat) (u : Take) :
    (stoppedHere newest postRoll u).e = some newest ∧ (stoppedHere newest postRoll u).postRoll = 0 ∧
      (stoppedHere newest postRoll u).label = u.label ∧ (stoppedHere newest postRoll u).origin = u.origin ∧
      (stoppedHere newest postRoll u).sr = u.sr ∧ (stoppedHere newest postRoll u).flags = u.flags ∧
      (stoppedHere newest postRoll u).serial = u.serial ∧
      (stoppedHere newest postRoll u).indexIssued = u.indexIssued := by
  unfold stoppedHere
  split <;> exact ⟨rfl, rfl, rfl, rfl, rfl, rfl, rfl, rfl⟩

/-- Settles O19: the engine phase decides which stop is made, and the end of the event leaves the stopped take but for its
accounts. -/
theorem stopByPhase : Obligations.StopByPhase := by
  unfold Obligations.StopByPhase
  intro s run
  refine ⟨fun phase => ?already, fun pending => ?pending, fun i u isOpenSlot holds rolling => ?rolling⟩
  case already =>
    rw [Answered, exec_stop run, stopCommand_of_localStop (localStop_already phase), endRequest_other (by decide)]
    rfl
  case pending =>
    have command : exec (.stop []) s = .next (respond .ok [] (finish s (dropPending s))) := by
      rw [exec_stop run, stopCommand_of_localStop (localStop_of_startPending pending), endRequest_ok]
    have engine := slotsAlone_finish s (dropPending s)
    obtain ⟨time, port, notices, counter, front, mixer, ring, -⟩ := finish_frame s (dropPending s)
    have noOpen : openSlot (finish s (dropPending s)) = none :=
      finish_openSlot_of_none (enginePhase_startPending pending).1
    have idle : enginePhase (respond .ok [] (finish s (dropPending s))) = .idle := by
      have phase := enginePhase_of_no_openSlot noOpen
      rw [engine.pendingStart] at phase
      exact phase
    refine ⟨_, command, ?_, engine.pendingStart, idle, engine.nextTake, engine.scene, engine.serial, notices, counter, ring⟩
    rw [respond_port, port]
    rfl
  case rolling =>
    have command : exec (.stop []) s = .next (respond .ok [] (finish s (stopTake i u s.counter.newest s))) := by
      rw [exec_stop run, stopCommand_of_localStop (localStop_of_openSlot isOpenSlot holds rolling), endRequest_ok]
    have engine := slotsAlone_finish s (stopTake i u s.counter.newest s)
    obtain ⟨v, slot, next, g, gaps, merged, issued, rfl⟩ :=
      HoldsAccounted.finish s (holdsAccounted_of_eq (stopTake_slot i u s))
    obtain ⟨e, postRoll, label, origin, sr, flags, -⟩ := stoppedHere_fields s.counter.newest s.takes.postRoll u
    have blocks : (finish s (stopTake i u s.counter.newest s)).port = s.port ∧
        (finish s (stopTake i u s.counter.newest s)).notices = s.notices ∧
        (finish s (stopTake i u s.counter.newest s)).counter = s.counter ∧
        (finish s (stopTake i u s.counter.newest s)).ring = s.ring := by
      simp only [finish_frame, stopTake_frame, and_self]
    obtain ⟨port, notices, counter, ring⟩ := blocks
    have start : (stopTake i u s.counter.newest s).takes.pendingStart = s.takes.pendingStart := by
      rw [stopTake_newest]
      split <;> rfl
    refine ⟨_, _, command, ?_, slot, e, postRoll, label, origin, sr, flags, notices, counter, ring,
      engine.pendingStart.trans start, fun positive => ?_, fun none _ => ?_⟩
    · rw [respond_port, port]
    · have stopped := stopTake_newest i u s
      rw [if_pos positive] at stopped
      refine ⟨?_, ?_, engine.nextTake.trans (by rw [stopped]; rfl), engine.scene.trans (by rw [stopped]; rfl)⟩
      · dsimp only
        rw [stoppedHere_of_postRoll positive]
      · dsimp only
        rw [stoppedHere_of_postRoll positive]
    · have stopped := stopTake_newest i u s
      rw [none, if_neg (Nat.lt_irrefl 0)] at stopped
      refine ⟨?_, ?_, engine.scene.trans (by rw [stopped]; rfl), engine.nextTake.trans (by rw [stopped]; rfl)⟩
      · dsimp only
        rw [none, stoppedHere_of_none]
      · dsimp only
        rw [none, stoppedHere_of_none]

/-! ### The record key (R66) -/

theorem port_of_respond {s x : State} (port : x.port = s.port) (c : ResponseCode) (data : List Byte) :
    ({ respond c data x with port := s.port } : State) = x := by
  rw [← port]
  rfl

/-- In IDLE and POST a start's source counts only where it makes a pending start: the request starts locally from the state, or from
the state with its post-roll cut, or is refused (R62, R63). -/
theorem localStart_cases (v : RingView) {s : State} (phase : enginePhase s = .idle ∨ enginePhase s = .post)
    (room : cardFull s = false) :
    ∃ u, emptySlot u = emptySlot s ∧ u.port = s.port ∧ ∀ src, localStart v src s = (.ok, startLocal v src u) := by
  rcases phase with idle | post
  · exact ⟨s, rfl, rfl, fun src => localStart_of_idle v src idle room⟩
  · obtain ⟨i, u, isOpenSlot, holds, -⟩ := enginePhase_post post
    refine ⟨cutPostRoll i s.counter.newest s, ?_, by simp only [cutPostRoll_frame], fun src =>
      localStart_of_post v src post isOpenSlot room⟩
    unfold cutPostRoll
    split
    · rfl
    case h_2 w held =>
      split
      · exact emptySlot_closeSlot _ held
      · rfl

/-- With an EMPTY slot a start has the same effect from every source. -/
theorem localStart_source (v : RingView) (src src' : Source) {s : State}
    (phase : enginePhase s = .idle ∨ enginePhase s = .post) (empty : (emptySlot s).isSome = true) :
    localStart v src s = localStart v src' s := by
  cases full : cardFull s with
  | true => rw [localStart_refused v src phase full, localStart_refused v src' phase full]
  | false =>
    obtain ⟨u, sameEmpty, -, request⟩ := localStart_cases v phase full
    obtain ⟨i, some_empty⟩ := Option.isSome_iff_exists.mp empty
    rw [request, request, startLocal_of_empty v src (sameEmpty.trans some_empty),
      startLocal_of_empty v src' (sameEmpty.trans some_empty)]

/-! The end of an event does not see the source of the pending start. -/

section

variable (q : PendingStart) (s : State)

theorem dueReport_makePending (i : Fin 3) : dueReport (makePending q s) i = dueReport s i := rfl

theorem modifySlot_makePending (i : Fin 3) (f : Take → Take) :
    modifySlot i f (makePending q s) = makePending q (modifySlot i f s) := by
  unfold modifySlot
  change (match s.takes.slots[i] with | none => _ | some t => _) = _
  cases s.takes.slots[i] <;> rfl

theorem accountSlot_makePending (i : Fin 3) (fuel : Nat) :
    accountSlot i fuel (makePending q s) = makePending q (accountSlot i fuel s) := by
  induction fuel generalizing s with
  | zero => rfl
  | succ fuel ih =>
    rw [accountSlot, accountSlot, dueReport_makePending]
    cases dueReport s i with
    | none => rfl
    | some report =>
      dsimp only
      rw [modifySlot_makePending, ih]
      rfl

theorem dropHeldAudio_makePending : dropHeldAudio (makePending q s) = makePending q (dropHeldAudio s) := by
  have full : cardFull (makePending q s) = cardFull s := rfl
  have held : (makePending q s).writer.held = s.writer.held := rfl
  rw [dropHeldAudio, dropHeldAudio, full, held]
  split
  · split <;> rfl
  · rfl

theorem settle_makePending : settle (makePending q s) = makePending q (settle s) := by
  have running : (makePending q s).inRun = s.inRun := rfl
  have accounted : accountAll (makePending q (dropHeldAudio s)) = makePending q (accountAll (dropHeldAudio s)) := by
    rw [accountAll, accountSlot_makePending, accountSlot_makePending, accountSlot_makePending]
    rfl
  rw [settle, settle, running, dropHeldAudio_makePending, accounted]
  split <;> rfl

theorem issueRequest_makePending (r : Request) : issueRequest r (makePending q s) = makePending q (issueRequest r s) := by
  have slots (i : Fin 3) : (makePending q s).takes.slots[i] = s.takes.slots[i] := rfl
  have ready : readyBlock (makePending q s) = readyBlock s := rfl
  cases r with
  | audio i =>
    rw [issueRequest, issueRequest, slots, ready]
    cases s.takes.slots[i] with
    | none => rfl
    | some u =>
      dsimp only
      cases readyBlock s u <;> rfl
  | index i =>
    rw [issueRequest, issueRequest, slots]
    cases s.takes.slots[i] <;> rfl
  | notes => rfl
  | fault => rfl

theorem makeDecision_makePending : makeDecision (makePending q s) = makePending q (makeDecision s) := by
  have may : mayIssue (makePending q s) = mayIssue s := rfl
  have choice : choose (makePending q s) = choose s := rfl
  rw [makeDecision, makeDecision, may, choice]
  split
  · cases choose s with
    | none => rfl
    | some r => exact issueRequest_makePending q s r
  · rfl

theorem takeFields_source (src : Source) :
    takeFields (makePending { q with source := src } s) = takeFields (makePending q s) := by
  have phase : enginePhase (makePending { q with source := src } s) = enginePhase (makePending q s) := rfl
  have take : openTake (makePending { q with source := src } s) = openTake (makePending q s) := rfl
  rw [takeFields, takeFields, phase, take]
  cases enginePhase (makePending q s) <;> cases openTake (makePending q s) <;> rfl

theorem announcedState_source (src : Source) :
    announcedState (makePending { q with source := src } s) = announcedState (makePending q s) := by
  rw [announcedState, announcedState, takeFields_source]
  rfl

theorem beginAttempt_source (src : Source) :
    beginAttempt (makePending { q with source := src } s) =
      makePending { q with source := src } (beginAttempt (makePending q s)) := by
  have status : ownStatus (makePending { q with source := src } s) = ownStatus (makePending q s) := by
    rw [ownStatus, ownStatus, takeFields_source]
    rfl
  have payload : txPayload (makePending { q with source := src } s) = txPayload (makePending q s) := by
    funext f
    cases f with
    | status => exact congrArg statusBytes status
    | _ => rfl
  rw [beginAttempt, beginAttempt, payload]
  change (match s.link.queue with | [] => _ | x :: _ => _) = makePending _ (match s.link.queue with | [] => _ | x :: _ => _)
  cases s.link.queue <;> rfl

theorem kickTransmitter_source (src : Source) :
    kickTransmitter (makePending { q with source := src } s) =
      makePending { q with source := src } (kickTransmitter (makePending q s)) := by
  have link : (makePending { q with source := src } s).link = (makePending q s).link := rfl
  have wait : deferral (makePending { q with source := src } s) = deferral (makePending q s) := rfl
  have time : (makePending { q with source := src } s).time = (makePending q s).time := rfl
  rw [kickTransmitter, kickTransmitter, link]
  split
  · cases (makePending q s).link.line with
    | idle =>
      dsimp only
      rw [beginAttempt_source, wait, time]
      split <;> rfl
    | _ => rfl
  · rfl

theorem requestStatus_source (src : Source) :
    requestStatus (makePending { q with source := src } s) =
      makePending { q with source := src } (requestStatus (makePending q s)) := by
  have active : linkActive (makePending { q with source := src } s) = linkActive (makePending q s) := rfl
  have sending : statusBeingSent (makePending { q with source := src } s) = statusBeingSent (makePending q s) := rfl
  have link : (makePending { q with source := src } s).link = (makePending q s).link := rfl
  rw [requestStatus, requestStatus, active, sending, link]
  split_ifs
  · rfl
  · rfl
  · rfl
  · exact kickTransmitter_source q
      { s with link := { s.link with queue := s.link.queue ++ [{ frame := .status, attempts := 0 }] } } src
  · rfl

theorem finish_source (before : State) (src : Source) :
    finish before (makePending { q with source := src } s) =
      makePending { q with source := src } (finish before (makePending q s)) := by
  have announced : announceChange before (makePending { q with source := src } (settle s)) =
      makePending { q with source := src } (announceChange before (makePending q (settle s))) := by
    rw [announceChange, announceChange, announcedState_source, requestStatus_source]
    split <;> rfl
  rw [finish, settle_makePending, announced, makeDecision_makePending, finish, settle_makePending]

end

/-- Settles O20: the key makes the same local request as the command, whose source only a pending start keeps. -/
theorem recordKeyStartsOrStops : Obligations.RecordKeyStartsOrStops := by
  unfold Obligations.RecordKeyStartsOrStops
  intro s
  have port : (recordKey s).port = s.port := by simp only [recordKey_frame]
  refine ⟨fun setup => ?setup, fun run phase empty => ?started, fun run phase => ?stopped,
    fun run phase occupied room => ?pending⟩
  case setup => exact congrArg Host.Outcome.next (recordKey_of_setup setup)
  case started =>
    have key := recordKey_of_start run phase
    rw [localStart_source .afterFrame .key .command phase empty] at key
    refine ⟨_, exec_start run, congrArg Host.Outcome.next ?_⟩
    rw [startCommand, ← key]
    exact (port_of_respond port _ _).symm
  case stopped =>
    have key := recordKey_of_stop run phase
    refine ⟨_, exec_stop run, congrArg Host.Outcome.next ?_⟩
    rw [stopCommand, ← key]
    exact (port_of_respond port _ _).symm
  case pending =>
    obtain ⟨u, sameEmpty, samePort, request⟩ := localStart_cases .afterFrame phase room
    have made (src : Source) := startLocal_of_none .afterFrame src (sameEmpty.trans occupied)
    have key : recordKey s =
        makePending { localPending u .command with source := .key } (finish s (startLocal .afterFrame .command u)) := by
      rw [recordKey_of_start run phase, request, endRequest_ok, made .key, made .command]
      exact finish_source (localPending u .command) u s .key
    have command := exec_start run
    rw [startCommand_of_localStart (request .command), endRequest_ok] at command
    have start := (slotsAlone_finish s (startLocal .afterFrame .command u)).pendingStart
    rw [congrArg State.takes (made .command)] at start
    have ended : (finish s (startLocal .afterFrame .command u)).port = s.port := by
      simp only [finish_frame, startLocal_frame, samePort]
    refine ⟨_, _, command, start, congrArg Host.Outcome.next ?_⟩
    rw [key, ← ended]
    rfl

end Sys2Proof.Proofs
end

section
/-! PROOFS. SET SCENE and SET NEXT TAKE: the name that is stored, the clamp, and what the event leaves (R80, R81). -/

namespace Sys2Proof.Proofs

open Sys2Proof Sys2Proof.Machine Sys2Proof.Safety

theorem normalScene_nil : normalScene [] = [45#8] := rfl

/-- A name of some characters is cut to twelve and its unprintable characters are replaced (R80). -/
theorem normalScene_of_ne_nil {name : Text} (some_name : name ≠ []) :
    normalScene name = (name.take 12).map fun ch => if 32 ≤ ch.toNat ∧ ch.toNat ≤ 126 then ch else 45#8 := by
  have replaced : printable = fun ch => if 32 ≤ ch.toNat ∧ ch.toNat ≤ 126 then ch else 45#8 := by
    funext ch
    simp only [printable, Bool.and_eq_true, decide_eq_true_eq]
  rw [normalScene, replaced]
  split
  case h_1 none_left =>
    rw [List.map_eq_nil_iff, List.take_eq_nil_iff] at none_left
    rcases none_left with never | none_left
    · cases never
    · exact absurd none_left some_name
  case h_2 => rfl

theorem readSceneArgs_be {name : Text} (fits : name.length ≤ 254) :
    readSceneArgs (be 1 name.length ++ name) = some name := by
  have length : name.length = (BitVec.ofNat 8 (name.length / 256 ^ 0)).toNat := by
    rw [BitVec.toNat_ofNat, pow_zero, Nat.div_one, Nat.mod_eq_of_lt (by omega)]
  exact if_pos length

theorem exec_setScene (s : State) {name : Text} (fits : name.length ≤ 254) :
    exec (.setScene (be 1 name.length ++ name)) s = .next (setScene name s) := by
  change Host.Outcome.next (hostCommand .both (readSceneArgs _) setScene s) = _
  rw [readSceneArgs_be fits, hostCommand_taken _ _ (takenNow_both _)]

theorem exec_setNextTake (s : State) {n : Nat} (fits : n < 65536) :
    exec (.setNextTake (be 2 n)) s = .next (setNextTake n s) := by
  change Host.Outcome.next (hostCommand .both (readNumber 2 _) setNextTake s) = _
  rw [readNumber, if_pos (be_length 2 n), ofBE_be fits, hostCommand_taken _ _ (takenNow_both _)]

/-- In SETUP no STATUS is requested (R95). -/
theorem announceChange_of_setup (before : State) {after : State} (setup : after.port.phase = .setup) :
    announceChange before after = after := by
  have inactive : linkActive after = false := by
    rw [linkActive, inRun_of_setup setup]
    rfl
  rw [announceChange, requestStatus_of_inactive inactive, ite_self]

/-- Settles O14: the arguments read back, and the end of the command requests a STATUS at most. -/
theorem setSceneAndNextTake : Obligations.SetSceneAndNextTake := by
  unfold Obligations.SetSceneAndNextTake
  intro s
  have leaves (takes : TakeEngine) :
      let t := announceChange s (respond .ok [] { s with takes := takes })
      (t.time = s.time ∧ t.notices = s.notices ∧ t.counter = s.counter ∧ t.front = s.front ∧ t.mixer = s.mixer ∧
        t.ring = s.ring ∧ t.store = s.store ∧ t.writer = s.writer ∧ (s.port.phase = .setup → t.link = s.link) ∧
        t.port = { s.port with response := some { code := .ok, data := [] } }) ∧ t.takes = takes := by
    obtain ⟨time, port, notices, counter, front, mixer, ring, engine, store, writer, -⟩ :=
      announceChange_frame s (respond .ok [] { s with takes := takes })
    refine ⟨⟨time, notices, counter, front, mixer, ring, store, writer, fun setup => ?_, port⟩, engine⟩
    exact (congrArg State.link (announceChange_of_setup s (after := respond .ok [] { s with takes := takes }) setup)).trans rfl
  refine ⟨fun name fits => ?scene, fun n fits => ?number⟩
  case scene =>
    obtain ⟨left, takes⟩ := leaves { s.takes with scene := normalScene name, nextTake := 1 }
    refine ⟨_, exec_setScene s fits, left, takes.trans ?_⟩
    by_cases empty : name = []
    · rw [if_pos empty, empty, normalScene_nil]
    · rw [if_neg empty, normalScene_of_ne_nil empty]
  case number =>
    obtain ⟨left, takes⟩ := leaves { s.takes with nextTake := clamp 1 999 n }
    refine ⟨_, exec_setNextTake s fits, left, takes.trans ?_⟩
    rw [clamp_one n (by decide)]

end Sys2Proof.Proofs
end

section
/-! PROOFS. The arrivals at which a stop, the end of a post-roll, a half-day limit or a promotion falls due (R60, R68 to R70, R164). -/

namespace Sys2Proof.Proofs

open Sys2Proof Sys2Proof.Machine Sys2Proof.Safety

/-! ### What the stamping of a frame makes of each take (R68 to R70) -/

/-- What the arrival of the frame at `newest` makes of a take, before the frame is handed on (R68 to R70). -/
def arrivedTake (newest D postRoll : Nat) (u : Take) : Take :=
  match u.phase with
  | .rolling =>
    if newest = halfDayLimit D u.sr postRoll then
      stoppedHere newest postRoll { u with flags := { u.flags with forcedStop := true } }
    else if u.e = some newest then stoppedHere newest postRoll u
    else u
  | .post =>
    if postRoll ≤ u.postRoll + 1 then
      { u with postRoll := u.postRoll + 1, z := some (posAdd D (u.e.getD u.sr) postRoll), phase := .closing }
    else { u with postRoll := u.postRoll + 1 }
  | .closing => u

theorem arriveSlot_slot {s : State} {i : Fin 3} {u : Take} (holds : s.takes.slots[i] = some u) :
    (arriveSlot i s).takes.slots[i] = some (arrivedTake s.counter.newest s.day s.takes.postRoll u) := by
  cases phase : u.phase with
  | rolling =>
    simp only [arriveSlot, holds, halfDayDue, awaitedDue, arrivedTake, phase, beq_self_eq_true, Bool.true_and, beq_iff_eq,
      reduceCtorEq, if_false]
    split_ifs
    · exact stopTake_slot i _ s
    · exact stopTake_slot i u s
    · exact holds
  | post =>
    simp only [arriveSlot, holds, halfDayDue, awaitedDue, arrivedTake, phase, beq_iff_eq, reduceCtorEq, Bool.and_eq_true,
      false_and, if_false, if_true]
    split_ifs
    · exact (closeSlot_slots i i _ s).trans (if_pos rfl)
    · exact (setSlot_slots i i _ s).trans (if_pos rfl)
  | closing =>
    rw [arriveSlot_of_undisturbed holds (.inl phase), holds, arrivedTake, phase]

/-- The slots are taken one after the other, and each by the take it held before. -/
theorem takeArrival_slot {s : State} {i : Fin 3} {u : Take} (holds : s.takes.slots[i] = some u) :
    (takeArrival s).takes.slots[i] = some (arrivedTake s.counter.newest s.day s.takes.postRoll u) := by
  have arrives (t : State) (slot : t.takes.slots[i] = some u) (counter : t.counter = s.counter)
      (postRoll : t.takes.postRoll = s.takes.postRoll) :
      (arriveSlot i t).takes.slots[i] = some (arrivedTake s.counter.newest s.day s.takes.postRoll u) := by
    rw [arriveSlot_slot slot, State.day, counter, postRoll, State.day]
  rw [takeArrival, arrivePending_slots]
  obtain rfl | rfl | rfl : i = 0 ∨ i = 1 ∨ i = 2 := by omega
  · rw [arriveSlot_slot_of_ne (by decide), arriveSlot_slot_of_ne (by decide)]
    exact arrives s holds rfl rfl
  · rw [arriveSlot_slot_of_ne (by decide)]
    refine arrives _ ?_ ?_ ?_
    · rw [arriveSlot_slot_of_ne (by decide)]
      exact holds
    · simp only [arriveSlot_frame]
    · simp only [arriveSlot_postRoll]
  · refine arrives _ ?_ ?_ ?_
    · rw [arriveSlot_slot_of_ne (by decide), arriveSlot_slot_of_ne (by decide)]
      exact holds
    · simp only [arriveSlot_frame]
    · simp only [arriveSlot_postRoll]

theorem promoteAtStamp_slot_of_some {s : State} {i : Fin 3} {u : Take} (holds : s.takes.slots[i] = some u) :
    (promoteAtStamp s).takes.slots[i] = some u := by
  unfold promoteAtStamp
  split
  · split
    · exact holds
    · exact promote_slot_of_some (s := { s with orders := s.orders + 1 }) holds .beforeFrame
  · exact holds

theorem stampFrame_takes (s : State) : (stampFrame s).takes = s.takes := by simp only [stampFrame_frame]

theorem stampFrame_day (s : State) : (stampFrame s).day = s.day := by
  rw [State.day, stampFrame_counter]
  rfl

section

variable {s : State} (noCue : s.counter.cue.map Cue.pos ≠ some ((s.counter.newest + 1) % s.day))

include noCue

/-- With no cue at the frame, the frame is met after the stops and the promotion. -/
theorem metFrame_of_no_cue : metFrame s = promoteAtStamp (takeArrival (stampFrame s)) := by
  rw [metFrame, fireCue_of_other]
  simp only [promoteAtStamp_frame, takeArrival_frame, stampFrame_counter]
  exact noCue

theorem metFrame_slot {i : Fin 3} {u : Take} (holds : s.takes.slots[i] = some u) :
    (metFrame s).takes.slots[i] =
      some (arrivedTake ((s.counter.newest + 1) % s.day) s.day s.takes.postRoll u) := by
  have arrived := takeArrival_slot (s := stampFrame s) ((congrArg (fun e => e.slots[i]) (stampFrame_takes s)).trans holds)
  rw [stampFrame_newest, stampFrame_day, stampFrame_takes] at arrived
  rw [metFrame_of_no_cue noCue]
  exact promoteAtStamp_slot_of_some arrived

end

/-! ### The end of an arrival over the index record (R161, R164) -/

theorem arriveFrame_record (f : FrameIn) {s : State} (run : s.inRun = true) {i : Fin 3} {u w : Take}
    (holds : (metFrame s).takes.slots[i] = some w) (mark : w.indexIssued = u.indexIssued) :
    ∃ v, (arriveFrame f s).takes.slots[i] = some v ∧ Accounts w v ∧ RecordDecided s (arriveFrame f s) i u v := by
  have met : (mixedFrame f s).takes.slots[i] = some w := by rw [mixedFrame_takes, holds]
  obtain ⟨x, offered, same⟩ := (holdsAccounted_of_eq met).offerFrame (ringFrameOf f s)
  have kept : x.indexIssued = u.indexIssued := by
    have marks := markOf_offerFrame i (ringFrameOf f s) (mixedFrame f s)
    rw [markOf_of_some offered, markOf_of_some met, mark] at marks
    exact Option.some.inj marks
  rw [arriveFrame_of_run f s run]
  obtain ⟨v, slot, accounts, decided⟩ :=
    finish_record (s := s) (u := u) s (promote_slot_of_some offered .afterFrame) kept
      (by simp only [promote_frame, offerFrame_frame, mixedFrame_frame])
      (by
        rw [State.day]
        simp only [promote_frame, offerFrame_frame, mixedFrame_frame, metFrame_counter]
        rfl)
  exact ⟨v, slot, same.trans accounts, decided⟩

/-- A take that the frame stops keeps its stop through the end of the arrival (R68, R69). -/
theorem arriveFrame_of_stopped (f : FrameIn) {s : State} (run : s.inRun = true) {i : Fin 3} {u : Take} {flags : TakeFlags}
    {newest : Nat}
    (stopped : (metFrame s).takes.slots[i] = some (stoppedHere newest s.takes.postRoll { u with flags := flags })) :
    ∃ v, (arriveFrame f s).takes.slots[i] = some v ∧
      (v.flags = flags ∧ v.e = some newest ∧ v.postRoll = 0 ∧ v.label = u.label ∧ v.origin = u.origin ∧ v.sr = u.sr ∧
        v.serial = u.serial) ∧
      RecordDecided s (arriveFrame f s) i u v ∧
      (0 < s.takes.postRoll → v.phase = .post) ∧
      (s.takes.postRoll = 0 → v.phase = .closing ∧ v.z = some newest) := by
  obtain ⟨e, postRoll, label, origin, sr, sameFlags, serial, mark⟩ :=
    stoppedHere_fields newest s.takes.postRoll { u with flags := flags }
  obtain ⟨v, slot, ⟨next, g, gaps, merged, issued, rfl⟩, decided⟩ := arriveFrame_record (u := u) f run stopped mark
  refine ⟨_, slot, ⟨sameFlags, e, postRoll, label, origin, sr, serial⟩, decided, fun positive => ?_, fun none => ⟨?_, ?_⟩⟩
  · dsimp only
    rw [stoppedHere_of_postRoll positive]
  · dsimp only
    rw [none, stoppedHere_of_none]
  · dsimp only
    rw [none, stoppedHere_of_none]

/-! ### AWAITED_STOP (R69) -/

theorem someSlot_of_slot {p : Take → Bool} {s : State} {i : Fin 3} {u : Take} (holds : s.takes.slots[i] = some u)
    (meets : p u = true) : someSlot p s = true := by
  have here : (s.takes.slots[i].map p).getD false = true := by
    rw [holds]
    exact meets
  obtain rfl | rfl | rfl : i = 0 ∨ i = 1 ∨ i = 2 := by omega
  · exact Bool.or_eq_true_iff.mpr (.inl (Bool.or_eq_true_iff.mpr (.inl here)))
  · exact Bool.or_eq_true_iff.mpr (.inl (Bool.or_eq_true_iff.mpr (.inr here)))
  · exact Bool.or_eq_true_iff.mpr (.inr here)

/-- A row of an arrival whose condition comes about is the arrival. -/
theorem next_of_due {c : Bool} (due : c = true) (f : FrameIn) (s : State) :
    (Host.Outcome.next (if c then arriveFrame f s else s) : Host.Outcome State Fault Refusal) = .next (arriveFrame f s) := by
  rw [due, if_pos rfl]

theorem arrivedTake_of_limit {newest D postRoll : Nat} {u : Take} (rolling : u.phase = .rolling)
    (limit : newest = halfDayLimit D u.sr postRoll) :
    arrivedTake newest D postRoll u =
      stoppedHere newest postRoll { u with flags := { u.flags with forcedStop := true } } := by
  rw [arrivedTake, rolling]
  exact if_pos limit

theorem arrivedTake_of_awaited {newest D postRoll : Nat} {u : Take} (rolling : u.phase = .rolling)
    (awaited : u.e = some newest) :
    ∃ flags, arrivedTake newest D postRoll u = stoppedHere newest postRoll { u with flags := flags } := by
  by_cases limit : newest = halfDayLimit D u.sr postRoll
  · exact ⟨_, arrivedTake_of_limit rolling limit⟩
  · have stopped : arrivedTake newest D postRoll u = stoppedHere newest postRoll u := by
      simp only [arrivedTake, rolling, if_neg limit, if_pos awaited]
    exact ⟨u.flags, stopped⟩

/-- Settles O34: the stop falls due at the frame, and the rest of the arrival leaves the stopped take but for its accounts. -/
theorem awaitedStopTakesEffect : Obligations.AwaitedStopTakesEffect := by
  unfold Obligations.AwaitedStopTakesEffect
  intro f s i u phase holds rolling awaited noCue
  have run := inRun_of_run phase
  have due : awaitedStopDue s = true := by
    rw [awaitedStopDue, run, Bool.true_and]
    refine someSlot_of_slot holds ?_
    rw [awaitedDue, rolling, awaited, stampFrame_newest, beq_self_eq_true, beq_self_eq_true, Bool.and_self]
  have met := metFrame_slot noCue holds
  obtain ⟨flags, stopped⟩ := arrivedTake_of_awaited (D := s.day) (postRoll := s.takes.postRoll) rolling awaited
  rw [stopped] at met
  obtain ⟨v, slot, ⟨-, e, postRoll, label, origin, sr, serial⟩, decided, post, closing⟩ := arriveFrame_of_stopped f run met
  exact ⟨_, v, next_of_due due f s, rfl, slot, e.trans awaited.symm, postRoll, label, origin, sr, serial, decided, post,
    closing⟩

/-! ### HALF_DAY_STOP (R60, R68) -/

theorem arriveSlot_serial (i : Fin 3) (s : State) : (arriveSlot i s).takes.serial = s.takes.serial := by
  have stopped (u : Take) (e : Nat) : (stopTake i u e s).takes.serial = s.takes.serial := by
    unfold stopTake
    dsimp only
    split_ifs <;> rfl
  unfold arriveSlot
  split
  · rfl
  · split_ifs
    · exact stopped _ _
    · exact stopped _ _
    · rfl
    · rfl
    · rfl

/-- A Reached pending start at its half-day limit is removed by the arrival of the frame, and starts nothing there (R60). -/
theorem takeArrival_of_pendingLimit {s : State} {q : PendingStart} (start : s.takes.pendingStart = some q)
    (limit : pendingLimitDue s q = true) :
    (takeArrival s).takes.pendingStart = none ∧ (takeArrival s).takes.serial = s.takes.serial := by
  have slots : (arriveSlot 2 (arriveSlot 1 (arriveSlot 0 s))).takes.pendingStart = some q := by
    rw [arriveSlot_pendingStart, arriveSlot_pendingStart, arriveSlot_pendingStart, start]
  have due : pendingLimitDue (arriveSlot 2 (arriveSlot 1 (arriveSlot 0 s))) q = true := by
    rw [pendingLimitDue, State.day]
    simp only [arriveSlot_frame, arriveSlot_postRoll]
    exact limit
  have removed : takeArrival s = dropPending (arriveSlot 2 (arriveSlot 1 (arriveSlot 0 s))) := by
    rw [takeArrival, arrivePending, slots]
    exact if_pos due
  rw [removed]
  refine ⟨rfl, ?_⟩
  change (arriveSlot 2 (arriveSlot 1 (arriveSlot 0 s))).takes.serial = _
  rw [arriveSlot_serial, arriveSlot_serial, arriveSlot_serial]

theorem promote_of_no_pendingStart (v : RingView) {s : State} (noStart : s.takes.pendingStart = none) : promote v s = s := by
  rw [promote, noStart]

/-- From the meeting of the frame on, an arrival with no pending start changes take records alone. -/
theorem slotsAlone_arriveFrame (f : FrameIn) {s : State} (run : s.inRun = true)
    (noStart : (metFrame s).takes.pendingStart = none) : SlotsAlone (metFrame s) (arriveFrame f s) := by
  have offered : SlotsAlone (metFrame s) (offerFrame (ringFrameOf f s) (mixedFrame f s)) :=
    (slotsAlone_of_takes (mixedFrame_takes f s)).trans (slotsAlone_offerFrame _ _)
  rw [arriveFrame_of_run f s run, promote_of_no_pendingStart _ (offered.pendingStart.trans noStart)]
  exact offered.trans (slotsAlone_finish s _)

/-- Settles O36: the limit falls due at the frame, for a ROLLING take as a forced stop and for a pending start as its end. -/
theorem halfDayStopsTheTake : Obligations.HalfDayStopsTheTake := by
  unfold Obligations.HalfDayStopsTheTake
  intro f s phase noCue
  have run := inRun_of_run phase
  refine ⟨fun i u holds rolling limit => ?take, fun q start reached limit => ?pending⟩
  case take =>
    have due : halfDayStopDue s = true := by
      rw [halfDayStopDue, run, Bool.true_and, Bool.or_eq_true_iff]
      refine .inl (someSlot_of_slot holds ?_)
      rw [halfDayDue, rolling, stampFrame_newest, stampFrame_day, stampFrame_takes, ← limit, beq_self_eq_true,
        beq_self_eq_true, Bool.and_self]
    have met := metFrame_slot noCue holds
    rw [arrivedTake_of_limit rolling limit] at met
    obtain ⟨v, slot, ⟨flags, e, postRoll, label, -, sr, -⟩, decided, post, closing⟩ := arriveFrame_of_stopped f run met
    exact ⟨_, v, next_of_due due f s, rfl, slot, flags, e, postRoll, sr, label, decided, post, closing⟩
  case pending =>
    have limitDue : pendingLimitDue (stampFrame s) q = true := by
      rw [pendingLimitDue, reached, stampFrame_newest, stampFrame_day, stampFrame_takes, ← limit, beq_self_eq_true,
        Bool.and_self]
    have due : halfDayStopDue s = true := by
      rw [halfDayStopDue, run, Bool.true_and, start, Bool.or_eq_true_iff]
      exact .inr limitDue
    obtain ⟨removed, serial⟩ := takeArrival_of_pendingLimit (by rw [stampFrame_takes, start]) limitDue
    have met : metFrame s = takeArrival (stampFrame s) := by
      rw [metFrame_of_no_cue noCue, promoteAtStamp_of_no_pendingStart removed]
    rw [← met] at removed serial
    have engine := slotsAlone_arriveFrame f run removed
    refine ⟨_, next_of_due due f s, rfl, engine.pendingStart.trans removed, engine.serial.trans (serial.trans ?_)⟩
    rw [stampFrame_takes]

/-! ### POST_ROLL_COMPLETE (R70, R72) -/

/-- Scene, next take number and closed identities of t are those of s. -/
structure LabelsStand (s t : State) : Prop where
  scene : t.takes.scene = s.takes.scene
  nextTake : t.takes.nextTake = s.takes.nextTake
  closed : t.takes.closed = s.takes.closed

theorem SlotsAlone.labels {s t : State} (h : SlotsAlone s t) : LabelsStand s t := ⟨h.scene, h.nextTake, h.closed⟩

theorem LabelsStand.trans {s t u : State} (first : LabelsStand s t) (second : LabelsStand t u) : LabelsStand s u :=
  ⟨second.scene.trans first.scene, second.nextTake.trans first.nextTake, second.closed.trans first.closed⟩

theorem labelsStand_promote (v : RingView) (s : State) : LabelsStand s (promote v s) := by
  unfold promote
  split
  case h_1 q _ =>
    split
    case isTrue due =>
      obtain ⟨i, empty⟩ := Option.isSome_iff_exists.mp (Bool.and_eq_true_iff.mp due).2
      obtain ⟨scene, nextTake, closed⟩ := (startSlot_counts (s := dropPending s) empty v q.label q.origin q.start
        { follower := q.source == .peer }).labels
      exact ⟨scene, nextTake, closed⟩
    case isFalse => exact ⟨rfl, rfl, rfl⟩
  case h_2 => exact ⟨rfl, rfl, rfl⟩

theorem labelsStand_promoteAtStamp (s : State) : LabelsStand s (promoteAtStamp s) := by
  unfold promoteAtStamp
  split
  · split
    · exact ⟨rfl, rfl, rfl⟩
    · obtain ⟨scene, nextTake, closed⟩ := labelsStand_promote .beforeFrame { s with orders := s.orders + 1 }
      exact ⟨scene, nextTake, closed⟩
  · exact ⟨rfl, rfl, rfl⟩

theorem labelsStand_arrivePending (s : State) : LabelsStand s (arrivePending s) := by
  unfold arrivePending
  split
  · exact ⟨rfl, rfl, rfl⟩
  · split <;> exact ⟨rfl, rfl, rfl⟩

theorem labelsStand_arriveFrame (f : FrameIn) {s : State} (run : s.inRun = true) :
    LabelsStand (metFrame s) (arriveFrame f s) := by
  have offered : SlotsAlone (metFrame s) (offerFrame (ringFrameOf f s) (mixedFrame f s)) :=
    (slotsAlone_of_takes (mixedFrame_takes f s)).trans (slotsAlone_offerFrame _ _)
  rw [arriveFrame_of_run f s run]
  exact (offered.labels.trans (labelsStand_promote _ _)).trans (slotsAlone_finish s _).labels

theorem arriveSlot_of_not_open {s : State} {i : Fin 3} (notOpen : isOpen s.takes.slots[i] = false) : arriveSlot i s = s := by
  cases holds : s.takes.slots[i] with
  | none => exact arriveSlot_of_empty holds
  | some u =>
    rw [holds, Bool.eq_false_iff, Ne, isOpen_iff, not_not] at notOpen
    exact arriveSlot_of_undisturbed holds (.inl notOpen)

/-- Where only slot i may be open, an arrival concerns that slot and the pending start alone. -/
theorem takeArrival_of_only {s : State} {i : Fin 3} (only : ∀ j, j ≠ i → isOpen s.takes.slots[j] = false) :
    takeArrival s = arrivePending (arriveSlot i s) := by
  have passes (j : Fin 3) (other : j ≠ i) : arriveSlot j s = s ∧ arriveSlot j (arriveSlot i s) = arriveSlot i s := by
    refine ⟨arriveSlot_of_not_open (only j other), arriveSlot_of_not_open ?_⟩
    rw [arriveSlot_slot_of_ne (Ne.symm other)]
    exact only j other
  rw [takeArrival]
  obtain rfl | rfl | rfl : i = 0 ∨ i = 1 ∨ i = 2 := by omega
  · rw [(passes 1 (by decide)).2, (passes 2 (by decide)).2]
  · rw [(passes 0 (by decide)).1, (passes 2 (by decide)).2]
  · rw [(passes 0 (by decide)).1, (passes 1 (by decide)).1]

theorem arriveSlot_of_last {s : State} {i : Fin 3} {u : Take} (holds : s.takes.slots[i] = some u) (post : u.phase = .post)
    (last : s.takes.postRoll ≤ u.postRoll + 1) :
    arriveSlot i s =
      closeSlot i
        { u with postRoll := u.postRoll + 1, z := some (posAdd s.day (u.e.getD u.sr) s.takes.postRoll) } s := by
  simp only [arriveSlot, holds, halfDayDue, awaitedDue, post, last, beq_iff_eq, reduceCtorEq, Bool.and_eq_true, false_and,
    if_false, if_true]

/-- Settles O35: the last frame of the only open take's post-roll closes it, and nothing after it in the arrival closes a take. -/
theorem postRollCompletes : Obligations.PostRollCompletes := by
  unfold Obligations.PostRollCompletes
  intro f s i u e phase holds post stop last only noCue
  have run := inRun_of_run phase
  have due : postRollCompleteDue s = true := by
    rw [postRollCompleteDue, run, Bool.true_and]
    refine someSlot_of_slot holds ?_
    rw [postRollDue, post, stampFrame_takes, beq_self_eq_true, Bool.true_and, decide_eq_true_iff, last]
  have arrived : arrivedTake ((s.counter.newest + 1) % s.day) s.day s.takes.postRoll u =
      { u with postRoll := u.postRoll + 1, z := some (posAdd s.day (u.e.getD u.sr) s.takes.postRoll), phase := .closing } := by
    rw [arrivedTake, post]
    exact if_pos last.ge
  have met := metFrame_slot noCue holds
  rw [arrived] at met
  obtain ⟨v, slot, ⟨next, g, gaps, merged, issued, rfl⟩, decided⟩ := arriveFrame_record (u := u) f run met rfl
  have stamped := stampFrame_takes s
  have closed : LabelsStand (arriveSlot i (stampFrame s)) (arriveFrame f s) := by
    have others (j : Fin 3) (other : j ≠ i) : isOpen (stampFrame s).takes.slots[j] = false := by
      rw [stamped]
      exact Bool.eq_false_iff.mpr fun isOpenTake => other (only j isOpenTake)
    refine LabelsStand.trans ?_ (labelsStand_arriveFrame f run)
    rw [metFrame_of_no_cue noCue, takeArrival_of_only others]
    exact (labelsStand_arrivePending _).trans (labelsStand_promoteAtStamp _)
  rw [arriveSlot_of_last (u := u) (by rw [stamped]; exact holds) post (by rw [stamped]; exact last.ge)] at closed
  refine ⟨_, _, next_of_due due f s, rfl, slot, rfl, stop, ?_, last, rfl, rfl, decided, closed.scene, closed.nextTake, ?_⟩
  · dsimp only
    rw [stop]
    rfl
  · refine closed.closed.trans ?_
    change appendClosed u.identity (stampFrame s).takes.closed = _
    rw [stamped]

end Sys2Proof.Proofs
end

section
/-! PROOFS. The promotion of a pending start, as an event of its own and at the arrival of the frame at S, before or after the ring
takes the frame (R46, R49, R60, R67, R120, R121). -/

namespace Sys2Proof.Proofs

open Sys2Proof Sys2Proof.Machine Sys2Proof.Safety

/-! ### The promotion test (R60, R120, R121) -/

/-- The take that a promotion makes of a pending start: a follower when its source is PEER, its origin lost when that is an ABSENT
peer (R60, R120, R121). -/
def promotedTake (v : RingView) (q : PendingStart) (s : State) : Take :=
  freshTake v q.label q.origin q.start
    { follower := decide (q.source = .peer), originLost := peerIsAbsent s q.origin } s

section

variable {s : State} {q : PendingStart} {i : Fin 3} (start : s.takes.pendingStart = some q) (reached : q.reached = true)
  (empty : emptySlot s = some i)

include start reached empty

theorem promotionDue_of_reached : promotionDue s = true := by
  rw [promotionDue, start]
  dsimp only
  rw [reached, empty, Bool.true_and, Option.isSome_some]

theorem promote_eq_startSlot (v : RingView) :
    promote v s =
      startSlot v q.label q.origin q.start { follower := decide (q.source = .peer) } (dropPending s) := by
  have follower : (q.source == .peer) = decide (q.source = .peer) := by cases q.source <;> rfl
  rw [promote, start]
  dsimp only
  rw [reached, empty, Bool.true_and, Option.isSome_some, if_pos rfl, follower]

theorem promote_slot (v : RingView) : (promote v s).takes.slots[i] = some (promotedTake v q s) := by
  rw [promote_eq_startSlot start reached empty]
  exact startSlot_slot (s := dropPending s) empty v _ _ _ _

theorem promote_engine (v : RingView) :
    (promote v s).takes.pendingStart = none ∧ (promote v s).takes.serial = nextSerial s.takes.serial := by
  rw [promote_eq_startSlot start reached empty]
  have counts := startSlot_counts (s := dropPending s) empty v q.label q.origin q.start
    { follower := decide (q.source = .peer) }
  exact ⟨counts.pendingStart, counts.serial⟩

theorem isPending_takeStarted_promote (v : RingView) : isPending .takeStarted (promote v s) = true := by
  rw [promote_eq_startSlot start reached empty]
  exact isPending_takeStarted_startSlot (s := dropPending s) empty v _ _ _ _

theorem isPending_originLost_promote (v : RingView) (absent : peerIsAbsent s q.origin = true) :
    isPending .originLost (promote v s) = true := by
  rw [promote_eq_startSlot start reached empty]
  exact isPending_originLost_startSlot (s := dropPending s) empty v _ _ _ _ absent

end

theorem isPending_of_notices {k : Notice} {s t : State} (same : t.notices = s.notices) : isPending k t = isPending k s := by
  rw [isPending, same, isPending]

/-! ### The head of a start at the newest position (R48, R49) -/

theorem posSub_self {D : Nat} (pos : 0 < D) (p : Nat) : posSub D p p = 0 := by
  have place := posSub_eq_emod pos p p
  rw [sub_self, Int.zero_emod] at place
  exact Int.natCast_eq_zero.mp place

/-- Only a frame at the newest position lies from it up to the newest position. -/
theorem fromUpToNewest_newest {s : State} {p : Nat} (inUse : fromUpToNewest s s.counter.newest p = true) :
    p % s.day = s.counter.newest % s.day := by
  have reach : posSub s.day p s.counter.newest ≤ posSub s.day s.counter.newest s.counter.newest := of_decide_eq_true inUse
  rw [posSub_self (day_pos s), Nat.le_zero] at reach
  have sum := add_posSub_mod (day_pos s) s.counter.newest p
  rw [reach, Nat.add_zero] at sum
  exact sum.symm

theorem find?_newest_eq_none {s : State} {frames : List RingFrame}
    (unheld : ∀ g ∈ frames, g.pos % s.day ≠ s.counter.newest % s.day) :
    frames.find? (fun g => fromUpToNewest s s.counter.newest g.pos) = none := by
  rw [List.find?_eq_none]
  exact fun g member inUse => unheld g member (fromUpToNewest_newest inUse)

/-- A start at the newest position inside its arrival, before the ring holds the frame, begins there with nothing missing (R49). -/
theorem headOf_newest_before {s : State} (unheld : ∀ g ∈ s.ring.frames, g.pos % s.day ≠ s.counter.newest % s.day) :
    headOf .beforeFrame s s.counter.newest = (0, s.counter.newest) := by
  have answer : lookup .beforeFrame s s.counter.newest = .none s.counter.newest := by
    rw [lookup, isLater_self (day_pos s), if_neg Bool.false_ne_true, find?_newest_eq_none unheld]
    rfl
  simp only [headOf, answer, countAfter_self (day_pos s)]

/-- Once the ring has taken the frame at the newest position, a start there begins at that frame (R48). -/
theorem headOf_newest_after {s : State} {old : List RingFrame} {g : RingFrame} (frames : s.ring.frames = old ++ [g])
    (unheld : ∀ h ∈ old, h.pos % s.day ≠ s.counter.newest % s.day) (position : g.pos = s.counter.newest) :
    headOf .afterFrame s s.counter.newest = (0, s.counter.newest) := by
  have inUse : fromUpToNewest s s.counter.newest g.pos = true := by
    rw [position]
    exact decide_eq_true (Nat.le_refl _)
  have answer : lookup .afterFrame s s.counter.newest = .held s.counter.newest := by
    rw [lookup, isLater_self (day_pos s), if_neg Bool.false_ne_true, frames, List.find?_append,
      find?_newest_eq_none unheld, Option.none_or, List.find?_singleton, inUse, if_pos rfl]
    exact congrArg Lookup.held position
  simp only [headOf, answer, countAfter_self (day_pos s)]

/-! ### The arrival of the frame at S (R59, R60) -/

theorem takeArrival_isNone (s : State) (i : Fin 3) :
    (takeArrival s).takes.slots[i].isNone = s.takes.slots[i].isNone := by
  cases holds : s.takes.slots[i] with
  | none => rw [(revises_takeArrival s).empty holds]
  | some u => rw [takeArrival_slot holds]; rfl

/-- The frame at S makes a pending start Reached, whatever it does to the slots (R59). -/
theorem takeArrival_of_reached {s : State} {q : PendingStart} (start : s.takes.pendingStart = some q)
    (unreached : q.reached = false) (here : q.start = s.counter.newest) :
    (takeArrival s).takes.pendingStart = some { q with reached := true } ∧
      (takeArrival s).takes.serial = s.takes.serial := by
  have slots : (arriveSlot 2 (arriveSlot 1 (arriveSlot 0 s))).takes.pendingStart = some q := by
    rw [arriveSlot_pendingStart, arriveSlot_pendingStart, arriveSlot_pendingStart, start]
  have noLimit : pendingLimitDue (arriveSlot 2 (arriveSlot 1 (arriveSlot 0 s))) q = false := by
    rw [pendingLimitDue, unreached, Bool.false_and]
  have at_newest : (q.start == (arriveSlot 2 (arriveSlot 1 (arriveSlot 0 s))).counter.newest) = true := by
    simp only [arriveSlot_frame, here, beq_self_eq_true]
  have made : takeArrival s =
      makePending { q with reached := true } (arriveSlot 2 (arriveSlot 1 (arriveSlot 0 s))) := by
    rw [takeArrival, arrivePending, slots]
    dsimp only
    rw [noLimit, if_neg Bool.false_ne_true, at_newest, Bool.or_true]
  rw [made]
  refine ⟨rfl, ?_⟩
  change (arriveSlot 2 (arriveSlot 1 (arriveSlot 0 s))).takes.serial = _
  rw [arriveSlot_serial, arriveSlot_serial, arriveSlot_serial]

theorem peerIsAbsent_congr {s t : State} (port : t.port = s.port) (link : t.link = s.link) (origin : Nat) :
    peerIsAbsent t origin = peerIsAbsent s origin := by
  rw [peerIsAbsent, port, link, peerIsAbsent]

/-- The take engine at the stamping of the frame at S: the pending start Reached and due for the lowest EMPTY slot, the other
blocks as they were. -/
structure ReachedAtFrame (s x : State) (q : PendingStart) (i : Fin 3) : Prop where
  start : x.takes.pendingStart = some { q with reached := true }
  empty : emptySlot x = some i
  serial : x.takes.serial = s.takes.serial
  newest : x.counter.newest = q.start
  day : x.day = s.day
  ring : x.ring = s.ring
  absent : peerIsAbsent x q.origin = peerIsAbsent s q.origin

theorem takeArrival_reachedAtFrame {s : State} {q : PendingStart} {i : Fin 3} (start : s.takes.pendingStart = some q)
    (empty : emptySlot s = some i) (unreached : q.reached = false) (here : q.start = (s.counter.newest + 1) % s.day) :
    ReachedAtFrame s (takeArrival (stampFrame s)) q i := by
  have stamped := stampFrame_takes s
  obtain ⟨reached, serial⟩ := takeArrival_of_reached (s := stampFrame s) (stamped.symm ▸ start) unreached
    (here.trans (stampFrame_newest s).symm)
  have isNone (j : Fin 3) : (takeArrival (stampFrame s)).takes.slots[j].isNone = s.takes.slots[j].isNone := by
    rw [takeArrival_isNone, stamped]
  exact
    { start := reached
      empty := (emptySlot_congr isNone).trans empty
      serial := by rw [serial, stamped]
      newest := by simp only [takeArrival_frame, stampFrame_newest, here]
      day := by
        rw [← stampFrame_day s, State.day, State.day]
        simp only [takeArrival_frame]
      ring := by simp only [takeArrival_frame, stampFrame_frame]
      absent := peerIsAbsent_congr (by simp only [takeArrival_frame, stampFrame_frame])
        (by simp only [takeArrival_frame, stampFrame_frame]) _ }

/-! ### What a promotion is known by -/

/-- The state t holds, in slot i, the take u started from the pending start q of s (R60, R67, R120, R121). -/
def StartedBy (s t : State) (q : PendingStart) (i : Fin 3) (u : Take) : Prop :=
  t.takes.slots[i] = some u ∧ t.takes.pendingStart = none ∧ t.takes.serial = nextSerial s.takes.serial ∧
    isPending .takeStarted t = true ∧ t.port = s.port ∧ u.phase = .rolling ∧ u.label = q.label ∧ u.origin = q.origin ∧
    u.sr = q.start ∧ u.serial = nextSerial s.takes.serial ∧
    u.flags = { follower := decide (q.source = .peer), originLost := peerIsAbsent s q.origin } ∧
    (peerIsAbsent s q.origin = true → isPending .originLost t = true)

section

variable {s t : State} {q : PendingStart} {i : Fin 3} {v : RingView} {x : State} {u : Take}

/-- A slot that holds the promoted take, but for its accounts, is started from the pending start; whether the promotion found it
Reached or the frame made it so. -/
theorem startedBy_of_promotedTake (accounts : Accounts (promotedTake v { q with reached := true } x) u)
    (slot : t.takes.slots[i] = some u) (engine : t.takes.pendingStart = none ∧ t.takes.serial = nextSerial s.takes.serial)
    (port : t.port = s.port) (serial : x.takes.serial = s.takes.serial)
    (absent : peerIsAbsent x q.origin = peerIsAbsent s q.origin) (started : isPending .takeStarted t = true)
    (lost : peerIsAbsent x q.origin = true → isPending .originLost t = true) : StartedBy s t q i u := by
  obtain ⟨next, g, gaps, merged, issued, rfl⟩ := accounts
  refine ⟨slot, engine.1, engine.2, started, port, rfl, rfl, rfl, rfl, ?_, ?_, absent ▸ lost⟩
  · change nextSerial x.takes.serial = _
    rw [serial]
  · rw [← absent]
    rfl

end

/-! ### A promotion before the ring takes the frame, and one after it (R46, R49) -/

section

variable (f : FrameIn) {s : State} {q : PendingStart} {i : Fin 3} (run : s.inRun = true)
  (noCue : s.counter.cue.map Cue.pos ≠ some ((s.counter.newest + 1) % s.day))
  (here : q.start = (s.counter.newest + 1) % s.day) (room : s.ring.frames.length < 1048576)
  (unheld : ∀ g ∈ s.ring.frames, g.pos % s.day ≠ q.start) (notFull : cardFull s = false)
  (reached : ReachedAtFrame s (takeArrival (stampFrame s)) q i)

theorem offerFrame_mixedFrame (room : s.ring.frames.length < 1048576) :
    offerFrame (ringFrameOf f s) (mixedFrame f s) =
      { mixedFrame f s with ring := { s.ring with frames := s.ring.frames ++ [ringFrameOf f s] } } := by
  have ring : (mixedFrame f s).ring = s.ring := by simp only [mixedFrame_frame]
  rw [offerFrame_of_room _ (by rw [ring]; exact room), ring]

include run noCue here room unheld notFull reached

theorem startedBy_before_ring
    (met : promoteAtStamp (takeArrival (stampFrame s)) =
      promote .beforeFrame
        { takeArrival (stampFrame s) with orders := (takeArrival (stampFrame s)).orders + 1 }) :
    ∃ u, StartedBy s (arriveFrame f s) q i u ∧ u.h = 0 ∧ u.next = q.start ∧ u.watch = q.start := by
  rw [← metFrame_of_no_cue noCue] at met
  generalize due : ({ takeArrival (stampFrame s) with orders := (takeArrival (stampFrame s)).orders + 1 } : State) = x at met
  obtain ⟨start, empty, serial, newest, day, ring, absent⟩ : ReachedAtFrame s x q i := by
    subst due
    exact ⟨reached.start, reached.empty, reached.serial, reached.newest, reached.day, reached.ring, reached.absent⟩
  have head : headOf .beforeFrame x q.start = (0, q.start) := by
    rw [← newest]
    refine headOf_newest_before fun g member => ?_
    rw [day, newest, here, Nat.mod_mod, ← here]
    exact unheld g (ring ▸ member)
  have slot : (metFrame s).takes.slots[i] = some (promotedTake .beforeFrame { q with reached := true } x) := by
    rw [met]
    exact promote_slot start rfl empty .beforeFrame
  have engine := promote_engine start rfl empty .beforeFrame
  rw [← met, serial] at engine
  have offered := offerFrame_mixedFrame f room
  have stands := slotsAlone_arriveFrame f run engine.1
  obtain ⟨issued, ended⟩ := arriveFrame_slot_of_held f run notFull (i := i)
    (u := promotedTake .beforeFrame { q with reached := true } x)
    (by rw [offered, ← slot, ← mixedFrame_takes f s])
    ⟨ringFrameOf f s, by rw [offered]; exact List.mem_append_right _ (List.mem_singleton_self _),
      here.symm.trans (congrArg Prod.snd head).symm⟩
  refine ⟨_, startedBy_of_promotedTake (x := x) ⟨_, _, _, _, issued, rfl⟩ ended
    ⟨stands.pendingStart.trans engine.1, stands.serial.trans engine.2⟩ (by simp only [arriveFrame_frame]) serial absent ?_ ?_,
    congrArg Prod.fst head, congrArg Prod.snd head, newest⟩
  · refine isPending_of_metFrame f run ?_
    rw [met]
    exact isPending_takeStarted_promote start rfl empty .beforeFrame
  · refine fun lost => isPending_of_metFrame f run ?_
    rw [met]
    exact isPending_originLost_promote start rfl empty .beforeFrame lost

theorem startedBy_after_ring
    (met : promoteAtStamp (takeArrival (stampFrame s)) =
      { takeArrival (stampFrame s) with orders := (takeArrival (stampFrame s)).orders + 1 }) :
    ∃ u, StartedBy s (arriveFrame f s) q i u ∧ u.h = 0 ∧ u.next = q.start ∧ u.watch = (q.start + 1) % s.day := by
  rw [← metFrame_of_no_cue noCue] at met
  have arrival := arriveFrame_of_run f s run
  have offered := offerFrame_mixedFrame f room
  generalize offer : offerFrame (ringFrameOf f s) (mixedFrame f s) = x at arrival offered
  have takes : x.takes = (takeArrival (stampFrame s)).takes := by rw [offered, mixedFrame_takes, met]
  have counter : x.counter = (takeArrival (stampFrame s)).counter := by
    rw [offered]
    simp only [mixedFrame_frame, met]
  have writer : x.writer = s.writer := by
    rw [offered]
    simp only [mixedFrame_frame]
  have frames : x.ring.frames = s.ring.frames ++ [ringFrameOf f s] := by rw [offered]
  have start : x.takes.pendingStart = some { q with reached := true } := by rw [takes, reached.start]
  have empty : emptySlot x = some i := (emptySlot_congr fun j => by rw [takes]).trans reached.empty
  have serial : x.takes.serial = s.takes.serial := by rw [takes, reached.serial]
  have newest : x.counter.newest = q.start := by rw [counter, reached.newest]
  have day : x.day = s.day := by rw [← reached.day, State.day, State.day, counter]
  have absent : peerIsAbsent x q.origin = peerIsAbsent s q.origin := by
    refine peerIsAbsent_congr ?_ ?_ _
    all_goals
      rw [offered]
      simp only [mixedFrame_frame]
  have head : headOf .afterFrame x q.start = (0, q.start) := by
    rw [← newest]
    refine headOf_newest_after frames (fun g member => ?_) (here.symm.trans newest.symm)
    rw [day, newest, here, Nat.mod_mod, ← here]
    exact unheld g member
  have slot := promote_slot start rfl empty .afterFrame
  have answer : HeldOrAhead (promote .afterFrame x) (promotedTake .afterFrame { q with reached := true } x).next := by
    have held := heldOrAhead_of_mem (s := x) (g := ringFrameOf f s)
      (by rw [frames]; exact List.mem_append_right _ (List.mem_singleton_self _))
    refine heldOrAhead_congr (s := x) (by simp only [promote_frame]) (by simp only [promote_frame]) ?_
    rwa [show (promotedTake .afterFrame { q with reached := true } x).next = (ringFrameOf f s).pos from
      (congrArg Prod.snd head).trans here]
  have ended := finish_slot_of_heldOrAhead (before := s) slot answer
    (by rw [cardFull_of_writer (s := s) (by simp only [promote_frame, writer])]; exact notFull) nofun
  have stands := slotsAlone_finish s (promote .afterFrame x)
  have engine := promote_engine start rfl empty .afterFrame
  rw [serial] at engine
  rw [← arrival] at ended stands
  have notices : (arriveFrame f s).notices = (promote .afterFrame x).notices := by
    rw [arrival, finish_notices]
  refine ⟨_, startedBy_of_promotedTake (x := x) (.refl _) ended
    ⟨stands.pendingStart.trans engine.1, stands.serial.trans engine.2⟩ (by simp only [arriveFrame_frame]) serial absent ?_ ?_,
    congrArg Prod.fst head, congrArg Prod.snd head, ?_⟩
  · rw [isPending_of_notices notices]
    exact isPending_takeStarted_promote start rfl empty .afterFrame
  · intro lost
    rw [isPending_of_notices notices]
    exact isPending_originLost_promote start rfl empty .afterFrame lost
  · change (x.counter.newest + 1) % x.day = _
    rw [newest, day]

end

/-- Settles O39: the promotion's own event, and the arrival of the frame at S in either order of promotion and ring. -/
theorem pendingStartIsPromoted : Obligations.PendingStartIsPromoted := by
  unfold Obligations.PendingStartIsPromoted
  intro s q i phase start empty
  have run := inRun_of_run phase
  refine ⟨fun reached => ?event, fun unreached here noCue room unheld notFull f => ?arrival⟩
  case event =>
    have due := promotionDue_of_reached start reached empty
    have command : exec .pendingStartPromotion s = .next (finish s (promote .afterFrame s)) := by
      change Host.Outcome.next (if s.inRun && promotionDue s then _ else s) = _
      rw [run, due]
      rfl
    have stands := slotsAlone_finish s (promote .afterFrame s)
    have engine := promote_engine start reached empty .afterFrame
    obtain ⟨u, slot, accounts⟩ := HoldsAccounted.finish s (holdsAccounted_of_eq (promote_slot start reached empty .afterFrame))
    have notices := finish_notices s (promote .afterFrame s)
    have startedBy : StartedBy s (finish s (promote .afterFrame s)) q i u := by
      refine startedBy_of_promotedTake (x := s) (v := .afterFrame) accounts slot
        ⟨stands.pendingStart.trans engine.1, stands.serial.trans engine.2⟩ ?_ rfl rfl ?_ fun lost => ?_
      · simp only [finish_frame, promote_frame]
      · rw [isPending_of_notices notices]
        exact isPending_takeStarted_promote start reached empty .afterFrame
      · rw [isPending_of_notices notices]
        exact isPending_originLost_promote start reached empty .afterFrame lost
    obtain ⟨next, g, gaps, merged, issued, rfl⟩ := accounts
    refine ⟨_, _, command, startedBy, ?_, ?_, rfl, rfl⟩
    · simp only [finish_frame, promote_frame]
    · simp only [finish_frame, promote_frame]
  case arrival =>
    have reached := takeArrival_reachedAtFrame start empty unreached here
    have newest : (arriveFrame f s).counter.newest = q.start := by
      rw [arriveFrame_counter f run, metFrame_counter, here]
    rcases promoteAtStamp_cases _ (promotionDue_of_reached reached.start rfl reached.empty) with later | first
    · obtain ⟨u, startedBy, h, next, watch⟩ := startedBy_after_ring f run noCue here room unheld notFull reached later
      exact ⟨_, u, rfl, startedBy, newest, h, next, .inr watch⟩
    · obtain ⟨u, startedBy, h, next, watch⟩ := startedBy_before_ring f run noCue here room unheld notFull reached first
      exact ⟨_, u, rfl, startedBy, newest, h, next, .inl watch⟩

end Sys2Proof.Proofs
end

section
/-! PROOFS. What the station writes and reads back: the fields of a STATUS, the optional fields and the text of a NOTE, and the
bytes of a selection at the port (R80, R87, R177, R189, R191, R193, R194). -/

namespace Sys2Proof.Proofs

open Sys2Proof Sys2Proof.Machine Sys2Proof.Safety

/-! ### Scenes and labels (R80, R189) -/

/-- A scene that SET SCENE stores: one to twelve characters, all of them printable (R80). -/
def PrintableScene (l : Text) : Prop := 1 ≤ l.length ∧ l.length ≤ 12 ∧ ∀ ch ∈ l, 32 ≤ ch.toNat ∧ ch.toNat ≤ 126

theorem normalScene_of_printable {l : Text} (scene : PrintableScene l) : normalScene l = l := by
  obtain ⟨some_character, short, printed⟩ := scene
  rw [normalScene_of_ne_nil (List.ne_nil_of_length_pos some_character), List.take_of_length_le short]
  exact (List.map_congr_left fun ch member => if_pos (printed ch member)).trans (List.map_id l)

/-- A scene in its 12 bytes is followed by zero bytes alone. -/
theorem sceneBytes_eq {l : Text} (short : l.length ≤ 12) :
    sceneBytes l = l ++ List.replicate (12 - l.length) 0#8 := by
  rw [sceneBytes, padTo, List.take_append, List.take_of_length_le short, List.take_replicate, Nat.min_eq_left (by omega)]

theorem readScene_sceneBytes {l : Text} (scene : PrintableScene l) : readScene (sceneBytes l) = l := by
  obtain ⟨-, short, printed⟩ := id scene
  have kept : ∀ ch ∈ l, (ch != 0#8) = true := fun ch member => by
    have low := (printed ch member).1
    rw [bne_iff_ne]
    rintro rfl
    cases low
  rw [readScene, sceneBytes_eq short, List.takeWhile_append_of_pos kept, List.takeWhile_replicate]
  simpa using normalScene_of_printable scene

theorem sceneBytes_length (l : Text) : (sceneBytes l).length = 12 := padTo_length 12 l

theorem labelBytes_length (r : Label) : (labelBytes r).length = 14 := by
  rw [labelBytes, List.length_append, sceneBytes_length, be_length]

/-- A field that starts behind these bytes is a field of what follows them. -/
theorem field_behind {front : List Byte} {offset : Nat} (behind : front.length ≤ offset) (rest : List Byte) (n : Nat) :
    field (front ++ rest) offset n = field rest (offset - front.length) n := by
  rw [field, field, List.drop_append, List.drop_of_length_le behind, List.nil_append]

theorem field_behind_scene {offset : Nat} (behind : 12 ≤ offset) (l : Text) (rest : List Byte) (n : Nat) :
    field (sceneBytes l ++ rest) offset n = field rest (offset - 12) n := by
  rw [field_behind (by rwa [sceneBytes_length]), sceneBytes_length]

theorem readLabel_labelBytes {r : Label} (scene : PrintableScene r.scene) (fits : r.number < 65536) :
    readLabel (labelBytes r) = r := by
  have number : field (labelBytes r) 12 2 = r.number := by
    rw [labelBytes, field_behind_scene (Nat.le_refl 12)]
    exact field_be (by omega)
  rw [readLabel, number, labelBytes, List.take_left' (sceneBytes_length _), readScene_sceneBytes scene]

/-! ### STATUS payloads (R87, R191) -/

theorem statusBytes_length (x : StatusFields) : (statusBytes x).length = 40 := by
  simp only [statusBytes, List.length_append, be_length, sceneBytes_length]

/-- The scene of a STATUS stands at its bytes 12 to 23. -/
theorem statusBytes_scene (x : StatusFields) : ((statusBytes x).drop 12).take 12 = sceneBytes x.scene := by
  simp only [statusBytes, List.append_assoc]
  simp only [List.drop_append, be_length, List.drop_of_length_le, List.nil_append, Nat.reduceSub, Nat.reduceLeDiff,
    List.drop_zero]
  exact List.take_left' (sceneBytes_length _)

/-! ### NOTE payloads (R125, R191) -/

theorem be_one (v : Nat) : be 1 v = [byte v] := by
  simp only [be, pow_zero, Nat.div_one, byte]

/-- The bytes of an optional field: its width where it is there, and none where it is not. -/
theorem optionalField_length {α : Type} {write : α → List Byte} {width : Nat} (all : ∀ x, (write x).length = width)
    (o : Option α) : ((o.map write).getD []).length = if o.isSome then width else 0 := by
  cases o with
  | none => rfl
  | some x => exact all x

/-- The presence marks of a note are those of its optional fields. -/
theorem noteMarks_bits (n : Note) :
    (byte (noteMarks n)).getLsbD 0 = n.ref.isSome ∧ (byte (noteMarks n)).getLsbD 1 = n.pos.isSome ∧
      (byte (noteMarks n)).getLsbD 2 = n.track.isSome := by
  unfold noteMarks
  cases n.ref.isSome <;> cases n.pos.isSome <;> cases n.track.isSome <;> decide

/-- An optional label reads back from the first 14 bytes. -/
theorem readLabel_optional {ref : Option Label}
    (fits : ∀ r, ref = some r → PrintableScene r.scene ∧ r.number < 65536) (after : List Byte) :
    (if ref.isSome = true then some (readLabel (((ref.map labelBytes).getD [] ++ after).take 14)) else none) = ref := by
  cases ref with
  | none => rfl
  | some r =>
    obtain ⟨scene, number⟩ := fits r rfl
    refine congrArg some ?_
    rw [Option.map_some, Option.getD_some, List.take_left' (labelBytes_length r), readLabel_labelBytes scene number]

/-- An optional integer reads back from its place. -/
theorem field_optional {width : Nat} {o : Option Nat} (fits : ∀ v, o = some v → v < 256 ^ width) (before after : List Byte) :
    (if o.isSome = true then some (field (before ++ (o.map (be width)).getD [] ++ after) before.length width) else none) =
      o := by
  cases o with
  | none => rfl
  | some v => exact congrArg some (field_append (fits v rfl))

/-- Optional fields and text read back from what follows presence marks that are theirs (R191). -/
theorem readMarked_optionals {marks : Byte} {x : RawNote} (refMark : marks.getLsbD 0 = x.ref.isSome)
    (posMark : marks.getLsbD 1 = x.pos.isSome) (trackMark : marks.getLsbD 2 = x.track.isSome)
    (refFits : ∀ r, x.ref = some r → PrintableScene r.scene ∧ r.number < 65536)
    (posFits : ∀ q, x.pos = some q → q < 2 ^ 40) (trackFits : ∀ k, x.track = some k → k < 256) (textFits : x.text.length < 256) :
    readMarked marks
        ((x.ref.map labelBytes).getD [] ++ (x.pos.map (be 5)).getD [] ++ (x.track.map (be 1)).getD [] ++
          be 1 x.text.length ++ x.text) =
      some x := by
  obtain ⟨ref, pos, track, text⟩ := x
  dsimp only at *
  have refLength := optionalField_length labelBytes_length ref
  have posLength := optionalField_length (be_length 5) pos
  have trackLength := optionalField_length (be_length 1) track
  have readRef := readLabel_optional refFits
    ((pos.map (be 5)).getD [] ++ (track.map (be 1)).getD [] ++ be 1 text.length ++ text)
  have readPos := field_optional (width := 5) posFits ((ref.map labelBytes).getD [])
    ((track.map (be 1)).getD [] ++ be 1 text.length ++ text)
  have readTrack := field_optional (width := 1) trackFits ((ref.map labelBytes).getD [] ++ (pos.map (be 5)).getD [])
    (be 1 text.length ++ text)
  generalize (ref.map labelBytes).getD [] = R at *
  generalize (pos.map (be 5)).getD [] = P at *
  generalize (track.map (be 1)).getD [] = T at *
  have width : markedWidth marks = (R ++ P ++ T).length := by
    simp only [markedWidth, refMark, posMark, trackMark, List.length_append, refLength, posLength, trackLength]
  have textLength : field (R ++ P ++ T ++ be 1 text.length ++ text) (R ++ P ++ T).length 1 = text.length :=
    field_append (by omega)
  have textBytes : (R ++ P ++ T ++ be 1 text.length ++ text).drop ((R ++ P ++ T).length + 1) = text :=
    List.drop_left' (by rw [List.length_append, be_length])
  have behind : (R ++ P ++ T).length < (R ++ P ++ T ++ be 1 text.length ++ text).length := by
    simp only [List.length_append, be_length]
    omega
  simp only [readMarked, width, textLength, textBytes, behind, decide_true, beq_self_eq_true, Bool.and_self, if_true,
    refMark, posMark, trackMark, ← refLength, ← posLength]
  simp only [List.append_assoc, List.length_append] at readRef readPos readTrack ⊢
  rw [readRef, readPos, readTrack]

/-- The five bytes of a NOTE payload before its presence marks: run number, sequence and kind (R191). -/
def noteHead (n : Note) : List Byte := be 2 n.id.run ++ be 2 n.id.seq ++ be 1 n.kind.code

theorem noteHead_length (n : Note) : (noteHead n).length = 5 := by
  simp only [noteHead, List.length_append, be_length]

theorem noteBytes_eq (n : Note) :
    noteBytes n =
      noteHead n ++ byte (noteMarks n) ::
        ((n.ref.map labelBytes).getD [] ++ (n.pos.map (be 5)).getD [] ++ (n.track.map (be 1)).getD [] ++
          be 1 n.text.length ++ n.text) := by
  rw [noteBytes, noteHead, be_one (noteMarks n)]
  simp only [List.append_assoc, List.cons_append, List.nil_append]

theorem noteBytes_length_le {n : Note} (short : n.text.length ≤ 64) : (noteBytes n).length ≤ 91 := by
  have refLength := optionalField_length labelBytes_length n.ref
  have posLength := optionalField_length (be_length 5) n.pos
  have trackLength := optionalField_length (be_length 1) n.track
  simp only [noteBytes_eq, List.length_append, List.length_cons, noteHead_length, be_length, refLength, posLength, trackLength]
  split_ifs <;> omega

theorem noteKindOf_code (kind : NoteKind) : noteKindOf kind.code = some kind := by
  cases kind <;> rfl

theorem noteKind_code_lt (kind : NoteKind) : kind.code < 256 := by
  cases kind <;> decide

/-! ### Command messages (R177, R193, R194) -/

/-- A complete message is the command of its code with the announced argument bytes, whatever follows them (R193). -/
theorem readMessage_complete {code : Byte} (command : code ≠ 0#8) {args : List Byte} (fits : args.length ≤ 255)
    (more : List Byte) :
    readMessage (code :: BitVec.ofNat 8 args.length :: args ++ more) =
      (commandOf code.toNat args).getD (.unknownCommand code args) := by
  have announced : (BitVec.ofNat 8 args.length).toNat = args.length := Nat.mod_eq_of_lt (by omega)
  have whole : ¬(args ++ more).length < args.length := by
    rw [List.length_append]
    omega
  simp only [readMessage, List.cons_append, if_neg command, announced, if_neg whole, List.take_left]

theorem readMessage_of_command {code : Byte} {args : List Byte} {i : Instr} (named : commandOf code.toNat args = some i)
    (command : code ≠ 0#8) (fits : args.length ≤ 255) (more : List Byte) :
    readMessage (code :: BitVec.ofNat 8 args.length :: args ++ more) = i := by
  rw [readMessage_complete command fits, named]
  rfl

/-- Whether a code names a command does not turn on the argument bytes. -/
theorem commandOf_isNone (code : Nat) (args : List Byte) : (commandOf code args).isNone = (commandOf code []).isNone := by
  unfold commandOf
  split <;> rfl

theorem readMessage_of_no_command {code : Byte} {args : List Byte} (nameless : namesNoCommand code = true)
    (fits : args.length ≤ 255) (more : List Byte) :
    readMessage (code :: BitVec.ofNat 8 args.length :: args ++ more) = .unknownCommand code args := by
  rw [namesNoCommand, Bool.and_eq_true, bne_iff_ne, ← commandOf_isNone code.toNat args, Option.isNone_iff_eq_none] at nameless
  obtain ⟨notZero, noCommand⟩ := nameless
  rw [readMessage_complete (fun zero => notZero (congrArg BitVec.toNat zero)) fits, noCommand]
  rfl

theorem readMessage_of_partial {bytes : List Byte} (short : isPartialMessage bytes = true) :
    readMessage bytes = .selectionReleased bytes := by
  match bytes with
  | [] => rfl
  | [code] =>
    have command : code ≠ 0#8 := fun zero => by subst zero; cases short
    exact if_neg command
  | code :: len :: body =>
    simp only [isPartialMessage, Bool.and_eq_true, bne_iff_ne, decide_eq_true_eq] at short
    have command : code ≠ 0#8 := fun zero => short.1 (congrArg BitVec.toNat zero)
    simp only [readMessage, if_neg command, if_pos short.2]

/-- Bytes after a complete message belong to no command (R193). -/
theorem readMessage_append_of_complete {bytes : List Byte} (whole : isPartialMessage bytes = false) (more : List Byte) :
    readMessage (bytes ++ more) = readMessage bytes := by
  match bytes with
  | [] => cases whole
  | [code] =>
    simp only [isPartialMessage, bne_eq_false_iff_eq] at whole
    have read : code = 0#8 := BitVec.eq_of_toNat_eq whole
    subst read
    rfl
  | code :: len :: body =>
    by_cases read : code = 0#8
    · subst read
      rfl
    · have command : (code.toNat != 0) = true := bne_iff_ne.mpr fun zero => read (BitVec.eq_of_toNat_eq zero)
      simp only [isPartialMessage, command, Bool.true_and, decide_eq_false_iff_not] at whole
      have longer : ¬(body ++ more).length < len.toNat := by
        rw [List.length_append]
        omega
      simp only [readMessage, List.cons_append, if_neg read, if_neg whole, if_neg longer,
        List.take_append_of_le_length (Nat.le_of_not_lt whole)]

/-! ### A selection's bytes at the port (R177; model choice: entry 13) -/

theorem hostByte_of_partial {s : State} {bytes : List Byte} {b : Byte} (receiving : s.port.selection = .receiving bytes)
    (short : isPartialMessage (bytes ++ [b]) = true) :
    s.hostByte b = { s with port := { s.port with selection := .receiving (bytes ++ [b]) } } := by
  simp only [State.hostByte, receiving, if_pos short]

theorem hostByte_of_complete {s : State} {bytes : List Byte} {b : Byte} (receiving : s.port.selection = .receiving bytes)
    (whole : isPartialMessage (bytes ++ [b]) = false) :
    s.hostByte b =
      { s with port := { s.port with selection := .spent }, pending := s.pending ++ [readMessage (bytes ++ [b])] } := by
  simp only [State.hostByte, receiving, whole, Bool.false_eq_true, if_false]

theorem hostByte_of_spent {s : State} (spent : s.port.selection = .spent) (b : Byte) : s.hostByte b = s := by
  simp only [State.hostByte, spent]

theorem foldl_hostByte_of_spent {s : State} (spent : s.port.selection = .spent) (bytes : List Byte) :
    bytes.foldl State.hostByte s = s := by
  induction bytes with
  | nil => rfl
  | cons b rest ih => rw [List.foldl_cons, hostByte_of_spent spent, ih]

theorem release_of_spent {s : State} (spent : s.port.selection = .spent) :
    s.release = { s with port := { s.port with selection := .released } } := by
  simp only [State.release, spent]

theorem release_of_receiving {s : State} {bytes : List Byte} (receiving : s.port.selection = .receiving bytes) :
    s.release =
      { s with port := { s.port with selection := .released }, pending := s.pending ++ [.selectionReleased bytes] } := by
  simp only [State.release, receiving]

/-- The bytes that end a selection whose message is not complete yet bring the one command that all its bytes spell. -/
theorem release_foldl_hostByte {s : State} {received : List Byte} (receiving : s.port.selection = .receiving received)
    (short : isPartialMessage received = true) (bytes : List Byte) :
    (bytes.foldl State.hostByte s).release =
      { s with
        port := { s.port with selection := .released }, pending := s.pending ++ [readMessage (received ++ bytes)] } := by
  induction bytes generalizing s received with
  | nil => rw [List.foldl_nil, release_of_receiving receiving, List.append_nil, readMessage_of_partial short]
  | cons b rest ih =>
    rw [List.foldl_cons, List.append_cons received b rest]
    cases whole : isPartialMessage (received ++ [b]) with
    | true => rw [hostByte_of_partial receiving whole, ih rfl whole]
    | false =>
      rw [hostByte_of_complete receiving whole, foldl_hostByte_of_spent rfl, release_of_spent rfl,
        readMessage_append_of_complete whole]

theorem deliver_eq (s : State) (bytes : List Byte) :
    s.deliver bytes =
      { s with port := { s.port with selection := .released }, pending := s.pending ++ [readMessage bytes] } :=
  release_foldl_hostByte (s := s.select) rfl rfl bytes

/-- Settles O53: the fields by their places in the payload, the messages by their announced length, the selection by its bytes. -/
theorem payloadsAndMessagesReadBack : Obligations.PayloadsAndMessagesReadBack := by
  unfold Obligations.PayloadsAndMessagesReadBack
  refine ⟨?status, ?note, fun args more fits => ⟨?commands, fun code nameless => readMessage_of_no_command nameless fits more,
    rfl, readMessage_of_partial, fun s => ⟨deliver_eq s _, fun b => ⟨fun bytes => hostByte_of_partial,
      fun bytes => hostByte_of_complete, fun spent => ⟨hostByte_of_spent spent b, by rw [release_of_spent spent]⟩⟩⟩⟩⟩
  case status =>
    intro x run rate tc pos capture phase origin scene number start stop nextTake highWater
    refine ⟨statusBytes_length x, ?_⟩
    rw [readStatusPayload, statusBytes_scene, readScene_sceneBytes scene, statusBytes]
    simp (disch := omega) only [List.append_assoc, field_be_later, field_be_first, field_be, field_behind_scene,
      Nat.reduceSub]
  case note =>
    intro n run seq ref pos track text
    obtain ⟨refMark, posMark, trackMark⟩ := noteMarks_bits n
    have raw : readNotePayload (noteBytes n) = some { ref := n.ref, pos := n.pos, track := n.track, text := n.text } := by
      rw [readNotePayload, noteBytes_eq, List.drop_left' (noteHead_length n)]
      exact readMarked_optionals (x := ⟨n.ref, n.pos, n.track, n.text⟩) refMark posMark trackMark ref pos track
        (Nat.lt_of_le_of_lt text (by decide))
    have kind := noteKind_code_lt n.kind
    refine ⟨noteBytes_length_le text, ?_, ?_, ?_, raw⟩
    · rw [noteBytes_eq, noteHead]
      simp (disch := omega) only [List.append_assoc, field_be_first]
    · rw [noteBytes_eq, noteHead]
      simp (disch := omega) only [List.append_assoc, field_be_later, field_be_first, Nat.reduceSub]
    · rw [noteBytes_eq, noteHead]
      simp (disch := omega) only [List.append_assoc, field_be_later, field_be_first, Nat.reduceSub, noteKindOf_code]
  case commands =>
    intro x member
    obtain ⟨named, command⟩ : commandOf x.1.toNat args = some x.2 ∧ x.1 ≠ 0#8 := by
      revert x
      simp [commandOf]
    exact readMessage_of_command named command fits more

end Sys2Proof.Proofs
end

section
/-! PROOFS. An event that leaves the takes: what its end then leaves of the announced state, the link, the takes and the store
(R58, R95, R130, R160 to R164). -/

namespace Sys2Proof.Proofs

open Sys2Proof Sys2Proof.Machine Sys2Proof.Safety

/-! ### What is announced (R58, R95) -/

/-- Everything that t announces it announces as s does: its takes are those of s but for their accounts. -/
structure AnnouncesAlike (s t : State) : Prop where
  empty : ∀ i : Fin 3, s.takes.slots[i] = none → t.takes.slots[i] = none
  takes : ∀ (i : Fin 3) (u : Take), s.takes.slots[i] = some u → HoldsAccounted i u t
  pendingStart : t.takes.pendingStart = s.takes.pendingStart
  scene : t.takes.scene = s.takes.scene
  nextTake : t.takes.nextTake = s.takes.nextTake
  port : t.port = s.port
  capture : t.writer.capture = s.writer.capture

theorem openSlot_congr {s t : State} (same : ∀ i : Fin 3, isOpen t.takes.slots[i] = isOpen s.takes.slots[i]) :
    openSlot t = openSlot s := by
  have h0 := same 0
  have h1 := same 1
  have h2 := same 2
  simp only [Fin.getElem_fin, Fin.val_zero, Fin.val_one, Fin.val_two] at h0 h1 h2
  simp only [openSlot, findSlot, h0, h1, h2]

theorem AnnouncesAlike.openSlot {s t : State} (h : AnnouncesAlike s t) : openSlot t = openSlot s := by
  refine openSlot_congr fun i => ?_
  cases holds : s.takes.slots[i] with
  | none => rw [h.empty i holds]
  | some u =>
    obtain ⟨_, held, _, _, _, _, _, rfl⟩ := h.takes i u holds
    rw [held]
    rfl

theorem AnnouncesAlike.announcedState {s t : State} (h : AnnouncesAlike s t) :
    Machine.announcedState t = Machine.announcedState s := by
  cases isOpenSlot : Machine.openSlot s with
  | none =>
    have noOpen : openTake s = none := by simp only [openTake, isOpenSlot]
    have noOpen' : openTake t = none := by simp only [openTake, h.openSlot, isOpenSlot]
    simp only [Machine.announcedState, takeFields, enginePhase, noOpen, noOpen', h.pendingStart, h.scene, h.nextTake, h.port,
      h.capture]
  | some i =>
    obtain ⟨u, holds, -⟩ := openSlot_holds isOpenSlot
    obtain ⟨v, held, _, _, _, _, _, accounts⟩ := h.takes i u holds
    have isOpenTake := openTake_of_slot isOpenSlot holds
    have isOpenTake' := openTake_of_slot (h.openSlot.trans isOpenSlot) held
    rw [accounts] at isOpenTake'
    simp only [Machine.announcedState, takeFields, enginePhase, isOpenTake, isOpenTake', h.pendingStart, h.scene, h.nextTake,
      h.port, h.capture, Option.bind_some]
    cases u.phase == .rolling <;> rfl

/-! ### The end of such an event (R95, R160, R164) -/

/-- The event has left takes, port and writer as they were. -/
structure LeavesTakes (before after : State) : Prop where
  takes : after.takes = before.takes
  port : after.port = before.port
  writer : after.writer = before.writer

theorem LeavesTakes.announcesAlike {before after : State} (h : LeavesTakes before after) :
    AnnouncesAlike before (settle after) := by
  have alone := slotsAlone_settle after
  obtain ⟨held, writer⟩ := settle_writer after
  refine ⟨fun i empty => (revises_settle after).empty (h.takes ▸ empty),
    fun i u holds => HoldsAccounted.settle (holdsAccounted_of_eq (h.takes ▸ holds)), ?_, ?_, ?_, ?_, ?_⟩
  · rw [alone.pendingStart, h.takes]
  · rw [alone.scene, h.takes]
  · rw [alone.nextTake, h.takes]
  · simp only [settle_frame, h.port]
  · rw [writer, h.writer]

/-- An event that leaves the takes requests no STATUS at its end. -/
theorem LeavesTakes.finish_link {before after : State} (h : LeavesTakes before after) :
    (finish before after).link = after.link := by
  simp only [finish, makeDecision_frame, announceChange_of_eq h.announcesAlike.announcedState.symm, settle_frame]

theorem LeavesTakes.takesStand {before after : State} (h : LeavesTakes before after) (first : State) :
    TakesStand before (finish first after) := by
  have alone := slotsAlone_finish first after
  refine ⟨h.takes ▸ alone.pendingStart, h.takes ▸ alone.serial, h.takes ▸ alone.nextTake, h.takes ▸ alone.scene,
    h.takes ▸ alone.closed, fun i empty => (revises_finish first after).empty (h.takes ▸ empty), fun i u holds => ?_⟩
  obtain ⟨_, held, _, _, _, _, _, rfl⟩ := HoldsAccounted.finish first (holdsAccounted_of_eq (s := after) (h.takes ▸ holds))
  exact ⟨_, held, rfl⟩

/-! ### The store at the end of an event (R130, R162) -/

theorem markWriting_notes (n : Nat) (l : List StoredNote) :
    (markWriting n l).map StoredNote.note = l.map StoredNote.note := by
  induction l generalizing n with
  | nil => cases n <;> rfl
  | cons x rest ih =>
    cases n with
    | zero => rfl
    | succ n =>
      unfold markWriting
      split
      · exact congrArg (x.note :: ·) (ih n)
      · exact congrArg (x.note :: ·) (ih (n + 1))

/-- A decision of the writer changes of the store the write states of notes alone. -/
theorem makeDecision_store (s : State) :
    { (makeDecision s).store with notes := s.store.notes } = s.store ∧
      (makeDecision s).store.notes.map StoredNote.note = s.store.notes.map StoredNote.note := by
  rcases makeDecision_cases s with same | ⟨r, -, -, issued⟩
  · rw [same]
    exact ⟨rfl, rfl⟩
  · rw [issued]
    cases r with
    | notes => exact ⟨rfl, markWriting_notes _ _⟩
    | fault => exact ⟨rfl, rfl⟩
    | audio i =>
      unfold issueRequest
      dsimp only
      split
      · exact ⟨rfl, rfl⟩
      · split
        · exact ⟨rfl, rfl⟩
        · exact ⟨rfl, rfl⟩
    | index i =>
      unfold issueRequest
      dsimp only
      split
      · exact ⟨rfl, rfl⟩
      · exact ⟨rfl, rfl⟩

theorem finish_store (before after : State) :
    { (finish before after).store with notes := after.store.notes } = after.store ∧
      (finish before after).store.notes.map StoredNote.note = after.store.notes.map StoredNote.note := by
  have decided := makeDecision_store (announceChange before (settle after))
  simpa only [finish, announceChange_frame, settle_frame] using decided

end Sys2Proof.Proofs
end

section
/-! PROOFS. The line of the cart link: the own STATUS, the line's IDLE with the frame it ends, a byte of another station, and the
end of the deferral (R84, R88, R89, R90, R96, R97). -/

namespace Sys2Proof.Proofs

open Sys2Proof Sys2Proof.Machine Sys2Proof.Safety

/-! ### The own STATUS (R88) -/

theorem sampleRate_code (r : SampleRate) : r.code = if r = .r48 then 1 else 2 := by
  cases r <;> rfl

theorem tcRate_code (t : TcRate) : t.code = if t = .f24 then 24 else if t = .f25 then 25 else 30 := by
  cases t <;> rfl

theorem capture_code (c : Capture) : c.code = if c = .normal then 0 else if c = .mediaFault then 1 else 2 := by
  cases c <;> rfl

/-- The STATUS of the station from its engine phase and its take fields. -/
theorem txPayload_status {s : State} {phase origin number start stop : Nat} {scene : Text}
    (code : (enginePhase s).code = phase) (fields : takeFields s = (origin, scene, number, start, stop)) :
    txPayload s .status =
      statusBytes
        { run := s.link.run
          rateCode := if s.counter.sampleRate = .r48 then 1 else 2
          tcCode := if s.counter.tcRate = .f24 then 24 else if s.counter.tcRate = .f25 then 25 else 30
          pos := s.counter.newest
          capture := if s.writer.capture = .normal then 0 else if s.writer.capture = .mediaFault then 1 else 2
          phase := phase, origin := origin, scene := scene, number := number, start := start
          stop := stop, nextTake := s.takes.nextTake, highWater := s.store.seq } := by
  rw [txPayload, ownStatus, fields, code, sampleRate_code, tcRate_code, capture_code]

section

variable {s : State}

theorem takeFields_of_rolling {i : Fin 3} {u : Take} (isOpenSlot : openSlot s = some i) (holds : s.takes.slots[i] = some u)
    (rolling : u.phase = .rolling) :
    enginePhase s = .rolling ∧ takeFields s = (u.origin, u.label.scene, u.label.number, u.sr, 0) := by
  have phase : enginePhase s = .rolling := by rw [enginePhase_of_openSlot isOpenSlot holds, if_pos rolling]
  exact ⟨phase, by simp only [takeFields, phase, openTake_of_slot isOpenSlot holds]⟩

theorem takeFields_of_post {i : Fin 3} {u : Take} {e : Nat} (isOpenSlot : openSlot s = some i)
    (holds : s.takes.slots[i] = some u) (post : u.phase = .post) (stop : u.e = some e) :
    enginePhase s = .post ∧ takeFields s = (u.origin, u.label.scene, u.label.number, u.sr, e) := by
  have phase : enginePhase s = .post := by rw [enginePhase_of_openSlot isOpenSlot holds, if_neg (by rw [post]; decide)]
  exact ⟨phase, by simp only [takeFields, phase, openTake_of_slot isOpenSlot holds, stop, Option.getD_some]⟩

theorem takeFields_of_pending {q : PendingStart} (noOpen : openSlot s = none) (start : s.takes.pendingStart = some q) :
    enginePhase s = .startPending ∧ takeFields s = (q.origin, q.label.scene, q.label.number, q.start, 0) := by
  have phase : enginePhase s = .startPending := by
    rw [enginePhase_of_no_openSlot noOpen, start]
    rfl
  exact ⟨phase, by simp only [takeFields, phase, start]⟩

theorem takeFields_of_idle (noOpen : openSlot s = none) (noStart : s.takes.pendingStart = none) :
    enginePhase s = .idle ∧ takeFields s = (s.port.station.val, s.takes.scene, 0, 0, 0) := by
  have phase : enginePhase s = .idle := by
    rw [enginePhase_of_no_openSlot noOpen, noStart]
    rfl
  exact ⟨phase, by simp only [takeFields, phase]⟩

/-! ### The line's IDLE (R84, R89, R96) -/

theorem mayRest_of_run (run : s.port.phase = .run) (busy : s.link.line ≠ .idle) (still : s.link.tx ≠ .send) :
    mayRest s = true := by
  simp only [mayRest, inRun_of_run run, Bool.true_and, Bool.and_eq_true, bne_iff_ne]
  exact ⟨busy, still⟩

theorem lineIdle_of_kept (kept : s.port.phase = .setup ∨ s.link.line = .idle ∨ s.link.tx = .send) : lineIdle s = s := by
  refine if_neg ?_
  simp only [mayRest, Bool.and_eq_true, inRun_iff, bne_iff_ne]
  rintro ⟨⟨run, busy⟩, still⟩
  rcases kept with setup | idle | sending
  · rw [setup] at run
    cases run
  · exact busy idle
  · exact still sending

theorem lineIdle_of_mayRest (rests : mayRest s = true) : lineIdle s = finish s (endReception (becomeIdle s)) :=
  if_pos rests

/-- The line has been IDLE from this state on, and the next start bit begins a frame. -/
def restedLine (s : State) : State :=
  { becomeIdle s with link := { (becomeIdle s).link with receiver := .ready } }

/-- Before the first byte of a frame, and after the own echo, the IDLE ends no frame. -/
theorem endReception_of_no_frame
    (noFrame : s.link.receiver = .waiting ∨ s.link.receiver = .ready ∨ ∃ own, s.link.receiver = .echo own) :
    endReception (becomeIdle s) = restedLine s := by
  have receiver : (becomeIdle s).link.receiver = s.link.receiver := rfl
  rcases noFrame with hears | hears | ⟨own, hears⟩
  · simp only [endReception, receiver, hears, restedLine]
  · simp only [endReception, receiver, hears, restedLine]
  · simp only [endReception, receiver, hears, restedLine]

theorem endReception_of_within {arrival : Nat} {bytes : List Byte} (hears : s.link.receiver = .within arrival bytes) :
    endReception (becomeIdle s) = countError (restedLine s) := by
  have receiver : (becomeIdle s).link.receiver = .within arrival bytes := hears
  simp only [endReception, receiver, restedLine]

theorem endReception_of_incomplete {arrival : Nat} {bytes : List Byte} (hears : s.link.receiver = .taking arrival bytes)
    (cut : takenComplete bytes = false) : endReception (becomeIdle s) = countError (restedLine s) := by
  have receiver : (becomeIdle s).link.receiver = .taking arrival bytes := hears
  simp only [endReception, receiver, cut, Bool.false_eq_true, if_false, restedLine]

theorem endReception_of_frame {arrival : Nat} {kind : Byte} {f : HeardFrame} (fits : f.payload.length ≤ 200)
    (hears : s.link.receiver = .taking arrival (frameBytesOf kind f)) :
    endReception (becomeIdle s) = processFrame kind f arrival (restedLine s) := by
  have receiver : (becomeIdle s).link.receiver = .taking arrival (frameBytesOf kind f) := hears
  obtain ⟨frame, whole⟩ := heardFrame_frameBytesOf kind f fits
  simp only [endReception, receiver, whole, if_true, frame, restedLine]

theorem processFrame_of_invalid {kind : Byte} {f : HeardFrame} (invalid : frameValid kind f = false) (arrival : Nat)
    (s : State) : processFrame kind f arrival s = countError s := by
  simp only [processFrame, invalid, Bool.not_false, if_true]

theorem frameValid_of_unknown {kind : Byte} (unknown : kind ∉ [1#8, 2#8, 3#8, 4#8]) (f : HeardFrame) :
    frameValid kind f = false := by
  simp only [List.mem_cons, List.not_mem_nil, or_false, not_or] at unknown
  obtain ⟨notStatus, notNote, notRequest, notGone⟩ := unknown
  have unfit : lengthFits kind f.payload = false := by
    unfold lengthFits
    split
    case h_1 code => exact absurd (BitVec.eq_of_toNat_eq code) notStatus
    case h_2 code => exact absurd (BitVec.eq_of_toNat_eq code) notNote
    case h_3 code => exact absurd (BitVec.eq_of_toNat_eq code) notRequest
    case h_4 code => exact absurd (BitVec.eq_of_toNat_eq code) notGone
    case h_5 => rfl
  rw [frameValid, unfit, Bool.and_false]

/-- Bytes that make a complete frame: a head of four, then the announced payload and the check (R85). -/
theorem takenComplete_cons (preamble kind sender length : Byte) (more : List Byte) :
    takenComplete (preamble :: kind :: sender :: length :: more) = decide (more.length = length.toNat + 2) := by
  have announced : field (preamble :: kind :: sender :: length :: more) 3 1 = length.toNat :=
    field_byte length [preamble, kind, sender] more
  rw [Bool.eq_iff_iff]
  simp only [takenComplete, announced, frameLength, List.length_cons, Bool.and_eq_true, decide_eq_true_eq, beq_iff_eq]
  omega

theorem takenComplete_of_cut {bytes : List Byte}
    (cut : ∀ preamble kind sender length more, bytes = preamble :: kind :: sender :: length :: more →
      more.length ≠ length.toNat + 2) : takenComplete bytes = false := by
  match bytes with
  | [] => rfl
  | [_] => rfl
  | [_, _] => rfl
  | [_, _, _] => rfl
  | preamble :: kind :: sender :: length :: more =>
    rw [takenComplete_cons, decide_eq_false_iff_not]
    exact cut _ _ _ _ _ rfl

/-- A line that rests with no frame handed on: the event leaves the takes, and the link as the reception left it. -/
theorem lineIdle_stands (rests : mayRest s = true) {u : State} {l : Link} (ended : endReception (becomeIdle s) = u)
    (is : u = { becomeIdle s with link := l }) :
    ∃ t, exec .lineIdle s = .next t ∧ t.time = max s.time (s.link.restFrom + 16) ∧ t.link = l ∧ t.port = s.port ∧
      t.counter = s.counter ∧ t.ring = s.ring ∧ t.notices = s.notices := by
  have leaves : LeavesTakes s { becomeIdle s with link := l } := ⟨rfl, rfl, rfl⟩
  refine ⟨_, congrArg Host.Outcome.next ((lineIdle_of_mayRest rests).trans (by rw [ended, is])), ?_⟩
  refine ⟨?_, leaves.finish_link, ?_⟩
  · simp only [finish_frame]
    rfl
  · simp only [finish_frame]
    exact ⟨rfl, rfl, rfl, rfl⟩

/-! ### The rows of the four frames (R96) -/

/-- The rows of a complete frame, each with its kind byte (R85). -/
def frameRows (f : HeardFrame) : List (Byte × Instr) :=
  [(1#8, .statusFrame f), (2#8, .noteFrame f), (3#8, .noteRequestFrame f), (4#8, .noteGoneFrame f)]

theorem exec_frame {f : HeardFrame} {x : Byte × Instr} (row : x ∈ frameRows f) (s : State) :
    exec x.2 s = .next (receiveFrame x.1 f s) := by
  simp only [frameRows, List.mem_cons, List.not_mem_nil, or_false] at row
  rcases row with rfl | rfl | rfl | rfl
  · rfl
  · rfl
  · rfl
  · rfl

/-- The start bit of another station's byte has been heard, and its stop bit is to end at this time. -/
def startBitHeard (rest : Nat) (s : State) : State :=
  { s with
    link :=
      { s.link with
        line := .busy, restFrom := rest, tx := if s.link.tx = .defer then .waitIdle else s.link.tx } }

/-- WAIT IDLE and DEFER alike defer once the line is IDLE again. -/
theorem defers_after_busy (x : TxState) :
    (if (if x = .defer then TxState.waitIdle else x) = .waitIdle then TxState.defer else if x = .defer then .waitIdle else x) =
      if x = .waitIdle then .defer else x := by
  cases x <;> rfl

/-- A frame that has been taken byte by byte is heard with no byte more. -/
theorem becomeIdle_hearFrame {arrival : Nat} {kind : Byte} {f : HeardFrame}
    (hears : s.link.receiver = .taking arrival (frameBytesOf kind f)) :
    becomeIdle (hearFrame kind f s) = becomeIdle s := by
  have heard : hearFrame kind f s = startBitHeard s.link.restFrom s := by
    simp only [hearFrame, startBitHeard, hears, restAfter, Nat.sub_self, if_true]
  rw [heard]
  exact congrArg (fun tx => { becomeIdle s with link := { (becomeIdle s).link with tx := tx } }) (defers_after_busy s.link.tx)

/-- A frame's bytes leave the line BUSY until its IDLE. -/
theorem mayRest_hearFrame (run : s.port.phase = .run) (still : s.link.tx ≠ .send) (kind : Byte) (f : HeardFrame) :
    mayRest (hearFrame kind f s) = true := by
  refine mayRest_of_run run nofun ?_
  simp only [hearFrame]
  split
  · nofun
  · exact still

/-- A frame that the receiver comes to hear is heard, and the line's IDLE ends it (R84, R96). -/
theorem receiveFrame_of_canHear {kind : Byte} {f : HeardFrame} (run : s.port.phase = .run) (still : s.link.tx ≠ .send)
    (heard : canHear kind f s = true) :
    receiveFrame kind f s = finish (hearFrame kind f s) (endReception (becomeIdle (hearFrame kind f s))) := by
  rw [receiveFrame, if_pos heard, lineIdle_of_mayRest (mayRest_hearFrame run still kind f)]

/-- The frame in hand at the line's IDLE is processed as its own row would. -/
theorem lineIdle_eq_receiveFrame {arrival : Nat} {kind : Byte} {f : HeardFrame} (run : s.port.phase = .run)
    (still : s.link.tx ≠ .send) (rests : mayRest s = true) (hears : s.link.receiver = .taking arrival (frameBytesOf kind f)) :
    lineIdle s = receiveFrame kind f s := by
  have begins : (frameBytesOf kind f).isPrefixOf (frameBytesOf kind f) = true := by simp
  have heard : canHear kind f s = true := by
    simp only [canHear, inRun_of_run run, hears, Bool.true_and, begins, Bool.and_true, bne_iff_ne]
    exact still
  rw [lineIdle_of_mayRest rests, receiveFrame_of_canHear run still heard, becomeIdle_hearFrame hears]
  rfl

end

/-! ### A byte of another station (R84, R89, R96) -/

theorem takeByte_nil (b : Byte) : takeByte [] b = if b = 165#8 then some [b] else none := by
  by_cases preamble : b = 165#8
  · rw [if_pos preamble, preamble]
    rfl
  · rw [if_neg preamble]
    exact if_pos ⟨rfl, fun value => preamble (BitVec.eq_of_toNat_eq value)⟩

theorem takeByte_of_long {taken : List Byte} {b : Byte} (three : taken.length = 3) (long : 200 < b.toNat) :
    takeByte taken b = none := by
  rw [takeByte, if_neg fun start => by omega, if_pos ⟨three, long⟩]

theorem takeByte_of_head {taken : List Byte} {b : Byte}
    (head : taken.length = 1 ∨ taken.length = 2 ∨ (taken.length = 3 ∧ b.toNat ≤ 200)) :
    takeByte taken b = some (taken ++ [b]) := by
  have incomplete : ¬takenComplete taken = true := by
    simp only [takenComplete, Bool.and_eq_true, decide_eq_true_eq]
    omega
  have fits : ¬(taken.length = 3 ∧ Config.maxPayload < b.toNat) := by
    simp only [Config.maxPayload]
    omega
  rw [takeByte, if_neg fun start => by omega, if_neg fits, if_neg incomplete]

/-- Behind its head a frame takes bytes until it is complete. -/
theorem takeByte_cons (preamble kind sender length : Byte) (more : List Byte) (b : Byte) :
    takeByte (preamble :: kind :: sender :: length :: more) b =
      if more.length = length.toNat + 2 then none else some (preamble :: kind :: sender :: length :: more ++ [b]) := by
  have behindHead : ¬more.length + 1 + 1 + 1 + 1 = 3 := by omega
  simp only [takeByte, takenComplete_cons, List.length_cons, Nat.add_eq_zero_iff, Nat.one_ne_zero, and_false, false_and,
    behindHead, if_false, decide_eq_true_eq]

/-- The receiver goes on from these bytes of a frame, their arrival position latched (R96). -/
def GoesOnFrom (s : State) (arrival : Nat) (taken : List Byte) : Prop :=
  (s.link.receiver = .ready ∧ arrival = s.counter.newest ∧ taken = []) ∨ s.link.receiver = .taking arrival taken ∨
    s.link.receiver = .within arrival taken

section

variable {s : State} {b : Byte} {arrival : Nat} {taken : List Byte}

theorem receiveByte_of_waiting (waits : s.link.receiver = .waiting) : receiveByte b s = s := by
  simp only [receiveByte, waits]

theorem receiveByte_of_echo {own : List Byte} (echo : s.link.receiver = .echo own) :
    receiveByte b s = countError { s with link := { s.link with receiver := .waiting } } := by
  simp only [receiveByte, echo]

theorem receiveByte_of_taken (resumes : GoesOnFrom s arrival taken) {bytes : List Byte} (takes : takeByte taken b = some bytes) :
    receiveByte b s = { s with link := { s.link with receiver := .taking arrival bytes } } := by
  rcases resumes with ⟨ready, rfl, rfl⟩ | taking | within
  · simp only [receiveByte, ready, takes]
  · simp only [receiveByte, taking, takes]
  · simp only [receiveByte, within, takes]

theorem receiveByte_of_refused (resumes : GoesOnFrom s arrival taken) (refuses : takeByte taken b = none) :
    receiveByte b s = countError { s with link := { s.link with receiver := .waiting } } := by
  rcases resumes with ⟨ready, rfl, rfl⟩ | taking | within
  · simp only [receiveByte, ready, refuses]
  · simp only [receiveByte, taking, refuses]
  · simp only [receiveByte, within, refuses]

theorem restAfter_one (notWithin : ∀ at_ bytes, s.link.receiver ≠ .within at_ bytes) :
    restAfter 1 s = max s.link.restFrom s.time + 10 := by
  unfold restAfter
  split
  · exact absurd ‹_› (notWithin _ _)
  · rfl

theorem restAfter_of_within {n : Nat} (within : s.link.receiver = .within arrival taken) :
    restAfter n s = s.link.restFrom + 10 * (n - 1) := by
  simp only [restAfter, within]
  rfl

theorem lineBusy_of_setup (setup : s.port.phase = .setup) :
    lineBusy b s = { s with link := { s.link with restFrom := restAfter 1 s } } := by
  rw [lineBusy, inRun_of_setup setup]
  exact if_neg Bool.false_ne_true

theorem lineBusy_of_run (run : s.port.phase = .run) (still : s.link.tx ≠ .send) {rest : Nat} (rests : restAfter 1 s = rest) :
    lineBusy b s = receiveByte b (startBitHeard rest s) := by
  rw [lineBusy, if_pos (inRun_of_run run), if_neg still, hearByte, rests]
  rfl

theorem lineBusy_of_taken (run : s.port.phase = .run) (still : s.link.tx ≠ .send) {rest : Nat}
    (rests : restAfter 1 s = rest) (resumes : GoesOnFrom s arrival taken) {bytes : List Byte}
    (takes : takeByte taken b = some bytes) :
    lineBusy b s =
      { s with link := { (startBitHeard rest s).link with receiver := .taking arrival bytes } } := by
  rw [lineBusy_of_run run still rests]
  exact receiveByte_of_taken (s := startBitHeard rest s) resumes takes

theorem lineBusy_of_refused (run : s.port.phase = .run) (still : s.link.tx ≠ .send) {rest : Nat}
    (rests : restAfter 1 s = rest) (resumes : GoesOnFrom s arrival taken) (refuses : takeByte taken b = none) :
    lineBusy b s = countError { s with link := { (startBitHeard rest s).link with receiver := .waiting } } := by
  rw [lineBusy_of_run run still rests]
  exact receiveByte_of_refused (s := startBitHeard rest s) resumes refuses

end

/-- Settles O45: the own STATUS by engine phase, the line's IDLE by the frame in hand, a byte by what the receiver has taken. -/
theorem lineEventsMoveTheTransmitter : Obligations.LineEventsMoveTheTransmitter := by
  unfold Obligations.LineEventsMoveTheTransmitter
  intro s own
  refine ⟨?openTake, ?pendingStart, ?noTake, fun kept => congrArg Host.Outcome.next (lineIdle_of_kept kept), ?idle, ?setup,
    ?busy, ?noDeferral, ?deferral⟩
  case openTake =>
    intro i u isOpenSlot holds
    refine ⟨fun rolling => ?_, fun e post stop => ?_⟩
    · obtain ⟨phase, fields⟩ := takeFields_of_rolling isOpenSlot holds rolling
      exact txPayload_status (congrArg EnginePhase.code phase) fields
    · obtain ⟨phase, fields⟩ := takeFields_of_post isOpenSlot holds post stop
      exact txPayload_status (congrArg EnginePhase.code phase) fields
  case pendingStart =>
    intro q noOpen start
    obtain ⟨phase, fields⟩ := takeFields_of_pending noOpen start
    exact txPayload_status (congrArg EnginePhase.code phase) fields
  case noTake =>
    intro noOpen noStart
    obtain ⟨phase, fields⟩ := takeFields_of_idle noOpen noStart
    exact txPayload_status (congrArg EnginePhase.code phase) fields
  case idle =>
    intro run busy still now rested ends failed
    have rests := mayRest_of_run run busy still
    refine ⟨fun noFrame => lineIdle_stands rests (endReception_of_no_frame noFrame) rfl,
      fun at_ bytes within => lineIdle_stands rests (endReception_of_within within) rfl,
      fun at_ bytes taking cut =>
        lineIdle_stands rests (endReception_of_incomplete taking (takenComplete_of_cut cut)) rfl,
      fun at_ kind f fits unknown taking => ?_, fun at_ f x fits row taking => ?_⟩
    · refine lineIdle_stands rests (endReception_of_frame fits taking) ?_
      rw [processFrame_of_invalid (frameValid_of_unknown unknown f)]
      rfl
    · rw [exec_frame row]
      exact congrArg Host.Outcome.next (lineIdle_eq_receiveFrame run still rests taking)
  case setup =>
    intro b setup notWithin
    refine congrArg Host.Outcome.next ((lineBusy_of_setup setup).trans ?_)
    rw [restAfter_one notWithin]
  case busy =>
    intro run still b busy follows failed gives
    have later (notWithin : ∀ at_ bytes, s.link.receiver ≠ .within at_ bytes) : restAfter 1 s = follows :=
      restAfter_one notWithin
    refine ⟨fun waits => ?waiting, fun ready preamble => ?first, fun ready other => ?noPreamble, fun own echo => ?echo,
      fun at_ bytes rest resumes => ?goesOn⟩
    case waiting =>
      have rests := later fun _ _ within => by rw [waits] at within; cases within
      exact congrArg Host.Outcome.next ((lineBusy_of_run run still rests).trans (receiveByte_of_waiting waits))
    case first =>
      have rests := later fun _ _ within => by rw [ready] at within; cases within
      have takes : takeByte [] b = some [b] := by rw [takeByte_nil, if_pos preamble]
      exact congrArg Host.Outcome.next (lineBusy_of_taken run still rests (.inl ⟨ready, rfl, rfl⟩) takes)
    case noPreamble =>
      have rests := later fun _ _ within => by rw [ready] at within; cases within
      have refuses : takeByte [] b = none := by rw [takeByte_nil, if_neg other]
      exact congrArg Host.Outcome.next (lineBusy_of_refused run still rests (.inl ⟨ready, rfl, rfl⟩) refuses)
    case echo =>
      have rests := later fun _ _ within => by rw [echo] at within; cases within
      exact congrArg Host.Outcome.next ((lineBusy_of_run run still rests).trans (receiveByte_of_echo echo))
    case goesOn =>
      have rests : restAfter 1 s = rest := by
        rcases resumes with ⟨taking, rfl⟩ | ⟨within, rfl⟩
        · exact later fun _ _ within => by rw [taking] at within; cases within
        · exact restAfter_of_within within
      have has : GoesOnFrom s at_ bytes := .inr (resumes.imp And.left And.left)
      have goesOn (takes : takeByte bytes b = some (bytes ++ [b])) :
          gives { busy rest with receiver := .taking at_ (bytes ++ [b]) } :=
        congrArg Host.Outcome.next (lineBusy_of_taken run still rests has takes)
      have stops (refuses : takeByte bytes b = none) : gives (failed rest) :=
        congrArg Host.Outcome.next (lineBusy_of_refused run still rests has refuses)
      refine ⟨fun none_yet preamble => goesOn ?_, fun none_yet other => stops ?_, fun three long => stops ?_,
        fun head => goesOn (takeByte_of_head head), fun preamble kind sender length more is =>
          ⟨fun short => goesOn ?_, fun whole => stops ?_⟩⟩
      · rw [none_yet, takeByte_nil, if_pos preamble]
        rfl
      · rw [none_yet, takeByte_nil, if_neg other]
      · exact takeByte_of_long three long
      · rw [is, takeByte_cons, if_neg short.ne]
      · rw [is, takeByte_cons, if_pos whole]
  case noDeferral =>
    intro kept
    refine congrArg Host.Outcome.next (if_neg ?_)
    rw [inRun_iff]
    rintro ⟨run, waits⟩
    rcases kept with setup | other
    · rw [setup] at run
      cases run
    · exact other waits
  case deferral =>
    intro x rest run waits queue now bytes
    refine congrArg Host.Outcome.next ((if_pos ⟨inRun_of_run run, waits⟩).trans ?_)
    rw [beginAttempt_of_cons (s := advanceTime (s.link.idleFrom + deferral s) s) queue]
    rfl

end Sys2Proof.Proofs
end

section
/-! PROOFS. The ends of an attempt: the head frame's place in the queue, a successful send, a collision, and another station's byte
against the one driven (R83, R84, R89, R91 to R94, R105). -/

namespace Sys2Proof.Proofs

open Sys2Proof Sys2Proof.Machine Sys2Proof.Safety

/-! ### The head frame after an attempt (R89, R92 to R94) -/

/-- The queue that is left when the head frame leaves it: an owed STATUS takes the place that it frees. -/
def queueLeft (rest : List TxEntry) (owed : Bool) : List TxEntry :=
  rest ++ (if owed then [{ frame := .status, attempts := 0 }] else [])

/-- Where the transmitter goes after an attempt, by the queue and the line. -/
def txOnward (queue : List TxEntry) (line : LineState) : TxState :=
  if queue = [] then .standby else if line = .idle then .defer else .waitIdle

theorem txOnward_ne_send (queue : List TxEntry) (line : LineState) : txOnward queue line ≠ .send := by
  unfold txOnward
  split_ifs <;> nofun

section

variable {s : State} {x : TxEntry} {rest : List TxEntry}

theorem leaveQueue_of_cons (queue : s.link.queue = x :: rest) :
    leaveQueue s = { s with link := { s.link with queue := queueLeft rest s.link.owed, owed := false } } := by
  cases owed : s.link.owed with
  | true => simp only [leaveQueue, queue, owed, if_true, queueLeft, List.drop_succ_cons, List.drop_zero]
  | false =>
    simp only [leaveQueue, queue, owed, Bool.false_eq_true, if_false, queueLeft, List.drop_succ_cons, List.drop_zero,
      List.append_nil]

/-- The head frame stays with its attempt count raised, or leaves at its third attempt. -/
theorem collideHead_of_cons (queue : s.link.queue = x :: rest) :
    collideHead s =
      { s with
        link :=
          if x.attempts < 2 then
            { s.link with
              queue := { x with attempts := x.attempts + 1 } :: rest
              owed := if x.frame = .status then false else s.link.owed }
          else
            { s.link with
              queue := queueLeft rest s.link.owed, owed := false
              counts := { s.link.counts with dropped := min 65535 (s.link.counts.dropped + 1) } } } := by
  unfold collideHead
  split
  case h_1 empty =>
    rw [queue] at empty
    cases empty
  case h_2 y left head =>
    rw [queue] at head
    cases head
    by_cases again : x.attempts < 2
    · have limit : x.attempts + 1 < Config.maxAttempts := Nat.succ_lt_succ again
      rw [if_pos limit, if_pos again]
    · have limit : ¬x.attempts + 1 < Config.maxAttempts := fun less => again (Nat.lt_of_succ_lt_succ less)
      rw [if_neg limit, if_neg again]
      exact leaveQueue_of_cons
        (s := { s with
          link := { s.link with counts := { s.link.counts with dropped := min 65535 (s.link.counts.dropped + 1) } } }) queue

/-! ### A successful send (R92, R98) -/

theorem successfulSend_of_kept (kept : s.port.phase = .setup ∨ s.link.tx ≠ .send) : successfulSend s = s := by
  refine if_neg ?_
  rw [inRun_iff]
  rintro ⟨run, sending⟩
  rcases kept with setup | other
  · rw [setup] at run
    cases run
  · exact other sending

theorem successfulSend_of_cons (run : s.port.phase = .run) (sending : s.link.tx = .send) (queue : s.link.queue = x :: rest) :
    successfulSend s =
      { s with
        time := max s.time s.link.restFrom
        link :=
          { s.link with
            penalty := true, receiver := .echo s.link.sending, sending := [], queue := queueLeft rest s.link.owed, owed := false
            tx := txOnward (queueLeft rest s.link.owed) s.link.line
            counts := { s.link.counts with sent := min 65535 (s.link.counts.sent + 1) } } } := by
  have sent := leaveQueue_of_cons (x := x) (rest := rest)
    (s := { advanceTime s.link.restFrom s with
      link :=
        { s.link with
          penalty := true, receiver := .echo s.link.sending
          counts := { s.link.counts with sent := satAdd Config.max16 s.link.counts.sent 1 } } }) queue
  exact (if_pos ⟨inRun_of_run run, sending⟩).trans (congrArg afterAttempt sent)

/-! ### A collision (R84, R91, R92) -/

/-- The link once an attempt on the head frame x has collided in its byte n at this time. -/
def collidedLink (n stopped : Nat) (x : TxEntry) (rest : List TxEntry) (l : Link) : Link :=
  if x.attempts < 2 then
    { l with
      restFrom := max (l.attemptFrom + 10 * (n + 1)) stopped, sending := []
      queue := { x with attempts := x.attempts + 1 } :: rest
      owed := if x.frame = .status then false else l.owed
      tx := txOnward [x] l.line
      counts := { l.counts with collisions := min 65535 (l.counts.collisions + 1) } }
  else
    { l with
      restFrom := max (l.attemptFrom + 10 * (n + 1)) stopped, sending := []
      queue := queueLeft rest l.owed, owed := false, tx := txOnward (queueLeft rest l.owed) l.line
      counts :=
        { l.counts with
          collisions := min 65535 (l.counts.collisions + 1), dropped := min 65535 (l.counts.dropped + 1) } }

theorem endByCollision_of_cons (n : Nat) (queue : s.link.queue = x :: rest) :
    endByCollision n s =
      { s with
        time := max s.time (s.link.attemptFrom + 10 * n)
        link := collidedLink n (max s.time (s.link.attemptFrom + 10 * n)) x rest s.link } := by
  have head := collideHead_of_cons (x := x) (rest := rest)
    (s := { advanceTime (s.link.attemptFrom + Config.byteTime * n) s with
      link :=
        { s.link with
          restFrom := max (byteEnd n s) (advanceTime (s.link.attemptFrom + Config.byteTime * n) s).time
          counts := { s.link.counts with collisions := satAdd Config.max16 s.link.counts.collisions 1 } } }) queue
  refine (congrArg afterAttempt head).trans ?_
  by_cases again : x.attempts < 2
  · simp only [if_pos again, collidedLink]
    rfl
  · simp only [if_neg again, collidedLink]
    rfl

/-- What a collision leaves of the link, whichever place the head frame takes. -/
theorem collidedLink_fields (n stopped : Nat) (x : TxEntry) (rest : List TxEntry) (l : Link) :
    (collidedLink n stopped x rest l).tx ≠ .send ∧ (collidedLink n stopped x rest l).sending = [] ∧
      (collidedLink n stopped x rest l).counts.collisions = min 65535 (l.counts.collisions + 1) ∧
      (collidedLink n stopped x rest l).counts.sent = l.counts.sent ∧
      (collidedLink n stopped x rest l).queue =
        if x.attempts < 2 then { x with attempts := x.attempts + 1 } :: rest else queueLeft rest l.owed := by
  unfold collidedLink
  split
  · exact ⟨txOnward_ne_send [x] l.line, rfl, rfl, rfl, rfl⟩
  · exact ⟨txOnward_ne_send (queueLeft rest l.owed) l.line, rfl, rfl, rfl, rfl⟩

theorem collision_of_kept
    (kept : s.port.phase = .setup ∨ s.link.tx ≠ .send ∨ s.link.sending.length ≤ bytesOver s) : collision s = s := by
  refine if_neg ?_
  rw [inRun_iff]
  rintro ⟨run, sending, underWay⟩
  rcases kept with setup | other | ended
  · rw [setup] at run
    cases run
  · exact other sending
  · omega

theorem collision_of_cons (run : s.port.phase = .run) (sending : s.link.tx = .send)
    (underWay : bytesOver s < s.link.sending.length) (queue : s.link.queue = x :: rest) :
    collision s =
      let stopped := max s.time (s.link.attemptFrom + 10 * bytesOver s)
      { s with
        time := stopped
        link :=
          collidedLink (bytesOver s) stopped x rest
            { s.link with receiver := .within (arrivalPosition s) (s.link.sending.take (bytesOver s)) } } :=
  (if_pos ⟨inRun_of_run run, sending, underWay⟩).trans
    (endByCollision_of_cons (s := { s with link := { s.link with receiver := .within _ _ } }) (bytesOver s) queue)

end

/-! ### Another station's byte in SEND (R83, R91, R96) -/

/-- A byte changes of the state the receiver and the count of receive errors alone. -/
theorem receiveByte_eq (b : Byte) (s : State) :
    ∃ r errors, receiveByte b s =
      { s with link := { s.link with receiver := r, counts := { s.link.counts with errors := errors } } } := by
  have took (arrival : Nat) (taken : List Byte) (resumes : GoesOnFrom s arrival taken) : ∃ r errors, receiveByte b s =
      { s with link := { s.link with receiver := r, counts := { s.link.counts with errors := errors } } } := by
    cases takes : takeByte taken b with
    | some bytes => exact ⟨_, s.link.counts.errors, receiveByte_of_taken resumes takes⟩
    | none => exact ⟨_, _, receiveByte_of_refused resumes takes⟩
  cases hears : s.link.receiver with
  | waiting => exact ⟨s.link.receiver, s.link.counts.errors, receiveByte_of_waiting hears⟩
  | ready => exact took _ _ (.inl ⟨hears, rfl, rfl⟩)
  | taking arrival taken => exact took arrival taken (.inr (.inl hears))
  | within arrival taken => exact took arrival taken (.inr (.inr hears))
  | echo own => exact ⟨_, _, receiveByte_of_echo hears⟩

/-- The bytes of the attempt that are over have been heard as driven. -/
def heardAsDriven (s : State) : State :=
  { s with link := { s.link with receiver := .taking (arrivalPosition s) (s.link.sending.take (bytesOver s)) } }

section

variable {s : State} {own b : Byte}

theorem lineBusy_of_send (run : s.port.phase = .run) (sending : s.link.tx = .send)
    (driven : s.link.sending[bytesOver s]? = some own) :
    lineBusy b s =
      if b.toNat < own.toNat then endByCollision (bytesOver s) (receiveByte b (heardAsDriven s))
      else receiveByte own (heardAsDriven s) := by
  rw [lineBusy, if_pos (inRun_of_run run), if_pos sending, hearInSend, driven]
  exact hearAgainst_eq b own (bytesOver s) s

/-- The receiver takes every byte of a frame that this station drives. -/
theorem takeByte_driven {kind sender : Byte} {payload : List Byte} {n : Nat} (fits : payload.length ≤ 200)
    (driven : (frameBytes kind sender payload)[n]? = some own) :
    takeByte ((frameBytes kind sender payload).take n) own = some ((frameBytes kind sender payload).take (n + 1)) := by
  have length : (byte payload.length).toNat = payload.length := Nat.mod_eq_of_lt (by omega)
  obtain ⟨more, whole, long⟩ : ∃ more, frameBytes kind sender payload =
      165#8 :: kind :: sender :: byte payload.length :: more ∧ more.length = payload.length + 2 :=
    ⟨payload ++ be 2 (crc (kind :: sender :: byte payload.length :: payload)).toNat, rfl, by
      rw [List.length_append, be_length]⟩
  rw [whole] at driven ⊢
  rw [List.take_add_one, driven]
  match n with
  | 0 =>
    obtain rfl : 165#8 = own := Option.some.inj driven
    rfl
  | 1 => exact takeByte_of_head (.inl rfl)
  | 2 => exact takeByte_of_head (.inr (.inl rfl))
  | 3 =>
    obtain rfl : byte payload.length = own := Option.some.inj driven
    exact takeByte_of_head (.inr (.inr ⟨rfl, length.le.trans fits⟩))
  | m + 4 =>
    obtain ⟨within, -⟩ := List.getElem?_eq_some_iff.mp (show more[m]? = some own from driven)
    have incomplete : ¬(more.take m).length = (byte payload.length).toNat + 2 := by
      rw [List.length_take, length]
      omega
    exact (takeByte_cons _ _ _ _ _ own).trans (if_neg incomplete)

end

/-- Settles O46: the head frame leaves or stays by how the attempt ends, and of two bytes the greater one collides. -/
theorem attemptsEndBySendOrCollision : Obligations.AttemptsEndBySendOrCollision := by
  unfold Obligations.AttemptsEndBySendOrCollision
  intro s n
  refine ⟨fun kept => ⟨congrArg Host.Outcome.next (successfulSend_of_kept kept),
      congrArg Host.Outcome.next (collision_of_kept (kept.imp_right .inl))⟩,
    fun ended => congrArg Host.Outcome.next (collision_of_kept (.inr (.inr ended))), ?_⟩
  intro x rest run sending queue left onward stopped collided
  have collidedLink_eq (r : Receiver) : collidedLink n stopped x rest { s.link with receiver := r } = collided r := by
    by_cases again : x.attempts < 2
    · simp only [collidedLink, collided, if_pos again]
      rfl
    · simp only [collidedLink, collided, if_neg again]
      rfl
  refine ⟨congrArg Host.Outcome.next (successfulSend_of_cons run sending queue), fun underWay => ?collision,
    fun kind payload own b fits frame driven =>
      ⟨fun greater => ?heard, fun lesser => ?collides, fun lesser l takes => ?goesOn⟩⟩
  case collision =>
    rw [← collidedLink_eq]
    exact congrArg Host.Outcome.next (collision_of_cons run sending underWay queue)
  case heard =>
    have busy := (lineBusy_of_send (b := b) run sending driven).trans (if_neg (Nat.not_lt.mpr greater))
    rw [frame] at driven
    have takes := takeByte_driven fits driven
    rw [← frame] at takes
    exact congrArg Host.Outcome.next (busy.trans (receiveByte_of_taken (s := heardAsDriven s) (.inr (.inl rfl)) takes))
  case collides =>
    have busy := (lineBusy_of_send (b := b) run sending driven).trans (if_pos lesser)
    obtain ⟨r, errors, received⟩ := receiveByte_eq b (heardAsDriven s)
    rw [received] at busy
    have ended := endByCollision_of_cons (x := x) (rest := rest)
      (s := { heardAsDriven s with
        link := { (heardAsDriven s).link with receiver := r, counts := { s.link.counts with errors := errors } } }) n queue
    obtain ⟨tx, stops, collisions, sent, left⟩ := collidedLink_fields n stopped x rest
      { s.link with receiver := r, counts := { s.link.counts with errors := errors } }
    have queueAfter : (collided s.link.receiver).queue =
        if x.attempts < 2 then { x with attempts := x.attempts + 1 } :: rest else queueLeft rest s.link.owed := by
      obtain ⟨-, -, -, -, queueCollided⟩ := collidedLink_fields n stopped x rest { s.link with receiver := s.link.receiver }
      rwa [collidedLink_eq] at queueCollided
    exact ⟨_, congrArg Host.Outcome.next (busy.trans ended), rfl, tx, stops, collisions, sent, left.trans queueAfter.symm, rfl,
      rfl, rfl, rfl⟩
  case goesOn =>
    have busy := (lineBusy_of_send (b := b) run sending driven).trans (if_pos lesser)
    rw [receiveByte_of_taken (s := heardAsDriven s) (.inr (.inl rfl)) takes] at busy
    rw [← collidedLink_eq]
    exact congrArg Host.Outcome.next (busy.trans (endByCollision_of_cons
      (s := { s with link := { s.link with receiver := .taking _ l } }) n queue))

end Sys2Proof.Proofs
end

section
/-! PROOFS. A complete frame: when the receiver comes to hear it, the own echo, a receive error, a station clash, and what a STATUS
does to its sender's entry (R84, R96 to R103). -/

namespace Sys2Proof.Proofs

open Sys2Proof Sys2Proof.Machine Sys2Proof.Safety

/-! ### Notices of the take engine at a STATUS (R184, R185) -/

/-- The notices that the take engine raises at an announcement. -/
def takeNotices : List Notice := [.takeStarted, .startRefused, .merged, .originLost]

/-- From a to b no kind but the take engine's has come or gone. -/
def TakeNoticesAlone (a b : NoticeUnit) : Prop :=
  ∀ k : Notice, k ∉ takeNotices → b.pending.getLsbD k.bit = a.pending.getLsbD k.bit

theorem TakeNoticesAlone.refl (a : NoticeUnit) : TakeNoticesAlone a a := fun _ _ => rfl

section

variable {a : NoticeUnit} {s : State} (h : TakeNoticesAlone a s.notices)

include h

theorem takeNoticesAlone_raise {k : Notice} (own : k ∈ takeNotices) : TakeNoticesAlone a (raise k s).notices := by
  intro j other
  have raised := isPending_raise j k s
  have differs : j ≠ k := fun same => other (same ▸ own)
  rw [decide_eq_false differs, Bool.or_false] at raised
  exact raised.trans (h j other)

theorem takeNoticesAlone_markOriginLost (i : Fin 3) : TakeNoticesAlone a (markOriginLost i s).notices := by
  refine takeNoticesAlone_raise ?_ (by decide)
  simpa only [modifySlot_frame] using h

theorem takeNoticesAlone_startSlot (v : RingView) (label : Label) (origin p : Nat) (flags : TakeFlags) :
    TakeNoticesAlone a (startSlot v label origin p flags s).notices := by
  unfold startSlot
  split
  · exact h
  · dsimp only
    split
    · refine takeNoticesAlone_markOriginLost (takeNoticesAlone_raise ?_ (by decide)) _
      exact h
    · refine takeNoticesAlone_raise ?_ (by decide)
      exact h

theorem takeNoticesAlone_promote (v : RingView) : TakeNoticesAlone a (promote v s).notices := by
  unfold promote
  split
  · split
    · exact takeNoticesAlone_startSlot (s := dropPending s) h _ _ _ _ _
    · exact h
  · exact h

theorem takeNoticesAlone_pendAnnounced (x : Identity) (reached : Bool) :
    TakeNoticesAlone a (pendAnnounced x reached s).notices :=
  takeNoticesAlone_promote (s := makePending _ s) h _

theorem takeNoticesAlone_followRolling (x : Identity) : TakeNoticesAlone a (followRolling x s).notices := by
  unfold followRolling
  split_ifs
  · exact takeNoticesAlone_raise h (by decide)
  · exact takeNoticesAlone_pendAnnounced h x false
  · exact takeNoticesAlone_startSlot h _ _ _ _ _
  · exact takeNoticesAlone_pendAnnounced h x true

theorem takeNoticesAlone_lateJoin (x : Identity) (e : Nat) : TakeNoticesAlone a (lateJoin x e s).notices := by
  unfold lateJoin
  split_ifs
  · exact takeNoticesAlone_raise h (by decide)
  · exact takeNoticesAlone_pendAnnounced h x false
  · split
    · simp only [applyStop_frame]
      exact takeNoticesAlone_startSlot h _ _ _ _ _
    · exact takeNoticesAlone_pendAnnounced h x true

theorem takeNoticesAlone_followIdle (p : Fin 8) (x : Announced) : TakeNoticesAlone a (followIdle p x s).notices := by
  unfold followIdle
  split
  · split
    · exact takeNoticesAlone_lateJoin h _ _
    · exact takeNoticesAlone_followRolling h _
  · exact takeNoticesAlone_followRolling h _

theorem takeNoticesAlone_sameTake (p : Fin 8) (x : Announced) (i : Fin 3) :
    TakeNoticesAlone a (sameTake p x i s).notices := by
  unfold sameTake
  split
  · split
    · simpa only [applyStop_frame] using h
    · exact h
  · exact h

theorem takeNoticesAlone_mergeInto (x : Identity) (i : Fin 3) (u : Take) : TakeNoticesAlone a (mergeInto x i u s).notices := by
  unfold mergeInto
  dsimp only
  split
  · refine takeNoticesAlone_markOriginLost (takeNoticesAlone_raise ?_ (by decide)) i
    exact h
  · refine takeNoticesAlone_raise ?_ (by decide)
    exact h

theorem takeNoticesAlone_newTake (p : Fin 8) (x : Announced) (i : Fin 3) : TakeNoticesAlone a (newTake p x i s).notices := by
  refine takeNoticesAlone_followIdle ?_ p x
  simpa only [cutPostRoll_frame] using h

theorem takeNoticesAlone_meetPending (x : Announced) (q : PendingStart) :
    TakeNoticesAlone a (meetPending x q s).notices := by
  unfold meetPending
  split_ifs
  · exact h
  · refine takeNoticesAlone_promote (takeNoticesAlone_raise (s := makePending _ s) h ?_) _
    decide
  · exact h

theorem takeNoticesAlone_meetAnnouncement (p : Fin 8) (x : Announced) :
    TakeNoticesAlone a (meetAnnouncement p x s).notices := by
  unfold meetAnnouncement
  split
  · split
    · exact h
    · split_ifs
      · exact takeNoticesAlone_sameTake h p x _
      · exact takeNoticesAlone_newTake h p x _
      · exact takeNoticesAlone_sameTake (takeNoticesAlone_mergeInto h _ _ _) p x _
      · exact h
  · split
    · exact takeNoticesAlone_meetPending h x _
    · exact takeNoticesAlone_followIdle h p x

theorem takeNoticesAlone_depart (i : Fin 3) : TakeNoticesAlone a (depart i s).notices := by
  simpa only [depart, applyStop_frame] using h

theorem takeNoticesAlone_takeAnnouncement (p : Fin 8) (f : StatusFields) :
    TakeNoticesAlone a (takeAnnouncement p f s).notices := by
  unfold takeAnnouncement
  split
  · split
    · exact takeNoticesAlone_depart h _
    · exact h
  · split_ifs
    · exact h
    · exact h
    · split
      · split
        · unfold afterDeparture
          split
          · exact takeNoticesAlone_newTake (takeNoticesAlone_depart h _) p _ _
          · exact takeNoticesAlone_depart h _
        · exact takeNoticesAlone_meetAnnouncement h p _
      · exact takeNoticesAlone_meetAnnouncement h p _

end

/-! ### The peer table at a STATUS (R98, R101 to R103) -/

theorem setPeer_peers (p q : Fin 8) (e : Peer) (s : State) :
    (setPeer p e s).link.peers[q] = if p = q then e else s.link.peers[q] := by
  by_cases same : p = q
  · subst same
    simp [setPeer]
  · have apart : p.val ≠ q.val := fun value => same (Fin.ext value)
    simp [setPeer, same, apart]

theorem setPeer_self (p : Fin 8) (s : State) : setPeer p s.link.peers[p] s = s := by
  simp [setPeer]

/-- The run number of a STATUS or NOTE enters the entry, and a new one takes heard-up-to back to 0 (R102). -/
theorem applyRun_eq (p : Fin 8) (run : Nat) (s : State) :
    applyRun p run s =
      let e := s.link.peers[p]
      setPeer p
        { e with run := some run, heardUpTo := if e.run = none ∨ e.run = some run then e.heardUpTo else 0 } s := by
  have at_ := setPeer_self p s
  unfold applyRun
  generalize s.link.peers[p] = e at at_ ⊢
  dsimp only
  by_cases same : e.run = some run
  · rw [if_pos same, if_pos (.inr same), ← same]
    exact at_.symm
  · by_cases new : e.run = none
    · rw [if_neg same, if_pos new, if_pos (.inl new)]
    · rw [if_neg same, if_neg new, if_neg (not_or.mpr ⟨new, same⟩)]

/-- The entry of a STATUS's sender (R98, R102, R103). -/
def statusEntry (s : State) (x : StatusFields) (arrival : Nat) (e : Peer) : Peer :=
  { e with
    run := some x.run, heardUpTo := if e.run = none ∨ e.run = some x.run then e.heardUpTo else 0
    compat := some (judgeClock s x arrival).1, offset := (judgeClock s x arrival).2, status := some x }

theorem setPeer_setPeer (p : Fin 8) (d e : Peer) (s : State) : setPeer p e (setPeer p d s) = setPeer p e s := by
  simp [setPeer]

theorem applyStatus_eq (p : Fin 8) (x : StatusFields) (arrival : Nat) (s : State) :
    applyStatus p x arrival s =
      raiseIf (mismatchRaised s.link.peers[p].compat (judgeClock s x arrival).1) .peerMismatch
        (setPeer p (statusEntry s x arrival s.link.peers[p]) s) := by
  have judged (e : Peer) : judgeClock (setPeer p e s) x arrival = judgeClock s x arrival := rfl
  rw [applyStatus, applyRun_eq]
  simp only [setPeer_peers, if_true, judged, setPeer_setPeer, statusEntry]

theorem raiseIf_link (c : Bool) (k : Notice) (s : State) : (raiseIf c k s).link = s.link := by
  cases c <;> rfl

/-- The frames received count of a peer's frame, and the entry that it makes PRESENT (R98, R101). -/
theorem peerHeard_link (p : Fin 8) (s : State) :
    (peerHeard p s).link =
      { s.link with
        peers := s.link.peers.set p { s.link.peers[p] with present := true, heardAt := some s.time }
        counts := { s.link.counts with received := min 65535 (s.link.counts.received + 1) } } := by
  unfold peerHeard
  dsimp only
  rw [raiseIf_link]
  rfl

theorem peerHeard_peers (p q : Fin 8) (s : State) :
    (peerHeard p s).link.peers[q] =
      if p = q then { s.link.peers[p] with present := true, heardAt := some s.time } else s.link.peers[q] := by
  rw [peerHeard_link]
  exact setPeer_peers p q _ s

/-- A catch-up request is marked on the entry, and may be refused by a full queue (R93, R139). -/
theorem queueFrame_link (f : TxFrame) (s : State) :
    (queueFrame f s).link.peers = s.link.peers ∧ (queueFrame f s).link.counts.received = s.link.counts.received ∧
      (queueFrame f s).link.counts.errors = s.link.counts.errors := by
  unfold queueFrame
  split_ifs
  · exact ⟨rfl, rfl, rfl⟩
  · obtain ⟨-, -, peers, counts, -⟩ := appendEntry_link f s
    rw [peers, counts]
    exact ⟨rfl, rfl, rfl⟩
  · exact ⟨rfl, rfl, rfl⟩

theorem testCatchUp_link (p : Fin 8) (highWater : Nat) (s : State) :
    (∀ q : Fin 8, q ≠ p → (testCatchUp p highWater s).link.peers[q] = s.link.peers[q]) ∧
      (∃ asked, (testCatchUp p highWater s).link.peers[p] = { s.link.peers[p] with lastRequest := asked }) ∧
      (testCatchUp p highWater s).link.counts.received = s.link.counts.received ∧
      (testCatchUp p highWater s).link.counts.errors = s.link.counts.errors := by
  obtain ⟨peers, received, errors⟩ := queueFrame_link
    (.noteRequest p.val (s.link.peers[p].run.getD 0) (s.link.peers[p].heardUpTo + 1)) s
  unfold testCatchUp
  dsimp only
  split_ifs
  · refine ⟨fun q other => ?_, ⟨some s.time, ?_⟩, received, errors⟩
    · rw [setPeer_peers, if_neg other.symm, peers]
    · rw [setPeer_peers, if_pos rfl]
  · refine ⟨fun q _ => ?_, ⟨s.link.peers[p].lastRequest, ?_⟩, received, errors⟩
    · simp only [peers]
    · simp only [peers]
  · exact ⟨fun _ _ => rfl, ⟨s.link.peers[p].lastRequest, rfl⟩, rfl, rfl⟩

/-- The clock of a STATUS is judged by the counter and the tolerance alone (R103). -/
theorem judgeClock_congr {s t : State} (counter : t.counter = s.counter) (tolerance : t.link.tolerance = s.link.tolerance)
    (x : StatusFields) (arrival : Nat) : judgeClock t x arrival = judgeClock s x arrival := by
  unfold judgeClock State.day
  rw [counter, tolerance]

theorem judgeClock_of_other_rates {s : State} {x : StatusFields} (arrival : Nat)
    (other : ¬(x.rateCode = s.counter.sampleRate.code ∧ x.tcCode = s.counter.tcRate.code)) :
    judgeClock s x arrival = (.rateMismatch, none) :=
  if_pos (not_and_or.mp other)

theorem judgeClock_of_same_rates {s : State} {x : StatusFields} (arrival : Nat)
    (same : x.rateCode = s.counter.sampleRate.code ∧ x.tcCode = s.counter.tcRate.code) :
    judgeClock s x arrival =
      (if s.link.tolerance < (signedDiff s.day arrival x.pos).natAbs then .tcOff else .ok,
        some (signedDiff s.day arrival x.pos)) := by
  rw [judgeClock, if_neg fun other => other.elim (· same.1) (· same.2)]
  dsimp only
  split
  · rfl
  · rfl

/-- PEER MISMATCH by the old and the new compatibility (R103). -/
theorem mismatchRaised_iff (old : Option Compatibility) (c : Compatibility) :
    mismatchRaised old c = true ↔
      (c ≠ .ok ∧ old ≠ some c) ∨ (c = .ok ∧ (old = some .rateMismatch ∨ old = some .tcOff)) := by
  cases c <;> simp [mismatchRaised]

theorem mismatchRaised_of_unchanged {old : Option Compatibility} {c : Compatibility}
    (unchanged : old = some c ∨ (c = .ok ∧ old = none)) : mismatchRaised old c = false := by
  rcases unchanged with rfl | ⟨rfl, rfl⟩
  · cases c <;> rfl
  · rfl

theorem isPending_raiseIf (j k : Notice) (c : Bool) (s : State) :
    isPending j (raiseIf c k s) = (isPending j s || (c && decide (j = k))) := by
  cases c with
  | false => exact (Bool.or_false _).symm
  | true => exact isPending_raise j k s

theorem isPending_peerHeard (j : Notice) (p : Fin 8) (s : State) :
    isPending j (peerHeard p s) = (isPending j s || (!s.link.peers[p].present && decide (j = .peerChange))) :=
  isPending_raiseIf j .peerChange _ _

theorem isPending_applyStatus (j : Notice) (p : Fin 8) (x : StatusFields) (arrival : Nat) (s : State) :
    isPending j (applyStatus p x arrival s) =
      (isPending j s ||
        (mismatchRaised s.link.peers[p].compat (judgeClock s x arrival).1 && decide (j = .peerMismatch))) := by
  rw [applyStatus_eq, isPending_raiseIf]
  rfl

/-! ### A STATUS taken from its sender's entry to the note store (R98) -/

section

variable (p : Fin 8) (payload : List Byte) (arrival : Nat) (s : State)

/-- Behind the entry and the take engine a STATUS leaves the link to the note store's request. -/
theorem takeStatus_link :
    let t := takeStatus p payload arrival s
    (∀ q : Fin 8, q ≠ p → t.link.peers[q] = s.link.peers[q]) ∧
      (∃ asked, t.link.peers[p] =
        { statusEntry s (readStatusPayload payload) arrival s.link.peers[p] with lastRequest := asked }) ∧
      t.link.counts.received = s.link.counts.received ∧ t.link.counts.errors = s.link.counts.errors := by
  have entered : (applyStatus p (readStatusPayload payload) arrival s).link =
      (setPeer p (statusEntry s (readStatusPayload payload) arrival s.link.peers[p]) s).link := by
    rw [applyStatus_eq, raiseIf_link]
  have followed_link (u : State) (c : Prop) [Decidable c] :
      (if c then takeAnnouncement p (readStatusPayload payload) u else u).link = u.link := by
    split
    · simp only [takeAnnouncement_frame]
    · rfl
  unfold takeStatus
  dsimp only
  obtain ⟨others, ⟨asked, entry⟩, received, errors⟩ := testCatchUp_link p (readStatusPayload payload).highWater
    (if followed (applyStatus p (readStatusPayload payload) arrival s) p = true then
      takeAnnouncement p (readStatusPayload payload) (applyStatus p (readStatusPayload payload) arrival s)
    else applyStatus p (readStatusPayload payload) arrival s)
  simp only [followed_link, entered, setPeer_peers, if_true] at others entry received errors
  exact ⟨fun q other => (others q other).trans (if_neg other.symm), ⟨asked, entry⟩, received, errors⟩

theorem isPending_takeStatus {k : Notice} (other : k ∉ takeNotices) :
    isPending k (takeStatus p payload arrival s) =
      isPending k (applyStatus p (readStatusPayload payload) arrival s) := by
  unfold takeStatus isPending
  simp only [testCatchUp_frame]
  split
  · exact takeNoticesAlone_takeAnnouncement (.refl _) p _ k other
  · rfl

end

/-! ### How a frame comes to be heard (R84, R96) -/

theorem canHear_iff (kind : Byte) (f : HeardFrame) (s : State) :
    canHear kind f s = true ↔
      s.port.phase = .run ∧ s.link.tx ≠ .send ∧
        (s.link.receiver = .ready ∨ s.link.receiver = .echo (frameBytesOf kind f) ∨
          ∃ arrival bytes, (s.link.receiver = .taking arrival bytes ∨ s.link.receiver = .within arrival bytes) ∧
            bytes <+: frameBytesOf kind f) := by
  simp only [canHear, Bool.and_eq_true, inRun_iff, bne_iff_ne, and_assoc]
  cases s.link.receiver <;> simp

section

variable {kind : Byte} {f : HeardFrame} {s : State}

theorem exec_frame_of_unheard {x : Byte × Instr} (row : x ∈ frameRows f)
    (unheard : canHear x.1 f s = false) : exec x.2 s = .next s := by
  rw [exec_frame row, receiveFrame, if_neg (by rw [unheard]; decide)]

theorem hearFrame_of_echo {own : List Byte} (echo : s.link.receiver = .echo own) :
    hearFrame kind f s = startBitHeard s.link.restFrom s := by
  simp only [hearFrame, startBitHeard, echo, restAfter, if_true]

theorem hearFrame_receiver (heard : canHear kind f s = true) (other : ∀ own, s.link.receiver ≠ .echo own) :
    (hearFrame kind f s).link.receiver = .taking (arrivalPosition s) (frameBytesOf kind f) := by
  cases hears : s.link.receiver with
  | waiting => simp [canHear, hears] at heard
  | ready => simp only [hearFrame, hears, arrivalPosition]
  | taking arrival bytes => simp only [hearFrame, hears, arrivalPosition]
  | within arrival bytes => simp only [hearFrame, hears, arrivalPosition]
  | echo own => exact absurd hears (other own)

/-- A complete frame holds as many payload bytes as it announces. -/
theorem heardFrame_payload_length {bytes : List Byte} (whole : takenComplete bytes = true) :
    (heardFrame bytes).2.payload.length + 6 = bytes.length := by
  simp only [takenComplete, frameLength, Bool.and_eq_true, decide_eq_true_eq, beq_iff_eq] at whole
  simp only [heardFrame, List.length_take, List.length_drop]
  omega

theorem frameValid_of_long (long : 200 < f.payload.length) : frameValid kind f = false := by
  have noRoom : decide (f.payload.length ≤ Config.maxPayload) = false := decide_eq_false (Nat.not_le.mpr long)
  rw [frameValid, noRoom, Bool.and_false, Bool.false_and]

/-- A frame that is not valid is a receive error at the IDLE that ends it, whatever its length byte says (R97). -/
theorem endReception_of_invalid (heard : canHear kind f s = true) (other : ∀ own, s.link.receiver ≠ .echo own)
    (invalid : frameValid kind f = false) :
    endReception (becomeIdle (hearFrame kind f s)) = countError (restedLine (hearFrame kind f s)) := by
  have hears := hearFrame_receiver heard other
  by_cases fits : f.payload.length ≤ 200
  · rw [endReception_of_frame fits hears, processFrame_of_invalid invalid]
  · cases whole : takenComplete (frameBytesOf kind f) with
    | false => exact endReception_of_incomplete hears whole
    | true =>
      have length := heardFrame_payload_length whole
      have wholeLength : (frameBytesOf kind f).length = f.payload.length + 6 := by
        simp only [frameBytesOf, List.cons_append, List.length_cons, List.length_append, be_length]
      have long : 200 < (heardFrame (frameBytesOf kind f)).2.payload.length := by omega
      have receiver : (becomeIdle (hearFrame kind f s)).link.receiver = .taking (arrivalPosition s) (frameBytesOf kind f) :=
        hears
      simp only [endReception, receiver, whole, if_true, processFrame_of_invalid (frameValid_of_long long)]
      rfl

/-- A frame of wrong check, sender or length is not valid (R85, R97). -/
theorem frameValid_of_wrong
    (wrong : f.check ≠ crc (kind :: f.sender :: BitVec.ofNat 8 f.payload.length :: f.payload) ∨ 7 < f.sender.toNat ∨
      200 < f.payload.length ∨ (kind = 1#8 ∧ f.payload.length ≠ 40) ∨ (kind = 3#8 ∧ f.payload.length ≠ 5) ∨
      (kind = 4#8 ∧ f.payload.length ≠ 6) ∨ (kind = 2#8 ∧ readNotePayload f.payload = none)) :
    frameValid kind f = false := by
  have unfit (length : lengthFits kind f.payload = false) : frameValid kind f = false := by
    rw [frameValid, length, Bool.and_false]
  rcases wrong with check | sender | long | ⟨rfl, length⟩ | ⟨rfl, length⟩ | ⟨rfl, length⟩ | ⟨rfl, unread⟩
  · have differs : (f.check == crc (kind :: f.sender :: byte f.payload.length :: f.payload)) = false :=
      beq_eq_false_iff_ne.mpr check
    rw [frameValid, differs, Bool.false_and, Bool.false_and, Bool.false_and]
  · have outside : decide (f.sender.toNat < 8) = false := decide_eq_false (Nat.not_lt.mpr sender)
    rw [frameValid, outside, Bool.and_false, Bool.false_and, Bool.false_and]
  · exact frameValid_of_long long
  · exact unfit (beq_eq_false_iff_ne.mpr length)
  · exact unfit (beq_eq_false_iff_ne.mpr length)
  · exact unfit (beq_eq_false_iff_ne.mpr length)
  · refine unfit ?_
    change ((readNotePayload f.payload).isSome && _) = false
    rw [unread]
    rfl

theorem fits_of_frameValid (valid : frameValid kind f = true) : f.payload.length ≤ 200 :=
  Nat.le_of_not_lt fun long => by rw [frameValid_of_long long] at valid; cases valid

theorem processFrame_of_own {arrival : Nat} (valid : frameValid kind f = true)
    (own : f.sender.toNat = s.port.station.val) : processFrame kind f arrival s = stationClash s := by
  rw [processFrame, valid, if_neg (by decide), if_pos own]

theorem processFrame_of_status {arrival : Nat} {p : Fin 8} (valid : frameValid 1#8 f = true) (sender : f.sender.toNat = p.val)
    (peer : p ≠ s.port.station) :
    processFrame 1#8 f arrival s = takeStatus p f.payload arrival (peerHeard p s) := by
  have number : Fin.ofNat 8 f.sender.toNat = p := by
    rw [sender]
    exact Fin.ext (Nat.mod_eq_of_lt p.isLt)
  rw [processFrame, valid, if_neg (by decide), if_neg (by rw [sender]; exact fun same => peer (Fin.ext same))]
  dsimp only
  rw [number]
  rfl

/-- An event that left takes, store, port and writer acts on nothing but the link (R97, R98). -/
theorem finish_actsOnNothing {after : State} (first : State) (leaves : LeavesTakes s after) (store : after.store = s.store) :
    TakesStand s (finish first after) ∧ { (finish first after).store with notes := s.store.notes } = s.store ∧
      (finish first after).store.notes.map StoredNote.note = s.store.notes.map StoredNote.note :=
  ⟨leaves.takesStand first, store ▸ finish_store first after⟩

theorem exec_frame_heard {x : Byte × Instr} (row : x ∈ frameRows f)
    (heard : canHear x.1 f s = true) {after : State} (ended : endReception (becomeIdle (hearFrame x.1 f s)) = after) :
    exec x.2 s = .next (finish (hearFrame x.1 f s) after) := by
  obtain ⟨run, still, -⟩ := (canHear_iff x.1 f s).mp heard
  rw [exec_frame row, receiveFrame_of_canHear run still heard, ended]

end

/-! ### A STATUS of a peer (R98, R101 to R103) -/

section

variable {f : HeardFrame} {s : State} {p : Fin 8}

/-- The state that a STATUS of the peer p leaves before the event's end. -/
def statusTaken (p : Fin 8) (f : HeardFrame) (s : State) : State :=
  takeStatus p f.payload (arrivalPosition s) (peerHeard p (restedLine (hearFrame 1#8 f s)))

theorem frameValid_of_status (sender : f.sender.toNat = p.val) (length : f.payload.length = 40)
    (check : f.check = crc (1#8 :: f.sender :: 40#8 :: f.payload)) : frameValid 1#8 f = true := by
  have announced : byte f.payload.length = 40#8 := by rw [length]; rfl
  have fits : lengthFits 1#8 f.payload = true := beq_iff_eq.mpr length
  have inRoom : decide (f.payload.length ≤ Config.maxPayload) = true := decide_eq_true (by rw [length]; decide)
  have station : decide (f.sender.toNat < 8) = true := decide_eq_true (by omega)
  rw [frameValid, announced, ← check, beq_self_eq_true, station, inRoom, fits]
  rfl

theorem endReception_of_status (heard : canHear 1#8 f s = true) (other : ∀ own, s.link.receiver ≠ .echo own)
    (sender : f.sender.toNat = p.val) (peer : p ≠ s.port.station) (length : f.payload.length = 40)
    (check : f.check = crc (1#8 :: f.sender :: 40#8 :: f.payload)) :
    endReception (becomeIdle (hearFrame 1#8 f s)) = statusTaken p f s := by
  have valid := frameValid_of_status sender length check
  rw [endReception_of_frame (fits_of_frameValid valid) (hearFrame_receiver heard other)]
  exact processFrame_of_status (s := restedLine (hearFrame 1#8 f s)) valid sender peer

theorem statusTaken_frame (p : Fin 8) (f : HeardFrame) (s : State) :
    (statusTaken p f s).time = (restedLine (hearFrame 1#8 f s)).time ∧ (statusTaken p f s).port = s.port ∧
      (statusTaken p f s).counter = s.counter ∧ (statusTaken p f s).ring = s.ring := by
  obtain ⟨time, port, counter, -, -, ring, -⟩ := takeStatus_frame p f.payload (arrivalPosition s)
    (peerHeard p (restedLine (hearFrame 1#8 f s)))
  obtain ⟨timeHeard, portHeard, counterHeard, -, -, ringHeard, -⟩ := peerHeard_frame p (restedLine (hearFrame 1#8 f s))
  exact ⟨time.trans timeHeard, port.trans portHeard, counter.trans counterHeard, ring.trans ringHeard⟩

/-- The clock is judged as it was when the frame arrived. -/
theorem judgeClock_heard (p : Fin 8) (f : HeardFrame) (s : State) (x : StatusFields) (arrival : Nat) :
    judgeClock (peerHeard p (restedLine (hearFrame 1#8 f s))) x arrival = judgeClock s x arrival := by
  refine judgeClock_congr ?_ ?_ x arrival
  · obtain ⟨-, -, counter, -⟩ := peerHeard_frame p (restedLine (hearFrame 1#8 f s))
    exact counter
  · rw [peerHeard_link]
    rfl

theorem statusTaken_link (p : Fin 8) (f : HeardFrame) (s : State) :
    (∀ q : Fin 8, q ≠ p → (statusTaken p f s).link.peers[q] = s.link.peers[q]) ∧
      (∃ asked, (statusTaken p f s).link.peers[p] =
        { statusEntry s (readStatusPayload f.payload) (arrivalPosition s) s.link.peers[p] with
          present := true, heardAt := some (restedLine (hearFrame 1#8 f s)).time, lastRequest := asked }) ∧
      (statusTaken p f s).link.counts.received = min 65535 (s.link.counts.received + 1) ∧
      (statusTaken p f s).link.counts.errors = s.link.counts.errors := by
  have heard := peerHeard_link p (restedLine (hearFrame 1#8 f s))
  have peers (q : Fin 8) := peerHeard_peers p q (restedLine (hearFrame 1#8 f s))
  obtain ⟨others, ⟨asked, entry⟩, received, errors⟩ := takeStatus_link p f.payload (arrivalPosition s)
    (peerHeard p (restedLine (hearFrame 1#8 f s)))
  refine ⟨fun q other => ?_, ⟨asked, ?_⟩, ?_, ?_⟩
  · exact (others q other).trans ((peers q).trans (if_neg other.symm))
  · rw [peers p, if_pos rfl, statusEntry, judgeClock_heard] at entry
    exact entry
  · exact received.trans (by rw [heard]; rfl)
  · exact errors.trans (by rw [heard]; rfl)

/-- A STATUS heard from its first byte on ends 46 bytes of ten bit times later, and the IDLE 16 bit times after that (R84). -/
theorem statusTaken_time_of_ready (p : Fin 8) (ready : s.link.receiver = .ready) (length : f.payload.length = 40) :
    (statusTaken p f s).time = max s.link.restFrom s.time + 460 + 16 := by
  have bytes : (frameBytesOf 1#8 f).length = 46 := by
    simp only [frameBytesOf, List.cons_append, List.length_cons, List.length_append, be_length, length]
  have rest : (hearFrame 1#8 f s).link.restFrom = max s.link.restFrom s.time + 460 := by
    simp only [hearFrame, ready, bytes, restAfter, Config.byteTime]
    rfl
  rw [(statusTaken_frame p f s).1]
  change max s.time ((hearFrame 1#8 f s).link.restFrom + 16) = _
  rw [rest]
  omega

/-- A STATUS raises PEER CHANGE by its sender's absence and PEER MISMATCH by its clock alone (R101, R103). -/
theorem statusTaken_notices (p : Fin 8) (f : HeardFrame) (s : State) :
    isPending .peerChange (statusTaken p f s) = (isPending .peerChange s || !s.link.peers[p].present) ∧
      isPending .peerMismatch (statusTaken p f s) =
        (isPending .peerMismatch s || mismatchRaised s.link.peers[p].compat
          (judgeClock s (readStatusPayload f.payload) (arrivalPosition s)).1) := by
  have compat : (peerHeard p (restedLine (hearFrame 1#8 f s))).link.peers[p].compat = s.link.peers[p].compat := by
    rw [peerHeard_peers, if_pos rfl]
    rfl
  have taken (k : Notice) (other : k ∉ takeNotices) : isPending k (statusTaken p f s) =
      ((isPending k s || (!s.link.peers[p].present && decide (k = .peerChange))) ||
        (mismatchRaised s.link.peers[p].compat
          (judgeClock s (readStatusPayload f.payload) (arrivalPosition s)).1 && decide (k = .peerMismatch))) := by
    rw [statusTaken, isPending_takeStatus _ _ _ _ other, isPending_applyStatus, isPending_peerHeard, compat, judgeClock_heard]
    rfl
  constructor
  · simpa using taken .peerChange (by decide)
  · simpa using taken .peerMismatch (by decide)

end

/-- The own echo is not processed: the line is IDLE and the receiver ready, and nothing else is acted on (R98). -/
theorem exec_frame_of_echo {f : HeardFrame} {s : State} {x : Byte × Instr} {own : List Byte} (row : x ∈ frameRows f)
    (heard : canHear x.1 f s = true) (echo : s.link.receiver = .echo own) :
    exec x.2 s =
      .next (finish (startBitHeard s.link.restFrom s) (restedLine (startBitHeard s.link.restFrom s))) := by
  have bit := hearFrame_of_echo (kind := x.1) (f := f) echo
  have ended := endReception_of_no_frame (s := startBitHeard s.link.restFrom s) (.inr (.inr ⟨own, echo⟩))
  exact (exec_frame_heard row heard rfl).trans (by rw [bit, ended])

/-- Settles O48: the receiver by the bytes it holds, the frame by its check, sender and length, the entry by the STATUS. -/
theorem framesActOnThePeerTable : Obligations.FramesActOnThePeerTable := by
  unfold Obligations.FramesActOnThePeerTable
  intro s f kinds actsOnNothing
  refine ⟨fun setup x row => exec_frame_of_unheard row ?setup, fun x row => canHear_iff x.1 f s,
    fun x row unheard => exec_frame_of_unheard row unheard, fun x row own heard echo => ?echo,
    fun other => ⟨fun x row heard => ⟨fun wrong => ?wrong, fun valid own => ?clash⟩, ?status⟩⟩
  case setup =>
    simp only [canHear, inRun_of_setup setup, Bool.false_and]
  case echo =>
    have leaves : LeavesTakes s (restedLine (startBitHeard s.link.restFrom s)) := ⟨rfl, rfl, rfl⟩
    have link := LeavesTakes.finish_link (before := startBitHeard s.link.restFrom s)
      (after := restedLine (startBitHeard s.link.restFrom s)) ⟨rfl, rfl, rfl⟩
    obtain ⟨time, port, notices, counter, -, -, ring, -⟩ :=
      finish_frame (startBitHeard s.link.restFrom s) (restedLine (startBitHeard s.link.restFrom s))
    refine ⟨_, exec_frame_of_echo row heard echo, time, ?_, ?_, ?_, notices, port, counter, ring, ?_,
      finish_actsOnNothing _ leaves rfl⟩
    all_goals
      rw [link]
      rfl
  case wrong =>
    have ended := endReception_of_invalid heard other (frameValid_of_wrong wrong)
    have leaves : LeavesTakes s (countError (restedLine (hearFrame x.1 f s))) := ⟨rfl, rfl, rfl⟩
    have link := LeavesTakes.finish_link (before := hearFrame x.1 f s)
      (after := countError (restedLine (hearFrame x.1 f s))) ⟨rfl, rfl, rfl⟩
    obtain ⟨-, port, notices, counter, -, -, ring, -⟩ :=
      finish_frame (hearFrame x.1 f s) (countError (restedLine (hearFrame x.1 f s)))
    refine ⟨_, exec_frame_heard row heard ended, ?_, notices, port, counter, ?_, ?_, ring, finish_actsOnNothing _ leaves rfl⟩
    all_goals
      rw [link]
      rfl
  case clash =>
    have ended : endReception (becomeIdle (hearFrame x.1 f s)) = stationClash (restedLine (hearFrame x.1 f s)) :=
      (endReception_of_frame (fits_of_frameValid valid) (hearFrame_receiver heard other)).trans
        (processFrame_of_own (s := restedLine (hearFrame x.1 f s)) valid own)
    have link := LeavesTakes.finish_link (before := hearFrame x.1 f s)
      (after := stationClash (restedLine (hearFrame x.1 f s))) ⟨rfl, rfl, rfl⟩
    obtain ⟨-, port, notices, counter, -, -, ring, -⟩ :=
      finish_frame (hearFrame x.1 f s) (stationClash (restedLine (hearFrame x.1 f s)))
    have clash : isPending .stationClash (finish (hearFrame x.1 f s) (stationClash (restedLine (hearFrame x.1 f s)))) = true :=
      (isPending_of_notices notices).trans (isPending_raise_self .stationClash _)
    refine ⟨_, exec_frame_heard row heard ended, ?_, ?_, ?_, ?_, ?_, clash, port, counter, ring, ?_⟩
    all_goals
      rw [link]
      rfl
  case status =>
    intro p heard sender peer length check fields e offset sameRates
    have ended := endReception_of_status heard other sender peer length check
    obtain ⟨time, port, counter, ring⟩ := statusTaken_frame p f s
    obtain ⟨others, ⟨asked, entry⟩, received, errors⟩ := statusTaken_link p f s
    obtain ⟨change, mismatch⟩ := statusTaken_notices p f s
    obtain ⟨peers, -, counts⟩ := finish_link (hearFrame 1#8 f s) (statusTaken p f s)
    obtain ⟨timeEnd, portEnd, noticesEnd, counterEnd, -, -, ringEnd, -⟩ := finish_frame (hearFrame 1#8 f s) (statusTaken p f s)
    have changeEnd := (isPending_of_notices noticesEnd).trans change
    have mismatchEnd := (isPending_of_notices noticesEnd).trans mismatch
    have row : exec (.statusFrame f) s = .next (finish (hearFrame 1#8 f s) (statusTaken p f s)) :=
      exec_frame_heard (x := (1#8, .statusFrame f)) (List.mem_cons_self ..) heard ended
    refine ⟨_, row, ?_⟩
    rw [peers, counts, entry, timeEnd, time]
    refine ⟨received, errors, portEnd.trans port, counterEnd.trans counter, ringEnd.trans ring, others, rfl, rfl, rfl,
      fun ready => time.symm.trans (statusTaken_time_of_ready p ready length), rfl, rfl, fun otherRates => ?_, fun same => ?_,
      fun absent => ?_, fun c compat => ?mismatch⟩
    · have judged := judgeClock_of_other_rates (arrivalPosition s) otherRates
      exact ⟨congrArg some (congrArg Prod.fst judged), congrArg Prod.snd judged⟩
    · have judged := judgeClock_of_same_rates (arrivalPosition s) same
      exact ⟨congrArg Prod.snd judged, congrArg some (congrArg Prod.fst judged)⟩
    · have newlyPresent : s.link.peers[p].present = false := absent
      rw [changeEnd, newlyPresent, Bool.not_false, Bool.or_true]
    case mismatch =>
      obtain rfl : (judgeClock s fields (arrivalPosition s)).1 = c := Option.some.inj compat
      refine ⟨fun notOk changed => ?_, fun ok was => ?_, fun unchanged => ?_⟩
      · rw [mismatchEnd, (mismatchRaised_iff _ _).mpr (.inl ⟨notOk, changed⟩), Bool.or_true]
      · rw [mismatchEnd, (mismatchRaised_iff _ _).mpr (.inr ⟨ok, was⟩), Bool.or_true]
      · rw [mismatchEnd, mismatchRaised_of_unchanged unchanged, Bool.or_false]

end Sys2Proof.Proofs
end

section
/-! PROOFS. A STATUS of a peer at the take engine: the state in which it is taken up, the way of an announcement through the
rules, and what stops, merges, cuts and pending starts from announcements make of the takes (R107 to R119). -/

namespace Sys2Proof.Proofs

open Sys2Proof Sys2Proof.Machine Sys2Proof.Safety

/-! ### Earlier positions and preceding identities (R1, R109) -/

section

variable {D : Nat} (pos : 0 < D)

include pos

theorem isEarlier_self (p : Nat) : isEarlier D p p = false := by
  rw [isEarlier, signedDiff_self pos]
  rfl

theorem ne_of_isEarlier {p q : Nat} (earlier : isEarlier D p q = true) : p ≠ q := by
  rintro rfl
  exact Bool.false_ne_true ((isEarlier_self pos p).symm.trans earlier)

theorem not_isEarlier_of_isEarlier {p q : Nat} (earlier : isEarlier D p q = true) : isEarlier D q p = false := by
  have below : signedDiff D q p < 0 := of_decide_eq_true earlier
  have near := place_of_not_later pos (p := p) (n := q) (decide_eq_false below.not_gt)
  refine decide_eq_false ?_
  rw [signedDiff_of_place pos near.le]
  omega

/-- The position before one that is later than a stop is not earlier than the stop. -/
theorem isEarlier_pred_of_isLater {p stop : Nat} (later : isLater D p stop = true) :
    isEarlier D (posSub D p 1) stop = false := by
  have after : 0 < signedDiff D stop p := of_decide_eq_true later
  have below := Int.emod_lt_of_pos ((p : Int) - stop) (show (0 : Int) < D by omega)
  rw [signedDiff_eq] at after
  have before : ((posSub D p 1 : Nat) - (stop : Int)) % D = ((p : Int) - stop) % D - 1 := by
    rw [posSub_eq_emod pos, Int.emod_sub_emod, Nat.cast_one, sub_right_comm, ← Int.emod_sub_emod]
    exact Int.emod_eq_of_lt (by split at after <;> omega) (by omega)
  refine decide_eq_false ?_
  rw [signedDiff_eq, before]
  split at after
  · rw [if_pos (by omega)]
    omega
  · omega

theorem precedes_of_isEarlier {a b : Identity} (earlier : isEarlier D a.start b.start = true) : precedes D a b = true := by
  rw [precedes, if_neg (ne_of_isEarlier pos earlier), earlier]

theorem not_precedes_of_isEarlier {a b : Identity} (earlier : isEarlier D b.start a.start = true) :
    precedes D a b = false := by
  rw [precedes, if_neg (ne_of_isEarlier pos earlier).symm, not_isEarlier_of_isEarlier pos earlier]

end

theorem precedes_of_origin (D : Nat) {a b : Identity} (start : a.start = b.start) (origin : a.origin < b.origin) :
    precedes D a b = true := by
  rw [precedes, if_pos start, if_neg origin.ne, decide_eq_true origin]

/-! ### What a STATUS announces (R108) -/

section

variable {s : State} {x : StatusFields}

theorem announcedTake_of_rolling (phase : x.phase = 2) (least : 1 ≤ x.number) (most : x.number ≤ 999) :
    announcedTake s.day x = some { identity := announcedIdentity s x, stop := none } := by
  rw [announcedTake, if_pos ⟨.inl phase, least, most⟩, if_neg (by rw [phase]; decide)]
  rfl

theorem announcedTake_of_post (phase : x.phase = 3) (least : 1 ≤ x.number) (most : x.number ≤ 999) :
    announcedTake s.day x = some { identity := announcedIdentity s x, stop := some (x.stop % s.day) } := by
  have post : x.phase = EnginePhase.post.code := phase
  rw [announcedTake, if_pos ⟨.inr post, least, most⟩, if_pos post]
  rfl

theorem announcedTake_of_take (phase : x.phase = 2 ∨ x.phase = 3) (least : 1 ≤ x.number) (most : x.number ≤ 999) :
    ∃ a, announcedTake s.day x = some a ∧ a.identity = announcedIdentity s x ∧ (x.phase = 2 → a.stop = none) := by
  rcases phase with rolling | post
  · exact ⟨_, announcedTake_of_rolling rolling least most, rfl, fun _ => rfl⟩
  · exact ⟨_, announcedTake_of_post post least most, rfl, fun rolling => absurd (post.symm.trans rolling) (by decide)⟩

theorem announcedTake_eq_none (noTake : x.phase = 0 ∨ x.phase = 1 ∨ x.number = 0) : announcedTake s.day x = none := by
  refine if_neg fun ⟨phase, least, _⟩ => ?_
  rcases noTake with idle | pending | unnumbered
  · rw [idle] at phase
    exact absurd phase (by decide)
  · rw [pending] at phase
    exact absurd phase (by decide)
  · omega

end

/-! ### The way of an announcement through the rules (R110, R111, R115) -/

section

variable {s : State} {p : Fin 8} {i : Fin 3} {u : Take}

theorem departing_of_origin (isOpenSlot : openSlot s = some i) (holds : s.takes.slots[i] = some u)
    (rolling : u.phase = .rolling) (origin : u.origin = p.val) (peer : p ≠ s.port.station) : departing p s = some i := by
  simp only [departing, isOpenSlot, holds, rolling, origin, peer, ne_eq, not_false_eq_true, and_self, if_true]

theorem departing_eq_none (stays : ∀ (i : Fin 3) (u : Take), openSlot s = some i → s.takes.slots[i] = some u →
    u.phase = .rolling → u.origin ≠ p.val) : departing p s = none := by
  unfold departing
  split
  · split
    · exact if_neg fun ⟨rolling, origin, _⟩ => stays _ _ ‹_› ‹_› rolling origin
    · rfl
  · rfl

theorem departing_of_staying (isOpenSlot : openSlot s = some i) (holds : s.takes.slots[i] = some u)
    (stays : u.phase = .rolling → u.origin ≠ p.val) : departing p s = none :=
  departing_eq_none fun j v openSlotJ held => by
    cases isOpenSlot.symm.trans openSlotJ
    cases holds.symm.trans held
    exact stays

theorem departing_of_no_openSlot (noOpen : openSlot s = none) : departing p s = none :=
  departing_eq_none fun _ _ isOpenSlot => nomatch noOpen.symm.trans isOpenSlot

variable {a : Announced}

theorem showsDeparture_of_same (holds : s.takes.slots[i] = some u) (same : a.identity = u.identity) :
    showsDeparture a i s = false := by
  simp only [showsDeparture, holds, same, bne_self_eq_false, Bool.false_and]

theorem showsDeparture_of_later (holds : s.takes.slots[i] = some u) (earlier : isEarlier s.day u.sr a.identity.start = true) :
    showsDeparture a i s = true := by
  have other : a.identity ≠ u.identity := fun same =>
    ne_of_isEarlier (day_pos s) earlier (congrArg Identity.start same).symm
  have behind : precedes s.day a.identity u.identity = false := not_precedes_of_isEarlier (day_pos s) earlier
  simp only [showsDeparture, holds, bne_iff_ne.mpr other, behind, Bool.not_false, Bool.and_self]

variable {x : StatusFields}

theorem takeAnnouncement_of_no_take (noTake : announcedTake s.day x = none) :
    takeAnnouncement p x s = (departing p s).elim s (depart · s) := by
  rw [takeAnnouncement, noTake]
  dsimp only
  cases departing p s <;> rfl

variable (announced : announcedTake s.day x = some a)

include announced

theorem takeAnnouncement_of_closed (closed : a.identity ∈ s.takes.closed) : takeAnnouncement p x s = s := by
  rw [takeAnnouncement, announced]
  exact if_pos (List.contains_iff_mem.mpr closed)

theorem takeAnnouncement_of_unheld (own : a.identity.origin = s.port.station.val)
    (unheld : isHeldIdentity a.identity s = false) : takeAnnouncement p x s = s := by
  rw [takeAnnouncement, announced]
  dsimp only
  split
  · rfl
  · exact if_pos ⟨own, unheld⟩

/-- An announcement that shows no departure, and would change nothing where it is met, changes nothing. -/
theorem takeAnnouncement_of_unmoved (stays : ∀ i, departing p s = some i → showsDeparture a i s = false)
    (unmoved : meetAnnouncement p a s = s) : takeAnnouncement p x s = s := by
  rw [takeAnnouncement, announced]
  dsimp only
  split_ifs
  · rfl
  · rfl
  · split
    · rw [stays _ ‹_›, if_neg Bool.false_ne_true, unmoved]
    · exact unmoved

variable (unclosed : a.identity ∉ s.takes.closed) (foreign : a.identity.origin ≠ s.port.station.val)

include unclosed foreign

theorem takeAnnouncement_meets (stays : ∀ i, departing p s = some i → showsDeparture a i s = false) :
    takeAnnouncement p x s = meetAnnouncement p a s := by
  rw [takeAnnouncement, announced]
  dsimp only
  rw [if_neg (mt List.contains_iff_mem.mp unclosed), if_neg fun own => foreign own.1]
  split
  · rw [stays _ ‹_›, if_neg Bool.false_ne_true]
  · rfl

/-- An open take that does not depart meets the announcement. -/
theorem takeAnnouncement_meets_of_staying (isOpenSlot : openSlot s = some i) (holds : s.takes.slots[i] = some u)
    (stays : u.phase = .rolling → u.origin ≠ p.val) : takeAnnouncement p x s = meetAnnouncement p a s :=
  takeAnnouncement_meets announced unclosed foreign fun _ departs =>
    nomatch (departing_of_staying isOpenSlot holds stays).symm.trans departs

theorem takeAnnouncement_meets_of_no_openSlot (noOpen : openSlot s = none) :
    takeAnnouncement p x s = meetAnnouncement p a s :=
  takeAnnouncement_meets announced unclosed foreign fun _ departs =>
    nomatch (departing_of_no_openSlot noOpen).symm.trans departs

/-- A later take of the origin departs from the open one (R115). -/
theorem takeAnnouncement_departs (departs : departing p s = some i) (holds : s.takes.slots[i] = some u)
    (earlier : isEarlier s.day u.sr a.identity.start = true) :
    takeAnnouncement p x s = afterDeparture p a i (depart i s) := by
  rw [takeAnnouncement, announced]
  dsimp only
  rw [if_neg (mt List.contains_iff_mem.mp unclosed), if_neg fun own => foreign own.1, departs]
  exact if_pos (showsDeparture_of_later holds earlier)

end

/-! ### An announcement against the open take, the pending start or IDLE (R111) -/

section

variable {s : State} {p : Fin 8} {a : Announced}

section

variable {i : Fin 3} {u : Take} (isOpenSlot : openSlot s = some i) (holds : s.takes.slots[i] = some u)

include isOpenSlot holds

theorem meetAnnouncement_of_same (same : a.identity = u.identity) : meetAnnouncement p a s = sameTake p a i s := by
  simp only [meetAnnouncement, isOpenSlot, holds, if_pos same]

theorem meetAnnouncement_of_new (other : a.identity ≠ u.identity) (post : u.phase = .post) {stop : Nat}
    (stopped : u.e = some stop) (later : isLater s.day a.identity.start stop = true) :
    meetAnnouncement p a s = newTake p a i s := by
  simp only [meetAnnouncement, isOpenSlot, holds, if_neg other, post, stopped, Option.getD_some, later, and_self, if_true]

/-- A ROLLING take merges into an identity that precedes its own, of which a ROLLING announcement asks no more (R117). -/
theorem meetAnnouncement_of_precedes (rolling : u.phase = .rolling) (noStop : a.stop = none)
    (before : precedes s.day a.identity u.identity = true) (other : a.identity ≠ u.identity) :
    meetAnnouncement p a s = mergeInto a.identity i u s := by
  simp only [meetAnnouncement, isOpenSlot, holds, if_neg other, rolling, before, reduceCtorEq, false_and, if_false, if_true,
    sameTake, noStop]

theorem meetAnnouncement_of_later (rolling : u.phase = .rolling) (earlier : isEarlier s.day u.sr a.identity.start = true) :
    meetAnnouncement p a s = s := by
  have other : a.identity ≠ u.identity := fun same =>
    ne_of_isEarlier (day_pos s) earlier (congrArg Identity.start same).symm
  have behind : precedes s.day a.identity u.identity = false := not_precedes_of_isEarlier (day_pos s) earlier
  simp only [meetAnnouncement, isOpenSlot, holds, if_neg other, rolling, behind, reduceCtorEq, false_and, if_false,
    Bool.false_eq_true]

end

theorem meetAnnouncement_of_pending {q : PendingStart} (noOpen : openSlot s = none) (start : s.takes.pendingStart = some q) :
    meetAnnouncement p a s = meetPending a q s := by
  simp only [meetAnnouncement, noOpen, start]

theorem meetAnnouncement_of_idle (noOpen : openSlot s = none) (noStart : s.takes.pendingStart = none) :
    meetAnnouncement p a s = followIdle p a s := by
  simp only [meetAnnouncement, noOpen, noStart]

theorem followIdle_of_rolling (noStop : a.stop = none) : followIdle p a s = followRolling a.identity s := by
  rw [followIdle, noStop]

theorem followIdle_of_post {stop : Nat} (stopped : a.stop = some stop) (origin : a.identity.origin = p.val) :
    followIdle p a s = lateJoin a.identity stop s := by
  rw [followIdle, stopped]
  exact if_pos origin

end

/-! ### Starts from an announcement (R112, R113) -/

section

variable {s : State} {x : Identity}

/-- The pending start of an announced identity. -/
def announcedPending (x : Identity) (reached : Bool) : PendingStart :=
  { label := x.label, origin := x.origin, start := x.start, source := .peer, reached := reached }

/-- A pending start that is not Reached, or finds no EMPTY slot, waits (R60). -/
theorem promote_of_waiting (v : RingView) {q : PendingStart} (start : s.takes.pendingStart = some q)
    (waits : q.reached = false ∨ emptySlot s = none) : promote v s = s := by
  rw [promote, start]
  refine if_neg ?_
  rcases waits with unreached | occupied
  · simp [unreached]
  · simp [occupied]

theorem pendAnnounced_of_unreached (x : Identity) (s : State) :
    pendAnnounced x false s = makePending (announcedPending x false) s :=
  promote_of_waiting .afterFrame (q := announcedPending x false) rfl (.inl rfl)

theorem followRolling_of_full (full : cardFull s = true) : followRolling x s = raise .startRefused s := if_pos full

theorem followRolling_of_later (room : cardFull s = false) (later : isLater s.day x.start s.counter.newest = true) :
    followRolling x s = makePending (announcedPending x false) s := by
  rw [followRolling, room, if_neg Bool.false_ne_true, if_pos later, pendAnnounced_of_unreached]

theorem followRolling_of_arrived {i : Fin 3} (room : cardFull s = false)
    (arrived : isLater s.day x.start s.counter.newest = false) (empty : emptySlot s = some i) :
    followRolling x s = startSlot .afterFrame x.label x.origin x.start { follower := true } s := by
  rw [followRolling, room, if_neg Bool.false_ne_true, arrived, if_neg Bool.false_ne_true, empty]
  exact if_pos rfl

theorem lateJoin_of_full {stop : Nat} (full : cardFull s = true) : lateJoin x stop s = raise .startRefused s := if_pos full

theorem lateJoin_of_arrived {i : Fin 3} {stop : Nat} (room : cardFull s = false)
    (arrived : isLater s.day x.start s.counter.newest = false) (empty : emptySlot s = some i) :
    lateJoin x stop s =
      applyStop i stop (startSlot .afterFrame x.label x.origin x.start { follower := true, lateJoin := true } s) := by
  rw [lateJoin, room, if_neg Bool.false_ne_true, arrived, if_neg Bool.false_ne_true, empty]

theorem emptySlot_of_all_empty (empty : ∀ i : Fin 3, s.takes.slots[i] = none) : emptySlot s = some 0 := by
  have first : s.takes.slots[0] = none := empty 0
  rw [emptySlot, findSlot, first]
  exact if_pos rfl

theorem openSlot_of_all_empty (empty : ∀ i : Fin 3, s.takes.slots[i] = none) : openSlot s = none :=
  (openSlot_eq_none_iff s).mpr fun i => by rw [empty i]; rfl

end

/-! ### Stops and cuts from an announcement (R114 to R116) -/

section

variable {s : State} {i : Fin 3} {u : Take}

/-- A stop at a position that has arrived, its post-roll not yet over, makes the take POST (R68). -/
theorem stopTake_of_within {e : Nat} (arrived : isLater s.day e s.counter.newest = false)
    (within : countAfter s.day e s.counter.newest < s.takes.postRoll) :
    stopTake i u e s =
      setSlot i (some { u with e := some e, phase := .post, postRoll := countAfter s.day e s.counter.newest }) s := by
  rw [stopTake]
  dsimp only
  rw [arrived, if_neg Bool.false_ne_true, if_pos within]

theorem sameTake_of_stop {p : Fin 8} {a : Announced} {e : Nat} (stopped : a.stop = some e)
    (origin : a.identity.origin = p.val) : sameTake p a i s = applyStop i e s := by
  rw [sameTake, stopped]
  exact if_pos origin

/-- The own identity without a stop from its origin, or announced of a take that is in POST, moves nothing (R114). -/
theorem sameTake_of_no_stop {p : Fin 8} {a : Announced} (holds : s.takes.slots[i] = some u)
    (noStop : a.stop = none ∨ a.identity.origin ≠ p.val ∨ u.phase = .post) : sameTake p a i s = s := by
  rcases noStop with unannounced | other | post
  · rw [sameTake, unannounced]
  · rw [sameTake]
    split
    · exact if_neg other
    · rfl
  · have stands (e : Nat) : applyStop i e s = s := by
      simp only [applyStop, holds, post, reduceCtorEq, if_false]
    simp only [sameTake, stands, ite_self]
    split <;> rfl

theorem depart_eq (holds : s.takes.slots[i] = some u) (rolling : u.phase = .rolling) :
    depart i s = stopTake i u s.counter.newest s :=
  applyStop_of_rolling holds rolling _

theorem depart_slot (holds : s.takes.slots[i] = some u) (rolling : u.phase = .rolling) :
    (depart i s).takes.slots[i] = some (stoppedHere s.counter.newest s.takes.postRoll u) := by
  rw [depart_eq holds rolling, stopTake_slot]

theorem cutPostRoll_of_post (holds : s.takes.slots[i] = some u) (post : u.phase = .post) (c : Nat) :
    ∃ z n, cutPostRoll i c s = closeSlot i { u with z := some z, postRoll := n } s := by
  simp only [cutPostRoll, holds, post, if_true]
  exact ⟨_, _, rfl⟩

/-- A cut within the post-roll closes the take there, or at the newest position when that is later (R71). -/
theorem cutPostRoll_within (holds : s.takes.slots[i] = some u) (post : u.phase = .post) {stop c : Nat}
    (stopped : u.e = some stop) (afterStop : isEarlier s.day c stop = false)
    (within : isLater s.day c (posAdd s.day stop s.takes.postRoll) = false) :
    cutPostRoll i c s =
      closeSlot i
        { u with
          z := some (laterOf s.day c s.counter.newest)
          postRoll := countAfter s.day stop (laterOf s.day c s.counter.newest) } s := by
  simp only [cutPostRoll, holds, post, stopped, if_true, Option.getD_some, afterStop, within, Bool.false_eq_true, if_false]

theorem cutPostRoll_of_not_post (holds : s.takes.slots[i] = some u) (ended : u.phase ≠ .post) (c : Nat) :
    cutPostRoll i c s = s := by
  simp only [cutPostRoll, holds, if_neg ended]

end

/-! ### Merges (R117, R118) -/

section

variable {s : State} {outstanding : Bool} {x : Identity} {u : Take}

/-- The take u under the identity x, with its own head (R117). -/
def relabelled (x : Identity) (u : Take) : Take :=
  { u with
    former := formerAfter u.label x.label u.former, label := x.label, origin := x.origin
    flags := { u.flags with merged := true, follower := true } }

theorem mergeTake_of_not_earlier (notEarlier : isEarlier s.day x.start u.sr = false) :
    mergeTake s outstanding x u = relabelled x u :=
  if_neg (Bool.eq_false_iff.mp notEarlier)

theorem mergeTake_of_earlier (earlier : isEarlier s.day x.start u.sr = true) :
    mergeTake s outstanding x u = extendHead s outstanding x.start (relabelled x u) :=
  if_pos earlier

/-- The positions that a merge adds at the head are served from a held position, or are head shortfall (R118). -/
theorem extendHead_of_served {p o : Nat} (served : servedFrom s outstanding p u = some o) :
    extendHead s outstanding p u = { u with sr := p, h := countAfter s.day p o, next := o } := by
  rw [extendHead, served]

theorem extendHead_of_unserved {p : Nat} (unserved : servedFrom s outstanding p u = none) :
    extendHead s outstanding p u = { u with sr := p, h := u.h + countAfter s.day p u.sr } := by
  rw [extendHead, unserved]

theorem servedFrom_of_begun (p : Nat) (begun : 0 < u.h ∨ 0 < u.w ∨ 0 < u.g ∨ outstanding = true) :
    servedFrom s outstanding p u = none := by
  refine if_neg fun ⟨h, w, g, idle⟩ => ?_
  rcases begun with h' | w' | g' | busy
  · omega
  · omega
  · omega
  · exact Bool.false_ne_true (idle.symm.trans busy)

section

variable {p : Nat} (h : u.h = 0) (w : u.w = 0) (g : u.g = 0)

include h w g

theorem servedFrom_of_held {o : Nat} (held : lookup .afterFrame s p = .held o) (notLater : isLater s.day o u.sr = false) :
    servedFrom s false p u = some o := by
  rw [servedFrom, if_pos ⟨h, w, g, rfl⟩, held]
  exact if_neg (Bool.eq_false_iff.mp notLater)

theorem servedFrom_of_unheld (unheld : ∀ o, lookup .afterFrame s p = .held o → isLater s.day o u.sr = true) :
    servedFrom s false p u = none := by
  rw [servedFrom, if_pos ⟨h, w, g, rfl⟩]
  split
  · exact if_pos (unheld _ ‹_›)
  · rfl

end

/-- A merge into an earlier start moves the requested start to it. The positions added are served from the first held one of them
while nothing of the take is accounted or outstanding, and are head shortfall otherwise (R118). -/
theorem mergeTake_of_earlier_head (outstanding : Bool) (earlier : isEarlier s.day x.start u.sr = true) :
    ∃ h next, mergeTake s outstanding x u = { relabelled x u with sr := x.start, h := h, next := next } ∧
      (0 < u.h ∨ 0 < u.w ∨ 0 < u.g ∨ outstanding = true → h = u.h + countAfter s.day x.start u.sr) ∧
      (u.h = 0 → u.w = 0 → u.g = 0 → outstanding = false →
        (∀ o, lookup .afterFrame s x.start = .held o → isLater s.day o u.sr = false →
          h = countAfter s.day x.start o ∧ next = o) ∧
        ((∀ o, lookup .afterFrame s x.start = .held o → isLater s.day o u.sr = true) →
          h = countAfter s.day x.start u.sr)) := by
  rw [mergeTake_of_earlier earlier]
  cases served : servedFrom s outstanding x.start (relabelled x u) with
  | some o =>
    refine ⟨_, _, extendHead_of_served served, fun begun => ?_, fun h w g idle =>
      ⟨fun first held notLater => ?_, fun unheld => ?_⟩⟩
    · cases served.symm.trans (servedFrom_of_begun (u := relabelled x u) _ begun)
    · subst idle
      cases served.symm.trans (servedFrom_of_held (u := relabelled x u) h w g held notLater)
      exact ⟨rfl, rfl⟩
    · subst idle
      cases served.symm.trans (servedFrom_of_unheld (u := relabelled x u) h w g unheld)
  | none =>
    refine ⟨_, _, extendHead_of_unserved served, fun _ => rfl, fun h w g idle =>
      ⟨fun first held notLater => ?_, fun _ => ?_⟩⟩
    · subst idle
      cases served.symm.trans (servedFrom_of_held (u := relabelled x u) h w g held notLater)
    · exact (congrArg (· + countAfter s.day x.start u.sr) h).trans (Nat.zero_add _)

theorem formerAfter_nil (old new : Label) : formerAfter old new [] = if old = new then [] else [old] := by
  by_cases same : old = new
  · rw [formerAfter, if_pos (.inl same), if_pos same]
  · rw [formerAfter, if_neg (by simpa using same), if_neg same]
    rfl

/-- The take that a merge leaves in its slot, its origin lost when that is an ABSENT peer (R117, R121). -/
theorem mergeInto_slot (x : Identity) (i : Fin 3) (u : Take) (s : State) :
    let w := mergeTake s (audioOutstanding s i) x u
    (mergeInto x i u s).takes.slots[i] =
      some { w with flags := { w.flags with originLost := w.flags.originLost || peerIsAbsent s x.origin } } := by
  have merged := (setSlot_slots i i (some (mergeTake s (audioOutstanding s i) x u)) s).trans (if_pos rfl)
  unfold mergeInto
  dsimp only
  cases absent : peerIsAbsent s x.origin with
  | false =>
    rw [Bool.or_false]
    exact merged
  | true =>
    rw [Bool.or_true]
    refine (modifySlot_slots i i _ _).trans ((if_pos rfl).trans ?_)
    exact congrArg (Option.map _) merged

theorem isPending_merged_mergeInto (x : Identity) (i : Fin 3) (u : Take) (s : State) :
    isPending .merged (mergeInto x i u s) = true := by
  unfold mergeInto
  dsimp only
  split
  · rw [markOriginLost, isPending_raise, isPending]
    simp only [modifySlot_frame]
    rw [← isPending, isPending_raise_self, Bool.true_or]
  · exact isPending_raise_self .merged _

end

/-! ### An announcement against the pending start (R119) -/

section

variable {s : State} {a : Announced} {q : PendingStart}

theorem meetPending_of_same (same : a.identity = q.identity) : meetPending a q s = s := if_pos same

theorem meetPending_of_later (earlier : isEarlier s.day q.start a.identity.start = true) : meetPending a q s = s := by
  have other : a.identity ≠ q.identity := fun same =>
    ne_of_isEarlier (day_pos s) earlier (congrArg Identity.start same).symm
  have behind : precedes s.day a.identity q.identity = false := not_precedes_of_isEarlier (day_pos s) earlier
  rw [meetPending, if_neg other, behind]
  exact if_neg Bool.false_ne_true

theorem meetPending_of_earlier (earlier : isEarlier s.day a.identity.start q.start = true) :
    meetPending a q s =
      promote .afterFrame
        (raise .merged
          (makePending (announcedPending a.identity (!isLater s.day a.identity.start s.counter.newest)) s)) := by
  have other : a.identity ≠ q.identity := fun same =>
    ne_of_isEarlier (day_pos s) earlier (congrArg Identity.start same)
  have before : precedes s.day a.identity q.identity = true := precedes_of_isEarlier (day_pos s) earlier
  rw [meetPending, if_neg other, if_pos before]
  rfl

end

/-! ### The state in which a STATUS is taken up, and the end of its event (R97, R98, R107) -/

/-- s with this time, link and notices: all that changes before the take engine takes up a STATUS. -/
def withEntry (time : Nat) (link : Link) (notices : NoticeUnit) (s : State) : State :=
  { s with time := time, link := link, notices := notices }

/-- The end of the event of a STATUS, from the state that the take engine left: the note store's request leaves this link. -/
def statusEnd (before : State) (l : Link) (s : State) : State := finish before { s with link := l }

/-- The state in which the STATUS f of the peer p is taken up. -/
def statusMet (p : Fin 8) (f : HeardFrame) (s : State) : State :=
  applyStatus p (readStatusPayload f.payload) (arrivalPosition s) (peerHeard p (restedLine (hearFrame 1#8 f s)))

section

variable (p : Fin 8) (f : HeardFrame) (s : State)

theorem raiseIf_eq (c : Bool) (k : Notice) (s : State) :
    raiseIf c k s = { s with notices := (raiseIf c k s).notices } := by
  cases c <;> rfl

theorem statusMet_eq :
    statusMet p f s = withEntry (statusMet p f s).time (statusMet p f s).link (statusMet p f s).notices s := by
  have heard : ∃ link notices, peerHeard p (restedLine (hearFrame 1#8 f s)) =
      withEntry (restedLine (hearFrame 1#8 f s)).time link notices s := by
    unfold peerHeard
    dsimp only
    rw [raiseIf_eq]
    exact ⟨_, _, rfl⟩
  obtain ⟨link, notices, heard⟩ := heard
  rw [statusMet, heard, applyStatus_eq, raiseIf_eq]
  rfl

theorem statusMet_entry :
    (statusMet p f s).link.peers[p].present = true ∧
      (statusMet p f s).link.peers[p].compat =
        some (judgeClock s (readStatusPayload f.payload) (arrivalPosition s)).1 := by
  rw [statusMet, applyStatus_eq, raiseIf_link, setPeer_peers, if_pos rfl, statusEntry, judgeClock_heard, peerHeard_peers,
    if_pos rfl]
  exact ⟨rfl, rfl⟩

theorem isPending_statusMet {k : Notice} (own : k ∈ takeNotices) : isPending k (statusMet p f s) = isPending k s := by
  have change : k ≠ .peerChange := by rintro rfl; exact absurd own (by decide)
  have mismatch : k ≠ .peerMismatch := by rintro rfl; exact absurd own (by decide)
  rw [statusMet, isPending_applyStatus, isPending_peerHeard, decide_eq_false change, decide_eq_false mismatch, Bool.and_false,
    Bool.and_false, Bool.or_false, Bool.or_false]
  rfl

/-- A peer is followed while its clock agrees within the tolerance and it stands in the follow mask (R103, R107). -/
theorem followed_statusMet :
    followed (statusMet p f s) p = true ↔
      ((readStatusPayload f.payload).rateCode = s.counter.sampleRate.code ∧
        (readStatusPayload f.payload).tcCode = s.counter.tcRate.code) ∧
      (signedDiff s.day (arrivalPosition s) (readStatusPayload f.payload).pos).natAbs ≤ s.link.tolerance ∧
      s.takes.followMask[p] = true := by
  obtain ⟨present, compat⟩ := statusMet_entry p f s
  have mask : (statusMet p f s).takes.followMask.getLsbD p.val = s.takes.followMask[p] := by rw [statusMet_eq]; rfl
  rw [followed, present, compat, mask, Bool.true_and, Bool.and_eq_true, beq_iff_eq]
  by_cases rates : (readStatusPayload f.payload).rateCode = s.counter.sampleRate.code ∧
      (readStatusPayload f.payload).tcCode = s.counter.tcRate.code
  · rw [judgeClock_of_same_rates _ rates]
    by_cases far : s.link.tolerance <
        (signedDiff s.day (arrivalPosition s) (readStatusPayload f.payload).pos).natAbs
    · simp [far, Nat.not_le.mpr far]
    · simp [far, Nat.not_lt.mp far, rates]
  · rw [judgeClock_of_other_rates _ rates]
    simp [rates]

end

/-- The note store's request at a STATUS leaves all but the link. -/
theorem testCatchUp_eq (p : Fin 8) (highWater : Nat) (s : State) :
    testCatchUp p highWater s = { s with link := (testCatchUp p highWater s).link } := by
  obtain ⟨time, port, notices, counter, front, mixer, ring, takes, store, writer, orders, pending⟩ :=
    testCatchUp_frame p highWater s
  generalize testCatchUp p highWater s = t at *
  cases t
  subst time port notices counter front mixer ring takes store writer orders pending
  rfl

section

variable {s : State} {f : HeardFrame} {p : Fin 8}

theorem exec_statusFrame_of_hears (hears : HearsStatus s f p) :
    ∃ l, exec (.statusFrame f) s =
      .next (statusEnd (hearFrame 1#8 f s) l
        (if followed (statusMet p f s) p then takeAnnouncement p (readStatusPayload f.payload) (statusMet p f s)
          else statusMet p f s)) := by
  have ended := endReception_of_status hears.heard hears.other hears.sender hears.peer hears.length hears.check
  have row := exec_frame_heard (x := (1#8, .statusFrame f)) (List.mem_cons_self ..) hears.heard ended
  rw [statusTaken, takeStatus, testCatchUp_eq] at row
  exact ⟨_, row⟩

/-- A STATUS of a peer, from its frame to the end of its event (R97, R98, R107). -/
theorem exec_statusFrame_taken (hears : HearsStatus s f p) :
    ∃ before l time link notices, exec (.statusFrame f) s =
        .next (statusEnd before l
          (if followed (withEntry time link notices s) p then
            takeAnnouncement p (readStatusPayload f.payload) (withEntry time link notices s)
          else withEntry time link notices s)) ∧
      (followed (withEntry time link notices s) p = true ↔
        ((readStatusPayload f.payload).rateCode = s.counter.sampleRate.code ∧
          (readStatusPayload f.payload).tcCode = s.counter.tcRate.code) ∧
        (signedDiff s.day (arrivalPosition s) (readStatusPayload f.payload).pos).natAbs ≤ s.link.tolerance ∧
        s.takes.followMask[p] = true) := by
  obtain ⟨l, row⟩ := exec_statusFrame_of_hears hears
  refine ⟨hearFrame 1#8 f s, l, (statusMet p f s).time, (statusMet p f s).link, (statusMet p f s).notices, ?_⟩
  rw [← statusMet_eq]
  exact ⟨row, followed_statusMet p f s⟩

/-- A STATUS of a followed peer goes to the take engine in s with its sender PRESENT and no notice of the engine's own
(R101, R107). -/
theorem exec_statusFrame_of_followed (hears : HearsFollowed s f p) :
    ∃ before l time link notices, exec (.statusFrame f) s =
        .next (statusEnd before l
          (takeAnnouncement p (readStatusPayload f.payload) (withEntry time link notices s))) ∧
      link.peers[p].present = true ∧
      ∀ k ∈ takeNotices, isPending k (withEntry time link notices s) = isPending k s := by
  obtain ⟨l, row⟩ := exec_statusFrame_of_hears hears.toHearsStatus
  have follows := (followed_statusMet p f s).mpr ⟨⟨hears.rate, hears.tcRate⟩, hears.near, hears.mask⟩
  rw [if_pos follows] at row
  refine ⟨hearFrame 1#8 f s, l, (statusMet p f s).time, (statusMet p f s).link, (statusMet p f s).notices, ?_⟩
  rw [← statusMet_eq]
  exact ⟨row, (statusMet_entry p f s).1, fun k own => isPending_statusMet p f s own⟩

end

/-- A STATUS that the take engine leaves alone leaves the takes (R107, R111). -/
theorem takesStand_withEntry (before : State) (l : Link) (time : Nat) (link : Link) (notices : NoticeUnit) (s : State) :
    TakesStand s (statusEnd before l (withEntry time link notices s)) := by
  have leaves : LeavesTakes s { withEntry time link notices s with link := l } := ⟨rfl, rfl, rfl⟩
  exact leaves.takesStand before

section

variable (before : State) (l : Link) {s : State}

theorem statusEnd_slotsAlone (s : State) : SlotsAlone s (statusEnd before l s) :=
  (slotsAlone_of_takes (t := { s with link := l }) rfl).trans (slotsAlone_finish before _)

theorem statusEnd_blocks (s : State) :
    (statusEnd before l s).port = s.port ∧ (statusEnd before l s).counter = s.counter ∧
      (statusEnd before l s).ring = s.ring := by
  obtain ⟨-, port, -, counter, -, -, ring, -⟩ := finish_frame before { s with link := l }
  exact ⟨port, counter, ring⟩

theorem isPending_statusEnd (k : Notice) (s : State) : isPending k (statusEnd before l s) = isPending k s :=
  isPending_of_notices (finish_notices before { s with link := l })

theorem statusEnd_slot {i : Fin 3} {u : Take} (holds : s.takes.slots[i] = some u) :
    ∃ v, (statusEnd before l s).takes.slots[i] = some v ∧ Accounts u v :=
  HoldsAccounted.finish before (holdsAccounted_of_eq (s := { s with link := l }) holds)

/-- An open take whose next frame is held or ahead ends the event as it was, on a card that is not FULL (R160). -/
theorem statusEnd_slot_of_heldOrAhead {i : Fin 3} {u : Take} (holds : s.takes.slots[i] = some u)
    (answer : HeldOrAhead s u.next) (room : cardFull s = false) (isOpenTake : u.phase ≠ .closing) :
    (statusEnd before l s).takes.slots[i] = some u :=
  finish_slot_of_heldOrAhead (after := { s with link := l }) holds answer room isOpenTake

theorem statusEnd_empty {i : Fin 3} (empty : s.takes.slots[i] = none) : (statusEnd before l s).takes.slots[i] = none :=
  (revises_finish before { s with link := l }).empty empty

/-- The end of the event over a take and its index record (R164). -/
theorem statusEnd_record {after : State} {i : Fin 3} {u w : Take} (holds : after.takes.slots[i] = some w)
    (mark : w.indexIssued = u.indexIssued) (writer : after.writer = s.writer) (day : after.day = s.day) :
    ∃ v, (statusEnd before l after).takes.slots[i] = some v ∧ Accounts w v ∧
      RecordDecided s (statusEnd before l after) i u v :=
  finish_record (after := { after with link := l }) before holds mark writer day

/-- The next frame of a take that a merge serves from a held position is held (R118, R160). -/
theorem statusEnd_mergeInto_of_served {x : Identity} {i : Fin 3} {u w : Take} (room : cardFull s = false)
    (held : lookup .afterFrame s x.start = .held w.next) (merged : (mergeInto x i u s).takes.slots[i] = some w)
    (rolling : w.phase = .rolling) : (statusEnd before l (mergeInto x i u s)).takes.slots[i] = some w := by
  obtain ⟨-, -, counter, -, -, ring, -, -, writer, -⟩ := mergeInto_frame x i u s
  have head : (headOf .afterFrame s x.start).2 = w.next := by rw [headOf, held]
  refine statusEnd_slot_of_heldOrAhead before l merged (heldOrAhead_congr ring counter ?_)
    ((cardFull_of_writer writer).trans room) (by rw [rolling]; decide)
  rw [← head]
  exact heldOrAhead_headOf s x.start

/-- A take that departs with a post-roll ends the event in POST (R68, R115). -/
theorem statusEnd_depart_slot {i : Fin 3} {u : Take} (holds : s.takes.slots[i] = some u) (rolling : u.phase = .rolling)
    (positive : 0 < s.takes.postRoll) :
    ∃ v, (statusEnd before l (depart i s)).takes.slots[i] = some v ∧ v.phase = .post ∧ v.e = some s.counter.newest ∧
      v.postRoll = 0 ∧ v.label = u.label ∧ v.origin = u.origin ∧ v.sr = u.sr ∧ v.flags = u.flags := by
  have stopped := depart_slot holds rolling
  rw [stoppedHere_of_postRoll positive] at stopped
  obtain ⟨v, slot, next, g, gaps, merged, issued, rfl⟩ := statusEnd_slot before l stopped
  exact ⟨_, slot, rfl, rfl, rfl, rfl, rfl, rfl, rfl⟩

end

end Sys2Proof.Proofs
end

section
/-! PROOFS. A STATUS that leaves the takes, and a followed one that starts, merges or stops a take (R107, R108, R111, R112, R114,
R117, R118). -/

namespace Sys2Proof.Proofs

open Sys2Proof Sys2Proof.Machine Sys2Proof.Safety

/-! ### Announcements that do not act (R107, R110, R111) -/

section

variable {s : State} {p : Fin 8} {x : StatusFields}

/-- No take is announced, and the origin of the open take is another: nothing departs (R115). -/
theorem takeAnnouncement_of_no_departure (noTake : x.phase = 0 ∨ x.phase = 1)
    (stays : ∀ (i : Fin 3) (u : Take), openSlot s = some i → s.takes.slots[i] = some u → u.phase = .rolling →
      u.origin ≠ p.val) : takeAnnouncement p x s = s := by
  rw [takeAnnouncement_of_no_take (announcedTake_eq_none (noTake.imp_right .inl)), departing_eq_none stays]
  rfl

variable {a : Announced} (announced : announcedTake s.day x = some a)

include announced

/-- The open take's own identity without a stop from its origin (R114). -/
theorem takeAnnouncement_of_held {u : Take} (isOpenTake : openTake s = some u) (same : a.identity = u.identity)
    (noStop : a.stop = none ∨ a.identity.origin ≠ p.val ∨ u.phase = .post) : takeAnnouncement p x s = s := by
  cases isOpenSlot : openSlot s with
  | none =>
    rw [openTake, isOpenSlot] at isOpenTake
    cases isOpenTake
  | some i =>
    have holds : s.takes.slots[i] = some u := by rwa [openTake, isOpenSlot] at isOpenTake
    refine takeAnnouncement_of_unmoved announced (fun j departs => ?_) ?_
    · cases isOpenSlot.symm.trans (departing_eq_some departs).1
      exact showsDeparture_of_same holds same
    · rw [meetAnnouncement_of_same isOpenSlot holds same, sameTake_of_no_stop holds noStop]

/-- The pending start's own identity (R119). -/
theorem takeAnnouncement_of_waiting {q : PendingStart} (noOpen : openSlot s = none)
    (start : s.takes.pendingStart = some q) (same : a.identity = q.identity) : takeAnnouncement p x s = s := by
  refine takeAnnouncement_of_unmoved announced (fun j departs => ?_) ?_
  · cases noOpen.symm.trans (departing_eq_some departs).1
  · rw [meetAnnouncement_of_pending noOpen start, meetPending_of_same same]

end

theorem isHeldIdentity_eq_false {s : State} {x : Identity} (notOpen : (openTake s).map Take.identity ≠ some x)
    (notPending : s.takes.pendingStart.map PendingStart.identity ≠ some x) : isHeldIdentity x s = false := by
  rw [isHeldIdentity, beq_eq_false_iff_ne.mpr notOpen, beq_eq_false_iff_ne.mpr notPending]
  rfl

/-! ### Followed announcements that act (R112, R114, R117, R118) -/

section

variable {s : State} {p : Fin 8} {x : StatusFields} {a : Identity} {i : Fin 3} {u : Take}

variable (unclosed : a ∉ s.takes.closed) (foreign : a.origin ≠ s.port.station.val)

include unclosed foreign

/-- In IDLE an announcement starts a take, waits or is refused (R111). -/
theorem takeAnnouncement_of_idle {stop : Option Nat}
    (announced : announcedTake s.day x = some { identity := a, stop := stop })
    (empty : ∀ i : Fin 3, s.takes.slots[i] = none) (noStart : s.takes.pendingStart = none) :
    takeAnnouncement p x s = followIdle p { identity := a, stop := stop } s :=
  (takeAnnouncement_meets_of_no_openSlot announced unclosed foreign (openSlot_of_all_empty empty)).trans
    (meetAnnouncement_of_idle (openSlot_of_all_empty empty) noStart)

/-- A stop announced by the origin of the open take applies to it (R114). -/
theorem takeAnnouncement_of_origin_stop {stop : Nat}
    (announced : announcedTake s.day x = some { identity := a, stop := some stop }) (isOpenSlot : openSlot s = some i)
    (holds : s.takes.slots[i] = some u) (rolling : u.phase = .rolling) (same : a = u.identity) (origin : u.origin = p.val) :
    takeAnnouncement p x s = stopTake i u stop s := by
  have own : a.origin = p.val := (congrArg Identity.origin same).trans origin
  rw [takeAnnouncement_meets announced unclosed foreign, meetAnnouncement_of_same isOpenSlot holds same,
    sameTake_of_stop rfl own, applyStop_of_rolling holds rolling]
  intro j departs
  cases isOpenSlot.symm.trans (departing_eq_some departs).1
  exact showsDeparture_of_same holds same

variable (announced : announcedTake s.day x = some { identity := a, stop := none }) (isOpenSlot : openSlot s = some i)
  (holds : s.takes.slots[i] = some u) (rolling : u.phase = .rolling) (other : u.origin ≠ p.val)

include announced isOpenSlot holds rolling other

/-- A ROLLING announcement of an identity that precedes the open take's merges the take into it (R117). -/
theorem takeAnnouncement_of_precedes (differs : a ≠ u.identity) (precedes : precedes s.day a u.identity = true) :
    takeAnnouncement p x s = mergeInto a i u s :=
  (takeAnnouncement_meets_of_staying announced unclosed foreign isOpenSlot holds fun _ => other).trans
    (meetAnnouncement_of_precedes isOpenSlot holds rolling rfl precedes differs)

theorem takeAnnouncement_of_earlier (earlier : isEarlier s.day a.start u.sr = true) :
    takeAnnouncement p x s = mergeInto a i u s :=
  takeAnnouncement_of_precedes unclosed foreign announced isOpenSlot holds rolling other
    (fun same => ne_of_isEarlier (day_pos s) earlier (congrArg Identity.start same))
    (precedes_of_isEarlier (day_pos s) (b := u.identity) earlier)

theorem takeAnnouncement_of_later (earlier : isEarlier s.day u.sr a.start = true) : takeAnnouncement p x s = s :=
  (takeAnnouncement_meets_of_staying announced unclosed foreign isOpenSlot holds fun _ => other).trans
    (meetAnnouncement_of_later isOpenSlot holds rolling earlier)

end

/-- Settles O49: the announcement's way through the rules, and the end of the event over what it makes of the takes. It is taken
up in a state m that is s but for time, link and notices, so that what the statement says of s holds of m by definition. -/
theorem followedAnnouncementsAct : Obligations.FollowedAnnouncementsAct := by
  unfold Obligations.FollowedAnnouncementsAct
  refine ⟨fun s f p hears => ?stands, fun s f p hears => ?acts⟩
  case stands =>
    intro x a
    obtain ⟨before, l, time, link, notices, row, follows⟩ := exec_statusFrame_taken hears
    set m := withEntry time link notices s
    have stands (unmoved : followed m p = true → takeAnnouncement p x m = m) :
        TakesStand s (statusEnd before l (if followed m p then takeAnnouncement p x m else m)) := by
      rw [ite_eq_right_iff.mpr unmoved]
      exact takesStand_withEntry before l time link notices s
    refine ⟨_, row, fun unfollowed => stands fun followed => ?unfollowed,
      fun noTake stays => stands fun _ => takeAnnouncement_of_no_departure noTake stays, fun phase least most => ?take⟩
    case unfollowed =>
      obtain ⟨⟨rate, tcRate⟩, near, mask⟩ := follows.mp followed
      rcases unfollowed with unmasked | otherRate | otherTc | far
      · exact absurd (mask.symm.trans unmasked) (by decide)
      · exact absurd rate otherRate
      · exact absurd tcRate otherTc
      · exact absurd near far.not_ge
    case take =>
      obtain ⟨b, announced, identity, noStop⟩ := announcedTake_of_take (s := m) phase least most
      have same : b.identity = a := identity
      refine ⟨fun closed => stands fun _ => takeAnnouncement_of_closed announced (same ▸ closed),
        fun own notOpen notPending => stands fun _ => takeAnnouncement_of_unheld announced (same ▸ own)
          (isHeldIdentity_eq_false (same ▸ notOpen) (same ▸ notPending)),
        fun u isOpenTake held noStopHere => stands fun _ =>
          takeAnnouncement_of_held announced isOpenTake (same.trans held) ?_,
        fun q noOpen start held => stands fun _ =>
          takeAnnouncement_of_waiting announced noOpen start (same.trans held)⟩
      have origin : b.identity.origin = u.origin := congrArg Identity.origin (same.trans held)
      rw [origin]
      exact noStopHere.imp_left noStop
  case acts =>
    intro x a least most unclosed foreign
    obtain ⟨before, l, time, link, notices, row, -, -⟩ := exec_statusFrame_of_followed hears
    set m := withEntry time link notices s
    obtain ⟨port, counter, ring⟩ := statusEnd_blocks before l (takeAnnouncement p x m)
    obtain ⟨-, portTaken, counterTaken, -, -, ringTaken, -⟩ := takeAnnouncement_frame p x m
    refine ⟨_, row, port.trans portTaken, counter.trans counterTaken, ring.trans ringTaken, ?idle,
      fun i u isOpenSlot holds rolling => ⟨?earlier, ?later, ?stop⟩⟩
    case idle =>
      intro phase empty noStart
      have taken : takeAnnouncement p x m = followRolling a m :=
        (takeAnnouncement_of_idle (s := m) unclosed foreign (announcedTake_of_rolling phase least most) empty noStart).trans
          (followIdle_of_rolling rfl)
      rw [taken]
      refine ⟨fun full => ?_, fun room later => ?_, fun room arrived => ?_⟩
      · rw [followRolling_of_full (s := m) full]
        exact ⟨fun i => statusEnd_empty before l (empty i), (statusEnd_slotsAlone before l _).pendingStart.trans noStart,
          (isPending_statusEnd before l _ _).trans (isPending_raise_self _ _)⟩
      · rw [followRolling_of_later (s := m) room later]
        exact ⟨fun i => statusEnd_empty before l (empty i), (statusEnd_slotsAlone before l _).pendingStart⟩
      · have free := emptySlot_of_all_empty (s := m) empty
        rw [followRolling_of_arrived (s := m) room arrived free]
        have counts := startSlot_counts free .afterFrame a.label a.origin a.start { follower := true }
        have engine := statusEnd_slotsAlone before l (startSlot .afterFrame a.label a.origin a.start { follower := true } m)
        obtain ⟨v, slot, next, g, gaps, merged, issued, rfl⟩ :=
          statusEnd_slot before l (startSlot_slot free .afterFrame a.label a.origin a.start { follower := true })
        exact ⟨_, slot, rfl, rfl, rfl, rfl, rfl, rfl, rfl, rfl, engine.pendingStart.trans (counts.pendingStart.trans noStart),
          engine.scene.trans counts.scene, engine.nextTake.trans counts.nextTake,
          (isPending_statusEnd before l _ _).trans (isPending_takeStarted_startSlot free _ _ _ _ _)⟩
    case earlier =>
      intro phase other earlier
      have taken : takeAnnouncement p x m = mergeInto a i u m :=
        takeAnnouncement_of_earlier (s := m) unclosed foreign (announcedTake_of_rolling phase least most) isOpenSlot holds
          rolling other earlier
      obtain ⟨h, next, merges, begun, untouched⟩ :=
        mergeTake_of_earlier_head (s := m) (x := a) (u := u) (audioOutstanding m i) earlier
      have merged := mergeInto_slot a i u m
      rw [merges] at merged
      rw [taken]
      obtain ⟨v, slot, next', g, gaps, gapsMerged, issued, rfl⟩ := statusEnd_slot before l merged
      refine ⟨_, slot, rolling, rfl, rfl, rfl, rfl, rfl, rfl, rfl,
        (isPending_statusEnd before l _ _).trans (isPending_merged_mergeInto _ _ _ _), fun noFormer => ?_, begun,
        fun h w g idle => ⟨fun o held notLater => ?_, (untouched h w g idle).2⟩⟩
      · exact (congrArg (formerAfter u.label a.label) noFormer).trans (formerAfter_nil _ _)
      · obtain ⟨count, at_o⟩ := (untouched h w g idle).1 o held notLater
        refine ⟨count, fun room => ?_⟩
        have stays := statusEnd_mergeInto_of_served (s := m) before l room (at_o ▸ held) merged rolling
        exact (congrArg Take.next (Option.some.inj (slot.symm.trans stays))).trans at_o
    case later =>
      intro phase other earlier
      have taken : takeAnnouncement p x m = m :=
        takeAnnouncement_of_later (s := m) unclosed foreign (announcedTake_of_rolling phase least most) isOpenSlot holds
          rolling other earlier
      rw [taken]
      obtain ⟨v, slot, next, g, gaps, merged, issued, rfl⟩ := statusEnd_slot (s := m) before l holds
      exact ⟨_, slot, rolling, rfl, rfl, rfl, rfl, rfl, rfl, rfl⟩
    case stop =>
      intro phase origin same arrived within
      have taken : takeAnnouncement p x m = stopTake i u (x.stop % s.day) m :=
        takeAnnouncement_of_origin_stop (s := m) unclosed foreign (announcedTake_of_post phase least most) isOpenSlot holds
          rolling same origin
      rw [taken, stopTake_of_within (s := m) arrived within]
      obtain ⟨v, slot, next, g, gaps, merged, issued, rfl⟩ :=
        statusEnd_slot before l ((setSlot_slots i i _ m).trans (if_pos rfl))
      exact ⟨_, slot, rfl, rfl, rfl, rfl, rfl⟩

end Sys2Proof.Proofs
end

section
/-! PROOFS. The other forms in which a followed STATUS acts: the late join, the departure of the origin, the new take in POST, the
pending start replaced, and the merge between equal starts (R109, R113, R115 to R117, R119, R164). -/

namespace Sys2Proof.Proofs

open Sys2Proof Sys2Proof.Machine Sys2Proof.Safety

/-! ### The late join (R113) -/

section

variable {s : State}

/-- The station that has just been heard is not ABSENT (R101, R121). -/
theorem peerIsAbsent_of_present {p : Fin 8} {origin : Nat} (station : origin = p.val)
    (present : s.link.peers[p].present = true) : peerIsAbsent s origin = false := by
  subst station
  have heard : s.link.peers[p.val].present = true := present
  rw [peerIsAbsent, dif_pos p.isLt, heard, Bool.not_true, Bool.and_false]

/-- A late join is started and, its stop not later than the newest position and its post-roll not over, in POST at once. -/
theorem lateJoin_of_within {x : Identity} {stop : Nat} {i : Fin 3} (room : cardFull s = false)
    (arrived : isLater s.day x.start s.counter.newest = false) (empty : emptySlot s = some i)
    (stopArrived : isLater s.day stop s.counter.newest = false)
    (within : countAfter s.day stop s.counter.newest < s.takes.postRoll) (present : peerIsAbsent s x.origin = false) :
    lateJoin x stop s =
      setSlot i
        (some
          { freshTake .afterFrame x.label x.origin x.start { follower := true, lateJoin := true } s with
            e := some stop, phase := .post, postRoll := countAfter s.day stop s.counter.newest })
        (startSlot .afterFrame x.label x.origin x.start { follower := true, lateJoin := true } s) := by
  have started := startSlot_of_present empty .afterFrame x.label x.origin x.start { follower := true, lateJoin := true } present
  have holds : (startSlot .afterFrame x.label x.origin x.start { follower := true, lateJoin := true } s).takes.slots[i] =
      some (freshTake .afterFrame x.label x.origin x.start { follower := true, lateJoin := true } s) := by
    rw [started]
    exact (setSlot_slots i i _ _).trans (if_pos rfl)
  rw [lateJoin_of_arrived room arrived empty, applyStop_of_rolling holds rfl, started]
  exact stopTake_of_within (s := raise .takeStarted (setSlot i _ _)) stopArrived within

end

/-! ### The departure of the origin (R115) -/

section

variable {s : State} {p : Fin 8} {i : Fin 3} {u : Take}

theorem depart_frame (i : Fin 3) (s : State) :
    (depart i s).counter = s.counter ∧ (depart i s).writer = s.writer ∧ (depart i s).day = s.day := by
  simp only [depart, applyStop_frame, State.day, and_self]

theorem cutPostRoll_depart_frame (i : Fin 3) (c : Nat) (s : State) :
    (cutPostRoll i c (depart i s)).counter = s.counter ∧ (cutPostRoll i c (depart i s)).writer = s.writer ∧
      (cutPostRoll i c (depart i s)).day = s.day := by
  simp only [cutPostRoll_frame, depart, applyStop_frame, State.day, and_self]

theorem newTake_of_rolling (p : Fin 8) (a : Identity) (i : Fin 3) (s : State) :
    newTake p { identity := a, stop := none } i s = followRolling a (cutPostRoll i (posSub s.day a.start 1) s) :=
  followIdle_of_rolling rfl

variable {a : Identity}

theorem afterDeparture_of_arrived (stop : Option Nat) (arrived : isLater s.day a.start s.counter.newest = false) :
    afterDeparture p { identity := a, stop := stop } i (depart i s) = depart i s := by
  obtain ⟨counter, -, day⟩ := depart_frame i s
  rw [afterDeparture, day, counter, arrived]
  exact if_neg Bool.false_ne_true

theorem afterDeparture_of_later (stop : Option Nat) (later : isLater s.day a.start s.counter.newest = true) :
    afterDeparture p { identity := a, stop := stop } i (depart i s) =
      newTake p { identity := a, stop := stop } i (depart i s) := by
  obtain ⟨counter, -, day⟩ := depart_frame i s
  rw [afterDeparture, day, counter, if_pos later]

section

variable (holds : s.takes.slots[i] = some u) (rolling : u.phase = .rolling)

include holds rolling

/-- Behind a departure a later new take ends the stopped take's post-roll, where it has one (R115, R116). -/
theorem cutPostRoll_depart_slot (c : Nat) :
    ∃ v, (cutPostRoll i c (depart i s)).takes.slots[i] = some v ∧ v.phase = .closing ∧ v.e = some s.counter.newest ∧
      v.label = u.label ∧ v.sr = u.sr := by
  have stopped := depart_slot holds rolling
  rcases Nat.eq_zero_or_pos s.takes.postRoll with noPostRoll | positive
  · rw [noPostRoll, stoppedHere_of_none] at stopped
    rw [cutPostRoll_of_not_post stopped nofun]
    exact ⟨_, stopped, rfl, rfl, rfl, rfl⟩
  · rw [stoppedHere_of_postRoll positive] at stopped
    obtain ⟨z, n, cut⟩ := cutPostRoll_of_post stopped rfl c
    rw [cut]
    exact ⟨_, (closeSlot_slots i i _ _).trans (if_pos rfl), rfl, rfl, rfl, rfl⟩

/-- A stop at the newest position leaves serial and pending start (R68). -/
theorem depart_engine :
    (depart i s).takes.serial = s.takes.serial ∧ (depart i s).takes.pendingStart = s.takes.pendingStart := by
  rw [depart_eq holds rolling, stopTake_newest]
  split
  · exact ⟨rfl, rfl⟩
  · exact ⟨rfl, rfl⟩

end

variable {x : StatusFields} (isOpenSlot : openSlot s = some i) (holds : s.takes.slots[i] = some u)
  (rolling : u.phase = .rolling) (origin : u.origin = p.val) (peer : p ≠ s.port.station)

include isOpenSlot holds rolling origin peer

theorem takeAnnouncement_of_departure (noTake : x.phase = 0 ∨ x.phase = 1 ∨ x.number = 0) :
    takeAnnouncement p x s = depart i s := by
  rw [takeAnnouncement_of_no_take (announcedTake_eq_none noTake), departing_of_origin isOpenSlot holds rolling origin peer]
  rfl

variable (unclosed : a ∉ s.takes.closed) (foreign : a.origin ≠ s.port.station.val)
  (announced : announcedTake s.day x = some { identity := a, stop := none })
  (earlier : isEarlier s.day u.sr a.start = true)

include unclosed foreign announced earlier

theorem takeAnnouncement_of_later_departure :
    takeAnnouncement p x s = afterDeparture p { identity := a, stop := none } i (depart i s) :=
  takeAnnouncement_departs announced unclosed foreign (departing_of_origin isOpenSlot holds rolling origin peer) holds earlier

/-- A departing announcement that starts behind the stop waits as a pending start (R112, R115). -/
theorem takeAnnouncement_of_departure_ahead (room : cardFull s = false)
    (later : isLater s.day a.start s.counter.newest = true) :
    takeAnnouncement p x s =
      makePending (announcedPending a false) (cutPostRoll i (posSub (depart i s).day a.start 1) (depart i s)) := by
  obtain ⟨counter, writer, day⟩ := cutPostRoll_depart_frame i (posSub (depart i s).day a.start 1) s
  rw [takeAnnouncement_of_later_departure isOpenSlot holds rolling origin peer unclosed foreign announced earlier,
    afterDeparture_of_later none later, newTake_of_rolling]
  exact followRolling_of_later ((cardFull_of_writer writer).trans room) (by rw [day, counter]; exact later)

end

/-! ### A new take in POST (R116) -/

section

variable {s : State} {p : Fin 8} {i j : Fin 3} {u : Take} {x : StatusFields} {a : Identity} {last : Nat}

/-- A new take within the post-roll of the open one starts in another slot, behind the cut (R71, R112, R116). -/
theorem takeAnnouncement_of_new (unclosed : a ∉ s.takes.closed) (foreign : a.origin ≠ s.port.station.val)
    (announced : announcedTake s.day x = some { identity := a, stop := none }) (isOpenSlot : openSlot s = some i)
    (holds : s.takes.slots[i] = some u) (post : u.phase = .post) (stopped : u.e = some last)
    (later : isLater s.day a.start last = true)
    (within : isLater s.day (posSub s.day a.start 1) (posAdd s.day last s.takes.postRoll) = false)
    (other : a ≠ u.identity) (room : cardFull s = false) (arrived : isLater s.day a.start s.counter.newest = false)
    (empty : emptySlot s = some j) :
    ∃ n, takeAnnouncement p x s =
      startSlot .afterFrame a.label a.origin a.start { follower := true }
        (closeSlot i { u with z := some (laterOf s.day (posSub s.day a.start 1) s.counter.newest), postRoll := n } s) := by
  refine ⟨countAfter s.day last (laterOf s.day (posSub s.day a.start 1) s.counter.newest), ?_⟩
  rw [takeAnnouncement_meets_of_staying announced unclosed foreign isOpenSlot holds fun rolling =>
      absurd (post.symm.trans rolling) (by decide),
    meetAnnouncement_of_new (a := { identity := a, stop := none }) isOpenSlot holds other post stopped later, newTake_of_rolling,
    cutPostRoll_within holds post stopped (isEarlier_pred_of_isLater (day_pos s) later) within]
  generalize ({ u with z := _, postRoll := _ } : Take) = w
  exact followRolling_of_arrived (s := closeSlot i w s) room arrived ((emptySlot_closeSlot w holds).trans empty)

end

/-! ### The pending start replaced (R119) -/

section

variable {s : State} {p : Fin 8} {x : StatusFields} {a : Identity} {q : PendingStart} (unclosed : a ∉ s.takes.closed)
  (foreign : a.origin ≠ s.port.station.val)
  (announced : announcedTake s.day x = some { identity := a, stop := none }) (noOpen : openSlot s = none)
  (start : s.takes.pendingStart = some q)

include unclosed foreign announced noOpen start

theorem takeAnnouncement_of_pending :
    takeAnnouncement p x s = meetPending { identity := a, stop := none } q s :=
  (takeAnnouncement_meets_of_no_openSlot announced unclosed foreign noOpen).trans (meetAnnouncement_of_pending noOpen start)

theorem takeAnnouncement_of_later_pending (earlier : isEarlier s.day q.start a.start = true) : takeAnnouncement p x s = s :=
  (takeAnnouncement_of_pending unclosed foreign announced noOpen start).trans (meetPending_of_later earlier)

theorem takeAnnouncement_of_earlier_pending (earlier : isEarlier s.day a.start q.start = true) :
    takeAnnouncement p x s =
      promote .afterFrame
        (raise .merged (makePending (announcedPending a (!isLater s.day a.start s.counter.newest)) s)) :=
  (takeAnnouncement_of_pending unclosed foreign announced noOpen start).trans (meetPending_of_earlier earlier)

end

theorem isPending_merged_promote {v : RingView} {s : State} : isPending .merged (promote v (raise .merged s)) = true :=
  noticesGrow_promote (.refl (raise .merged s).notices) v .merged (isPending_raise_self .merged s)

/-- Settles O50: the way of the announcement by the open take's phase and origin, and the end of the event over what it makes of
the takes, from a state m that is s but for time, link and notices. -/
theorem otherAnnouncementsAct : Obligations.OtherAnnouncementsAct := by
  unfold Obligations.OtherAnnouncementsAct
  intro s f p hears x a e
  have peer := hears.peer
  obtain ⟨before, l, time, link, notices, row, present, quiet⟩ := exec_statusFrame_of_followed hears
  set m := withEntry time link notices s
  refine ⟨_, row, fun i u isOpenSlot holds rolling origin positive noTake => ?noTake, fun least most unclosed foreign =>
    ⟨fun phase origin empty noStart => ?lateJoin, fun i u phase isOpenSlot holds =>
      ⟨fun rolling origin positive earlier arrived => ?departs,
        fun rolling origin noPostRoll _ earlier arrived => ?departsClosing,
        fun rolling origin earlier room later => ?departsAhead,
        fun rolling other same lower => ?equal,
        fun last j post stopped later within other room arrived empty => ?new⟩,
      fun q phase noOpen start => ⟨fun later => ?pendingStays, fun earlier => ?pendingReplaced⟩⟩⟩
  case noTake =>
    rw [takeAnnouncement_of_departure (s := m) isOpenSlot holds rolling origin peer noTake]
    exact statusEnd_depart_slot (s := m) before l holds rolling positive
  case lateJoin =>
    have taken : takeAnnouncement p x m = lateJoin a e m :=
      (takeAnnouncement_of_idle (s := m) unclosed foreign (announcedTake_of_post phase least most) empty noStart).trans
        (followIdle_of_post rfl origin)
    rw [taken]
    refine ⟨fun full => ?_, fun room arrived stopArrived within => ?_⟩
    · rw [lateJoin_of_full (s := m) full]
      exact ⟨fun i => statusEnd_empty before l (empty i), (isPending_statusEnd before l _ _).trans (isPending_raise_self _ _)⟩
    · have free := emptySlot_of_all_empty (s := m) empty
      rw [lateJoin_of_within (s := m) room arrived free stopArrived within (peerIsAbsent_of_present origin present)]
      obtain ⟨v, slot, next, g, gaps, merged, issued, rfl⟩ :=
        statusEnd_slot before l ((setSlot_slots 0 0 _ _).trans (if_pos rfl))
      exact ⟨_, slot, rfl, rfl, rfl, rfl, rfl, rfl, rfl, rfl, rfl,
        (isPending_statusEnd before l _ _).trans (isPending_takeStarted_startSlot free _ _ _ _ _)⟩
  case departs =>
    rw [takeAnnouncement_of_later_departure (s := m) isOpenSlot holds rolling origin peer unclosed foreign
      (announcedTake_of_rolling phase least most) earlier, afterDeparture_of_arrived (s := m) _ arrived]
    obtain ⟨v, slot, post, stop, -, label, -, sr, -⟩ := statusEnd_depart_slot (s := m) before l holds rolling positive
    exact ⟨v, slot, post, stop, label, sr⟩
  case departsClosing =>
    rw [takeAnnouncement_of_later_departure (s := m) isOpenSlot holds rolling origin peer unclosed foreign
      (announcedTake_of_rolling phase least most) earlier, afterDeparture_of_arrived (s := m) _ arrived]
    obtain ⟨-, writer, day⟩ := depart_frame i m
    obtain ⟨serial, pendingStart⟩ := depart_engine (s := m) holds rolling
    have engine := statusEnd_slotsAlone before l (depart i m)
    have stopped := depart_slot (s := m) holds rolling
    rw [show m.takes.postRoll = 0 from noPostRoll, stoppedHere_of_none] at stopped
    obtain ⟨v, slot, ⟨next, g, gaps, merged, issued, rfl⟩, decided⟩ :=
      statusEnd_record (s := s) (u := u) before l stopped rfl writer day
    exact ⟨_, slot, rfl, rfl, rfl, rfl, rfl, decided, engine.serial.trans serial, engine.pendingStart.trans pendingStart⟩
  case departsAhead =>
    rw [takeAnnouncement_of_departure_ahead (s := m) isOpenSlot holds rolling origin peer unclosed foreign
      (announcedTake_of_rolling phase least most) earlier room later]
    obtain ⟨w, cut, closing, stop, label, sr⟩ :=
      cutPostRoll_depart_slot (s := m) holds rolling (posSub (depart i m).day a.start 1)
    have engine := statusEnd_slotsAlone before l
      (makePending (announcedPending a false) (cutPostRoll i (posSub (depart i m).day a.start 1) (depart i m)))
    obtain ⟨v, slot, next, g, gaps, merged, issued, rfl⟩ :=
      statusEnd_slot (s := makePending (announcedPending a false) _) before l cut
    exact ⟨_, slot, closing, stop, label, sr, engine.pendingStart⟩
  case equal =>
    have differs : a ≠ u.identity := fun same => lower.ne (congrArg Identity.origin same)
    have notEarlier : isEarlier m.day a.start u.sr = false := by rw [same]; exact isEarlier_self (day_pos m) u.sr
    rw [takeAnnouncement_of_precedes (s := m) unclosed foreign (announcedTake_of_rolling phase least most) isOpenSlot holds
      rolling other differs (precedes_of_origin m.day (b := u.identity) same lower)]
    have merged := mergeInto_slot a i u m
    rw [mergeTake_of_not_earlier notEarlier] at merged
    obtain ⟨v, slot, next, g, gaps, gapsMerged, issued, rfl⟩ := statusEnd_slot before l merged
    exact ⟨_, slot, rolling, rfl, rfl, rfl, rfl, rfl, rfl, rfl, rfl,
      (isPending_statusEnd before l _ _).trans (isPending_merged_mergeInto _ _ _ _)⟩
  case new =>
    obtain ⟨n, taken⟩ := takeAnnouncement_of_new (s := m) (p := p) unclosed foreign
      (announcedTake_of_rolling phase least most) isOpenSlot holds post stopped later within other room arrived empty
    rw [taken]
    generalize cut :
      ({ u with z := some (laterOf m.day (posSub m.day a.start 1) m.counter.newest), postRoll := n } : Take) = c
    have free : emptySlot (closeSlot i c m) = some j := (emptySlot_closeSlot (s := m) c holds).trans empty
    have counts := startSlot_counts free .afterFrame a.label a.origin a.start { follower := true }
    have closed : (closeSlot i c m).takes.slots[i] = some { c with phase := .closing } :=
      (closeSlot_slots i i c m).trans (if_pos rfl)
    have engine := statusEnd_slotsAlone before l
      (startSlot .afterFrame a.label a.origin a.start { follower := true } (closeSlot i c m))
    obtain ⟨v, slot, next, g, gaps, merged, issued, rfl⟩ := statusEnd_slot before l
      (startSlot_slot_of_some closed .afterFrame a.label a.origin a.start { follower := true })
    obtain ⟨w, slot', next', g', gaps', merged', issued', rfl⟩ := statusEnd_slot before l
      (startSlot_slot free .afterFrame a.label a.origin a.start { follower := true })
    subst cut
    exact ⟨_, _, slot, slot', rfl, stopped, rfl, rfl, rfl, engine.scene.trans counts.scene, rfl, rfl, rfl, rfl, rfl, rfl, rfl,
      (isPending_statusEnd before l _ _).trans (isPending_takeStarted_startSlot free _ _ _ _ _)⟩
  case pendingStays =>
    rw [takeAnnouncement_of_later_pending (s := m) unclosed foreign (announcedTake_of_rolling phase least most) noOpen start
      later]
    exact ⟨(statusEnd_slotsAlone before l m).pendingStart.trans start,
      (isPending_statusEnd before l _ m).trans (quiet .merged (by decide))⟩
  case pendingReplaced =>
    rw [takeAnnouncement_of_earlier_pending (s := m) unclosed foreign (announcedTake_of_rolling phase least most) noOpen start
      earlier]
    generalize replaced :
      raise .merged (makePending (announcedPending a (!isLater m.day a.start m.counter.newest)) m) = r
    have engine := statusEnd_slotsAlone before l (promote .afterFrame r)
    have waiting : r.takes.pendingStart = some (announcedPending a (!isLater s.day a.start s.counter.newest)) := by
      rw [← replaced]
      rfl
    refine ⟨(isPending_statusEnd before l _ _).trans ?_, fun waits => ?_, fun j empty arrived => ?_⟩
    · rw [← replaced]
      exact isPending_merged_promote
    · rw [engine.pendingStart, promote_of_waiting .afterFrame waiting, waiting]
      · rfl
      · refine waits.symm.imp (fun later => ?_) fun occupied => ?_
        · exact congrArg not later
        · rw [← replaced]
          exact occupied
    · have reached : (announcedPending a (!isLater s.day a.start s.counter.newest)).reached = true := congrArg not arrived
      have free : emptySlot r = some j := by rw [← replaced]; exact empty
      obtain ⟨v, slot, next, g, gaps, merged, issued, rfl⟩ := statusEnd_slot before l
        (promote_slot waiting reached free .afterFrame)
      exact ⟨_, slot, engine.pendingStart.trans (promote_engine waiting reached free _).1, rfl, rfl, rfl, rfl, rfl,
        (isPending_statusEnd before l _ _).trans (isPending_takeStarted_promote waiting reached free _)⟩

end Sys2Proof.Proofs
end

section
/-! PROOFS. The transmit queue within its limits: what requests, attempts and their ends make of the queued frames and of the owed
mark (R89, R92 to R94). -/

namespace Sys2Proof.Proofs

open Sys2Proof Sys2Proof.Machine Sys2Proof.Safety

/-! ### Queued frames (R93, R94) -/

/-- Queued frames within their limits: 8 frames, one STATUS, attempt counts of 0 to 2. -/
structure QueueHeld (l : List TxEntry) : Prop where
  bound : l.length ≤ Config.maxQueue
  oneStatus : l.countP isStatus ≤ 1
  attempts : ∀ x ∈ l, x.attempts < Config.maxAttempts

/-- A queue with room for no STATUS, which may be owed one. -/
def FullWithoutStatus (l : List TxEntry) : Prop := l.length = Config.maxQueue ∧ l.countP isStatus = 0

theorem queueSound_iff (s : State) :
    QueueSound s ↔ QueueHeld s.link.queue ∧
      (s.link.owed = true → statusBeingSent s = true ∨ FullWithoutStatus s.link.queue) :=
  ⟨fun sound => ⟨⟨sound.bound, sound.oneStatus, sound.attempts⟩, sound.owed⟩,
    fun ⟨held, owed⟩ => ⟨held.bound, held.oneStatus, held.attempts, owed⟩⟩

theorem queueHeld_of_sound {s : State} (sound : QueueSound s) : QueueHeld s.link.queue := ((queueSound_iff s).mp sound).1

theorem isStatus_iff (x : TxEntry) : isStatus x = true ↔ x.frame = .status := beq_iff_eq

theorem queueHeld_nil : QueueHeld [] := ⟨Nat.zero_le _, Nat.zero_le _, nofun⟩

theorem QueueHeld.tail {x : TxEntry} {rest : List TxEntry} (held : QueueHeld (x :: rest)) : QueueHeld rest where
  bound := Nat.le_of_succ_le held.bound
  oneStatus := (List.Sublist.countP_le (List.sublist_cons_self x rest)).trans held.oneStatus
  attempts := fun y member => held.attempts y (List.mem_cons_of_mem x member)

theorem QueueHeld.append {l : List TxEntry} (held : QueueHeld l) (room : l.length < Config.maxQueue) {f : TxFrame}
    (alone : f = .status → l.countP isStatus = 0) : QueueHeld (l ++ [{ frame := f, attempts := 0 }]) where
  bound := by
    rw [List.length_append]
    exact room
  oneStatus := by
    rw [List.countP_append, List.countP_singleton]
    split
    case isTrue status => rw [alone ((isStatus_iff _).mp status)]
    case isFalse => exact held.oneStatus
  attempts := by
    intro x member
    rcases List.mem_append.mp member with old | new
    · exact held.attempts x old
    · rw [List.mem_singleton.mp new]
      exact Nat.zero_lt_succ 2

/-- A STATUS asked for anew counts its attempts from 0 (R94). -/
theorem QueueHeld.restartStatus {l : List TxEntry} (held : QueueHeld l) :
    QueueHeld (l.map fun x => if x.frame = .status then { x with attempts := 0 } else x) where
  bound := by
    rw [List.length_map]
    exact held.bound
  oneStatus := by
    have same : isStatus ∘ (fun x : TxEntry => if x.frame = .status then { x with attempts := 0 } else x) = isStatus := by
      funext x
      simp only [Function.comp_apply]
      split <;> rfl
    rw [List.countP_map, same]
    exact held.oneStatus
  attempts := by
    intro x member
    obtain ⟨y, old, rfl⟩ := List.mem_map.mp member
    split
    · exact Nat.zero_lt_succ 2
    · exact held.attempts y old

theorem not_fullWithoutStatus_of_room {l : List TxEntry} (room : l.length < Config.maxQueue) : ¬FullWithoutStatus l :=
  fun full => Nat.ne_of_lt room full.1

theorem not_fullWithoutStatus_of_status {l : List TxEntry} (queued : ∃ x ∈ l, x.frame = .status) : ¬FullWithoutStatus l := by
  rintro ⟨-, none⟩
  obtain ⟨x, member, status⟩ := queued
  exact List.countP_eq_zero.mp none x member ((isStatus_iff x).mpr status)

theorem countP_isStatus_of_absent {l : List TxEntry} (absent : ¬∃ x ∈ l, x.frame = .status) : l.countP isStatus = 0 :=
  List.countP_eq_zero.mpr fun x member status => absent ⟨x, member, (isStatus_iff x).mp status⟩

/-! ### The queue and the owed mark together -/

/-- What leaves the queue and the owed mark, and ends no attempt, keeps the queue sound. -/
theorem queueSound_congr {s t : State} (sound : QueueSound s) (queue : t.link.queue = s.link.queue)
    (owed : t.link.owed = s.link.owed) (sending : s.link.tx = .send → t.link.tx = .send) : QueueSound t := by
  rw [queueSound_iff, queue, owed]
  refine ⟨queueHeld_of_sound sound, fun mark => (sound.owed mark).imp_left fun sent => ?_⟩
  obtain ⟨tx, head⟩ := (statusBeingSent_iff s).mp sent
  exact (statusBeingSent_iff t).mpr ⟨sending tx, queue ▸ head⟩

theorem queueSound_of_link {s t : State} (sound : QueueSound s) (link : t.link = s.link) : QueueSound t :=
  queueSound_congr sound (congrArg Link.queue link) (congrArg Link.owed link) fun sending => link ▸ sending

theorem queueSound_of_unowed {s : State} (held : QueueHeld s.link.queue) (unowed : s.link.owed = false) : QueueSound s :=
  (queueSound_iff s).mpr ⟨held, fun mark => absurd (unowed.symm.trans mark) nofun⟩

theorem queueSound_of_empty {s : State} (queue : s.link.queue = []) (unowed : s.link.owed = false) : QueueSound s :=
  queueSound_of_unowed (queue ▸ queueHeld_nil) unowed

theorem beginAttempt_tx_of_send {s : State} (sending : s.link.tx = .send) : (beginAttempt s).link.tx = .send := by
  unfold beginAttempt
  split
  · exact sending
  · rfl

theorem kickTransmitter_of_send {s : State} (sending : s.link.tx = .send) : kickTransmitter s = s :=
  if_neg fun ⟨standby, _⟩ => absurd (sending.symm.trans standby) nofun

theorem queueSound_beginAttempt {s : State} (sound : QueueSound s) : QueueSound (beginAttempt s) := by
  obtain ⟨queue, owed, -⟩ := beginAttempt_link s
  exact queueSound_congr sound queue owed beginAttempt_tx_of_send

/-! ### Frames that join the queue (R93, R94) -/

theorem queueSound_appendEntry {s : State} (sound : QueueSound s) (room : s.link.queue.length < Config.maxQueue) {f : TxFrame}
    (alone : f = .status → s.link.queue.countP isStatus = 0) : QueueSound (appendEntry f s) := by
  obtain ⟨queue, owed, -⟩ := appendEntry_link f s
  rw [queueSound_iff, queue, owed]
  refine ⟨(queueHeld_of_sound sound).append room alone, fun mark => .inl ?_⟩
  obtain ⟨tx, head⟩ := (statusBeingSent_iff s).mp ((sound.owed mark).resolve_right (not_fullWithoutStatus_of_room room))
  obtain ⟨x, first, status⟩ := Option.map_eq_some_iff.mp head
  have kept : appendEntry f s =
      { s with link := { s.link with queue := s.link.queue ++ [{ frame := f, attempts := 0 }] } } :=
    kickTransmitter_of_send tx
  rw [kept, statusBeingSent_iff]
  refine ⟨tx, ?_⟩
  rw [List.head?_append, first]
  exact congrArg some status

theorem queueFrame_run (f : TxFrame) (s : State) : (queueFrame f s).link.run = s.link.run := by
  obtain ⟨-, -, -, -, run, -⟩ := appendEntry_link f s
  unfold queueFrame
  split_ifs
  · rfl
  · exact run
  · rfl

theorem queueSound_queueFrame {s : State} (sound : QueueSound s) {f : TxFrame} (other : f ≠ .status) :
    QueueSound (queueFrame f s) := by
  unfold queueFrame
  split_ifs with inactive room
  · exact sound
  · exact queueSound_appendEntry sound room fun status => absurd status other
  · exact queueSound_congr sound rfl rfl id

theorem queueSound_requestStatus {s : State} (sound : QueueSound s) : QueueSound (requestStatus s) := by
  by_cases active : linkActive s = true
  case neg =>
    rw [requestStatus_of_inactive (Bool.eq_false_iff.mpr active)]
    exact sound
  have held := queueHeld_of_sound sound
  by_cases sending : s.link.tx = .send ∧ s.link.queue.head?.map TxEntry.frame = some .status
  · rw [requestStatus_of_sending active sending]
    exact (queueSound_iff _).mpr ⟨held, fun _ => .inl ((statusBeingSent_iff _).mpr sending)⟩
  have notSending : ¬statusBeingSent s = true := mt (statusBeingSent_iff s).mp sending
  by_cases queued : ∃ x ∈ s.link.queue, x.frame = .status
  · rw [requestStatus_of_queued active sending queued]
    have unowed : s.link.owed = false := Bool.eq_false_iff.mpr fun mark =>
      (sound.owed mark).elim notSending (not_fullWithoutStatus_of_status queued)
    exact queueSound_of_unowed held.restartStatus unowed
  have none := countP_isStatus_of_absent queued
  by_cases room : s.link.queue.length < 8
  · rw [requestStatus_of_room active queued room]
    exact queueSound_appendEntry sound room fun _ => none
  · have full := Nat.le_of_not_lt room
    rw [requestStatus_of_full active queued full]
    exact (queueSound_iff _).mpr ⟨held, fun _ => .inr ⟨Nat.le_antisymm sound.bound full, none⟩⟩

/-! ### The ends of an attempt (R92, R94) -/

/-- The head frame's place after an attempt is settled: no STATUS is being sent, and one is owed only for want of room. -/
structure HeadSettled (s : State) : Prop where
  held : QueueHeld s.link.queue
  owed : s.link.owed = true → FullWithoutStatus s.link.queue

theorem HeadSettled.afterAttempt {s : State} (settled : HeadSettled s) : QueueSound (afterAttempt s) :=
  (queueSound_iff _).mpr ⟨settled.held, fun mark => .inr (settled.owed mark)⟩

theorem not_owed_of_empty {s : State} (sound : QueueSound s) (empty : s.link.queue = []) : s.link.owed = false := by
  refine Bool.eq_false_iff.mpr fun mark => ?_
  rcases sound.owed mark with sent | ⟨full, -⟩
  · obtain ⟨-, head⟩ := (statusBeingSent_iff s).mp sent
    rw [empty] at head
    cases head
  · rw [empty] at full
    cases full

/-- An owed STATUS finds room, and no other STATUS, behind the head frame. -/
theorem queueSound_owed_of_cons {s : State} {x : TxEntry} {rest : List TxEntry} (sound : QueueSound s)
    (queue : s.link.queue = x :: rest) (mark : s.link.owed = true) : rest.countP isStatus = 0 := by
  have one := sound.oneStatus
  rcases sound.owed mark with sent | ⟨-, none⟩
  · obtain ⟨-, head⟩ := (statusBeingSent_iff s).mp sent
    rw [queue] at head one
    have status : isStatus x = true := (isStatus_iff x).mpr (Option.some.inj head)
    rw [List.countP_cons_of_pos status] at one
    omega
  · rw [queue, List.countP_cons] at none
    omega

theorem queueSound_leaveQueue {s : State} (sound : QueueSound s) : HeadSettled (leaveQueue s) := by
  cases queue : s.link.queue with
  | nil =>
    have unowed := not_owed_of_empty sound queue
    have same : leaveQueue s = { s with link := { s.link with queue := [] } } := by
      simp only [leaveQueue, unowed, queue, List.drop_nil, Bool.false_eq_true, if_false]
    rw [same]
    exact ⟨queueHeld_nil, fun mark => absurd (unowed.symm.trans mark) nofun⟩
  | cons x rest =>
    rw [leaveQueue_of_cons queue]
    refine ⟨?_, nofun⟩
    have held : QueueHeld (x :: rest) := queue ▸ queueHeld_of_sound sound
    cases mark : s.link.owed with
    | false =>
      change QueueHeld (rest ++ [])
      rw [List.append_nil]
      exact held.tail
    | true => exact held.tail.append held.bound fun _ => queueSound_owed_of_cons sound queue mark

theorem queueSound_collideHead {s : State} (sound : QueueSound s) : HeadSettled (collideHead s) := by
  cases queue : s.link.queue with
  | nil =>
    have same : collideHead s = s := by simp only [collideHead, queue]
    rw [same]
    exact ⟨queueHeld_of_sound sound, fun mark => absurd ((not_owed_of_empty sound queue).symm.trans mark) nofun⟩
  | cons x rest =>
    have left := queueSound_leaveQueue sound
    rw [leaveQueue_of_cons queue] at left
    rw [collideHead_of_cons queue]
    have held : QueueHeld (x :: rest) := queue ▸ queueHeld_of_sound sound
    split
    case isFalse => exact ⟨left.held, nofun⟩
    case isTrue again =>
      have same : isStatus { x with attempts := x.attempts + 1 } = isStatus x := rfl
      refine ⟨⟨held.bound, ?_, ?_⟩, fun mark => ?_⟩
      · rw [List.countP_cons, same, ← List.countP_cons]
        exact held.oneStatus
      · intro y member
        rcases List.mem_cons.mp member with rfl | old
        · exact Nat.succ_lt_succ again
        · exact held.attempts y (List.mem_cons_of_mem x old)
      · change (if x.frame = .status then false else s.link.owed) = true at mark
        split at mark
        · cases mark
        case isFalse other =>
          have unsent : ¬statusBeingSent s = true := by
            rw [statusBeingSent_iff, queue]
            exact fun ⟨_, head⟩ => other (Option.some.inj head)
          obtain ⟨full, none⟩ := (sound.owed mark).resolve_left unsent
          rw [queue] at full none
          refine ⟨full, ?_⟩
          rw [List.countP_cons, same, ← List.countP_cons]
          exact none

theorem queueSound_successfulSend {s : State} (sound : QueueSound s) : QueueSound (successfulSend s) := by
  unfold successfulSend
  split
  · refine HeadSettled.afterAttempt (queueSound_leaveQueue ?_)
    exact queueSound_congr sound rfl rfl id
  · exact sound

theorem queueSound_endByCollision {s : State} (sound : QueueSound s) (n : Nat) : QueueSound (endByCollision n s) := by
  unfold endByCollision
  refine HeadSettled.afterAttempt (queueSound_collideHead ?_)
  exact queueSound_congr sound rfl rfl id

theorem queueSound_collision {s : State} (sound : QueueSound s) : QueueSound (collision s) := by
  unfold collision
  split
  · refine queueSound_endByCollision ?_ _
    exact queueSound_congr sound rfl rfl id
  · exact sound

/-! ### Bytes and the line (R84, R89, R96) -/

theorem busy_keeps_send {tx : TxState} (sending : tx = .send) : (if tx = .defer then .waitIdle else tx) = .send := by
  rw [sending]
  rfl

theorem receiveByte_link (b : Byte) (s : State) :
    (receiveByte b s).link.queue = s.link.queue ∧ (receiveByte b s).link.owed = s.link.owed ∧
      (receiveByte b s).link.tx = s.link.tx := by
  unfold receiveByte
  dsimp only
  repeat' split
  all_goals exact ⟨rfl, rfl, rfl⟩

theorem queueSound_receiveByte {s : State} (sound : QueueSound s) (b : Byte) : QueueSound (receiveByte b s) := by
  obtain ⟨queue, owed, tx⟩ := receiveByte_link b s
  exact queueSound_congr sound queue owed fun sending => tx.trans sending

theorem queueSound_hearByte {s : State} (sound : QueueSound s) (b : Byte) : QueueSound (hearByte b s) := by
  unfold hearByte
  refine queueSound_receiveByte ?_ b
  exact queueSound_congr sound rfl rfl busy_keeps_send

theorem queueSound_hearInSend {s : State} (sound : QueueSound s) (b : Byte) : QueueSound (hearInSend b s) := by
  unfold hearInSend
  split
  case h_1 own _ =>
    unfold hearAgainst
    dsimp only
    have heard : QueueSound (receiveByte (levelsByte (hearDriven (byteLevels own) (byteLevels b)).1)
        { s with link := { s.link with receiver := .taking (arrivalPosition s) (s.link.sending.take (bytesOver s)) } }) := by
      refine queueSound_receiveByte ?_ _
      exact queueSound_congr sound rfl rfl id
    split
    · exact queueSound_endByCollision heard _
    · exact heard
  case h_2 => exact queueSound_hearByte (queueSound_successfulSend sound) b

theorem queueSound_lineBusy {s : State} (sound : QueueSound s) (b : Byte) : QueueSound (lineBusy b s) := by
  unfold lineBusy
  split
  · split
    · exact queueSound_hearInSend sound b
    · exact queueSound_hearByte sound b
  · exact queueSound_congr sound rfl rfl id

theorem queueSound_becomeIdle {s : State} (sound : QueueSound s) : QueueSound (becomeIdle s) :=
  queueSound_congr sound rfl rfl fun sending => by
    change (if s.link.tx = .waitIdle then .defer else s.link.tx) = .send
    rw [sending]
    rfl

theorem queueSound_hearFrame {s : State} (sound : QueueSound s) (kind : Byte) (f : HeardFrame) :
    QueueSound (hearFrame kind f s) :=
  queueSound_congr sound rfl rfl busy_keeps_send

theorem queueSound_stationClash (s : State) : QueueSound (stationClash s) := queueSound_of_empty rfl rfl

/-! ### What a peer's frame asks for (R139, R140) -/

theorem queueSound_setPeer {s : State} (sound : QueueSound s) (p : Fin 8) (e : Peer) : QueueSound (setPeer p e s) :=
  queueSound_congr sound rfl rfl id

theorem queueSound_testCatchUp {s : State} (sound : QueueSound s) (p : Fin 8) (highWater : Nat) :
    QueueSound (testCatchUp p highWater s) := by
  have asked (target run first : Nat) : QueueSound (queueFrame (.noteRequest target run first) s) :=
    queueSound_queueFrame sound nofun
  unfold testCatchUp
  dsimp only
  split_ifs
  · exact queueSound_setPeer (asked _ _ _) p _
  · exact asked _ _ _
  · exact sound

theorem queueSound_queueNotes {s : State} (sound : QueueSound s) (l : List Note) :
    QueueSound (l.foldl (fun st n => queueFrame (.note n) st) s) := by
  induction l generalizing s with
  | nil => exact sound
  | cons n l ih => exact ih (queueSound_queueFrame sound nofun)

theorem queueSound_takeRequest {s : State} (sound : QueueSound s) (payload : List Byte) :
    QueueSound (takeRequest payload s) := by
  unfold takeRequest answerRequest
  split_ifs
  · exact sound
  · exact queueSound_queueNotes sound _
  · exact queueSound_queueFrame sound nofun
  · exact sound

end Sys2Proof.Proofs
end

section
/-! PROOFS. The note store within its limits: what leaves the notes and their identities, and what a note that joins the store
makes of it (R126, R129, R131, R132). -/

namespace Sys2Proof.Proofs

open Sys2Proof Sys2Proof.Machine Sys2Proof.Safety

/-! ### What the store's promise reads -/

/-- The states hold the same notes under the same station, run number, sequence and phase; the write states may differ. -/
structure SameNotes (s t : State) : Prop where
  notes : t.store.notes.map StoredNote.note = s.store.notes.map StoredNote.note
  seq : t.store.seq = s.store.seq
  phase : t.port.phase = s.port.phase
  station : t.port.station = s.port.station
  run : t.link.run = s.link.run

theorem storeSound_iff (s : State) :
    StoreSound s ↔ (s.store.notes.map StoredNote.note).length ≤ Config.maxNotes ∧
      ((s.store.notes.map StoredNote.note).map Note.id).Nodup ∧
      (∀ n ∈ s.store.notes.map StoredNote.note, n.id.originator = s.port.station.val →
        n.id.run = s.link.run ∧ n.id.seq ≤ s.store.seq) ∧
      (s.port.phase = .setup → s.store.notes.map StoredNote.note = []) := by
  rw [List.length_map, List.map_map, List.forall_mem_map, List.map_eq_nil_iff]
  exact ⟨fun sound => ⟨sound.bound, sound.distinct, sound.own, sound.quiet⟩,
    fun ⟨bound, distinct, own, quiet⟩ => ⟨bound, distinct, own, quiet⟩⟩

theorem storeSound_congr {s t : State} (sound : StoreSound s) (same : SameNotes s t) : StoreSound t := by
  rw [storeSound_iff, same.notes, same.seq, same.phase, same.station, same.run]
  exact (storeSound_iff s).mp sound

theorem storeSound_of_empty {s : State} (empty : s.store.notes = []) : StoreSound s := by
  rw [storeSound_iff, empty]
  exact ⟨Nat.zero_le _, .nil, nofun, fun _ => rfl⟩

theorem SameNotes.refl (s : State) : SameNotes s s := ⟨rfl, rfl, rfl, rfl, rfl⟩

theorem SameNotes.trans {s t u : State} (first : SameNotes s t) (second : SameNotes t u) : SameNotes s u where
  notes := second.notes.trans first.notes
  seq := second.seq.trans first.seq
  phase := second.phase.trans first.phase
  station := second.station.trans first.station
  run := second.run.trans first.run

theorem sameNotes_of_blocks {s t : State} (port : t.port = s.port) (run : t.link.run = s.link.run) (store : t.store = s.store) :
    SameNotes s t :=
  ⟨by rw [store], by rw [store], by rw [port], by rw [port], run⟩

theorem sameNotes_makeDecision (s : State) : SameNotes s (makeDecision s) := by
  obtain ⟨rest, notes⟩ := makeDecision_store s
  have seq := congrArg NoteStore.seq rest
  refine ⟨notes, seq, ?_, ?_, ?_⟩
  all_goals simp only [makeDecision_frame]

theorem sameNotes_finish (before after : State) : SameNotes after (finish before after) := by
  refine ⟨(finish_store before after).2, finish_seq before after, ?_, ?_, (finish_link before after).2.1⟩
  all_goals simp only [finish_frame]

/-! ### A note that joins the store (R130, R131) -/

theorem evictOldest_sublist (l : List StoredNote) : (evictOldest l).Sublist l := by
  induction l with
  | nil => exact .slnil
  | cons x rest ih =>
    unfold evictOldest
    split
    · exact List.sublist_cons_self x rest
    · exact ih.cons_cons x

theorem evictOldest_length {l : List StoredNote} (written : ∃ x ∈ l, x.state = .written) :
    (evictOldest l).length + 1 = l.length := by
  induction l with
  | nil =>
    obtain ⟨x, member, -⟩ := written
    cases member
  | cons x rest ih =>
    unfold evictOldest
    split
    case isTrue => rfl
    case isFalse unwritten =>
      obtain ⟨y, member, state⟩ := written
      rcases List.mem_cons.mp member with rfl | member
      · exact absurd state unwritten
      · exact congrArg Nat.succ (ih ⟨y, member, state⟩)

/-- The notes that stay when one joins: all of them with room, and otherwise all but the oldest WRITTEN one (R131). -/
def keptNotes (s : State) : List StoredNote :=
  if s.store.notes.length < Config.maxNotes then s.store.notes else evictOldest s.store.notes

theorem storeNote_eq (n : Note) (s : State) :
    storeNote n s = { s with store := { s.store with notes := keptNotes s ++ [{ note := n, state := .pending }] } } := rfl

theorem keptNotes_sublist (s : State) : (keptNotes s).Sublist s.store.notes := by
  unfold keptNotes
  split
  · exact List.Sublist.refl _
  · exact evictOldest_sublist _

theorem storeHasRoom_iff (s : State) :
    storeHasRoom s = true ↔ s.store.notes.length < Config.maxNotes ∨ ∃ x ∈ s.store.notes, x.state = .written := by
  simp only [storeHasRoom, Bool.or_eq_true, decide_eq_true_eq, List.any_eq_true, beq_iff_eq]

theorem keptNotes_length {s : State} (bound : s.store.notes.length ≤ Config.maxNotes) (room : storeHasRoom s = true) :
    (keptNotes s).length < Config.maxNotes := by
  unfold keptNotes
  split
  case isTrue free => exact free
  case isFalse full =>
    have length := evictOldest_length (((storeHasRoom_iff s).mp room).resolve_left full)
    exact Nat.lt_of_lt_of_le (Nat.lt_of_succ_le (Nat.le_of_eq length)) bound

theorem holdsNote_iff (s : State) (id : NoteId) : holdsNote s id = true ↔ ∃ x ∈ s.store.notes, x.note.id = id := by
  simp only [holdsNote, List.any_eq_true, beq_iff_eq]

/-- A note with a new identity joins the store in RUN; an own one carries the run number and no later sequence. -/
theorem storeSound_storeNote {n : Note} {s : State} (sound : StoreSound s) (run : s.port.phase = .run)
    (room : storeHasRoom s = true) (fresh : ¬holdsNote s n.id = true)
    (own : n.id.originator = s.port.station.val → n.id.run = s.link.run ∧ n.id.seq ≤ s.store.seq) :
    StoreSound (storeNote n s) := by
  have kept := keptNotes_sublist s
  rw [storeNote_eq]
  refine ⟨?_, ?_, fun x member => ?_, fun setup => absurd (run.symm.trans setup) nofun⟩
  · rw [List.length_append]
    exact keptNotes_length sound.bound room
  · rw [List.map_append, List.map_singleton, List.nodup_append]
    refine ⟨(kept.map _).nodup sound.distinct, List.nodup_singleton _, fun a old b new same => ?_⟩
    obtain ⟨y, member, rfl⟩ := List.mem_map.mp old
    refine fresh ((holdsNote_iff s n.id).mpr ⟨y, kept.subset member, ?_⟩)
    exact same.trans (List.mem_singleton.mp new)
  · rcases List.mem_append.mp member with old | new
    · exact sound.own x (kept.subset old)
    · rw [List.mem_singleton.mp new]
      exact own

/-- The next own note is new to the store (R126, R128). -/
theorem storeSound_storeLocal {kind : NoteKind} {ref : Option Label} {raw : RawNote} {s : State} (sound : StoreSound s)
    (run : s.port.phase = .run) (room : storeHasRoom s = true) :
    StoreSound (storeLocal (localNote s kind ref raw) s) := by
  have counted : StoreSound { s with store := { s.store with seq := s.store.seq + 1 } } :=
    ⟨sound.bound, sound.distinct, fun x member station => (sound.own x member station).imp_right Nat.le_succ_of_le,
      sound.quiet⟩
  have fresh : ¬holdsNote { s with store := { s.store with seq := s.store.seq + 1 } } (localNote s kind ref raw).id = true := by
    rw [holdsNote_iff]
    rintro ⟨x, member, same⟩
    have last := (sound.own x member (congrArg NoteId.originator same)).2
    rw [same] at last
    exact Nat.not_succ_le_self _ last
  have stored := storeSound_storeNote counted run room fresh fun _ => ⟨rfl, Nat.le_refl _⟩
  unfold storeLocal
  refine storeSound_congr stored (sameNotes_of_blocks ?_ ?_ ?_)
  · simp only [queueFrame_frame, tryAttach_frame]
  · rw [queueFrame_run]
    simp only [tryAttach_frame]
  · simp only [queueFrame_frame, tryAttach_frame]

/-! ### Notes and requests of a peer (R98, R102, R136 to R141) -/

theorem applyRun_run (p : Fin 8) (run : Nat) (s : State) : (applyRun p run s).link.run = s.link.run := by
  rw [applyRun_eq]
  rfl

theorem setHeard_run (p : Fin 8) (u : Nat) (s : State) : (setHeard p u s).link.run = s.link.run := by
  unfold setHeard
  dsimp only
  split
  · rfl
  · rfl

theorem sameNotes_setHeard (p : Fin 8) (u : Nat) (s : State) : SameNotes s (setHeard p u s) := by
  apply sameNotes_of_blocks
  · simp only [setHeard_frame]
  · exact setHeard_run p u s
  · simp only [setHeard_frame]

theorem sameNotes_applyRun (p : Fin 8) (run : Nat) (s : State) : SameNotes s (applyRun p run s) := by
  apply sameNotes_of_blocks
  · simp only [applyRun_frame]
  · exact applyRun_run p run s
  · simp only [applyRun_frame]

theorem sameNotes_raiseIf (c : Bool) (k : Notice) (s : State) : SameNotes s (raiseIf c k s) := by
  apply sameNotes_of_blocks <;> simp only [raiseIf_frame]

theorem sameNotes_rejectNote (p : Fin 8) (seq : Nat) (s : State) : SameNotes s (rejectNote p seq s) := by
  unfold rejectNote
  dsimp only
  split
  · refine SameNotes.trans ?_ (sameNotes_setHeard p _ _)
    exact ⟨rfl, rfl, rfl, rfl, rfl⟩
  · exact ⟨rfl, rfl, rfl, rfl, rfl⟩

/-- A note of a peer joins the store under another originator than this station. -/
theorem storeSound_acceptNote {p : Fin 8} {n : Note} {s : State} (sound : StoreSound s) (run : s.port.phase = .run)
    (other : n.id.originator ≠ s.port.station.val) : StoreSound (acceptNote p n s) := by
  unfold acceptNote
  dsimp only
  split
  case isTrue => exact storeSound_congr sound ⟨rfl, rfl, rfl, rfl, rfl⟩
  case isFalse fresh =>
    split
    case isTrue room =>
      have stored := storeSound_storeNote sound run room (fun holds => fresh (.inr holds)) fun own => absurd own other
      refine storeSound_congr stored (SameNotes.trans ?_ (sameNotes_setHeard p _ _))
      apply sameNotes_of_blocks
      · simp only [raise_port, tryAttach_frame]
      · simp only [raise_link, tryAttach_frame]
      · simp only [raise_store, tryAttach_frame]
    case isFalse => exact storeSound_congr sound ⟨rfl, rfl, rfl, rfl, rfl⟩

theorem storeSound_takeNote {p : Fin 8} {s : State} (sound : StoreSound s) (run : s.port.phase = .run)
    (peer : p ≠ s.port.station) (payload : List Byte) : StoreSound (takeNote p payload s) := by
  have entered := sameNotes_applyRun p (field payload 0 2) s
  have sound := storeSound_congr sound entered
  have other : p.val ≠ (applyRun p (field payload 0 2) s).port.station.val := by
    rw [entered.station]
    exact fun same => peer (Fin.ext same)
  unfold takeNote takePeerNote
  dsimp only
  split
  · exact sound
  · split
    · exact storeSound_congr sound (sameNotes_rejectNote p _ _)
    · split
      · exact storeSound_acceptNote sound (entered.phase.trans run) other
      · exact storeSound_congr sound (sameNotes_rejectNote p _ _)

theorem sameNotes_queueFrame (f : TxFrame) (s : State) : SameNotes s (queueFrame f s) := by
  apply sameNotes_of_blocks
  · simp only [queueFrame_frame]
  · exact queueFrame_run f s
  · simp only [queueFrame_frame]

theorem sameNotes_queueNotes (l : List Note) (s : State) :
    SameNotes s (l.foldl (fun st n => queueFrame (.note n) st) s) := by
  induction l generalizing s with
  | nil => exact .refl s
  | cons n l ih => exact (sameNotes_queueFrame _ s).trans (ih _)

theorem sameNotes_takeRequest (payload : List Byte) (s : State) : SameNotes s (takeRequest payload s) := by
  unfold takeRequest answerRequest
  split_ifs
  · exact .refl s
  · exact sameNotes_queueNotes _ s
  · exact sameNotes_queueFrame _ s
  · exact .refl s

theorem sameNotes_takeGone (p : Fin 8) (payload : List Byte) (s : State) : SameNotes s (takeGone p payload s) := by
  unfold takeGone
  dsimp only
  split
  · exact .refl s
  · refine SameNotes.trans ?_ (sameNotes_setHeard p _ _)
    refine SameNotes.trans ?_ (sameNotes_raiseIf _ _ _)
    exact ⟨rfl, rfl, rfl, rfl, rfl⟩

theorem testCatchUp_run (p : Fin 8) (highWater : Nat) (s : State) : (testCatchUp p highWater s).link.run = s.link.run := by
  unfold testCatchUp
  dsimp only
  split_ifs
  · exact queueFrame_run _ s
  · exact queueFrame_run _ s
  · rfl

theorem sameNotes_takeStatus (p : Fin 8) (payload : List Byte) (arrival : Nat) (s : State) :
    SameNotes s (takeStatus p payload arrival s) := by
  apply sameNotes_of_blocks
  · simp only [takeStatus_frame]
  · unfold takeStatus
    dsimp only
    rw [testCatchUp_run]
    have entered : (applyStatus p (readStatusPayload payload) arrival s).link.run = s.link.run := by
      rw [applyStatus_eq, raiseIf_link]
      rfl
    split
    · simp only [takeAnnouncement_frame, entered]
    · exact entered
  · simp only [takeStatus_frame]

end Sys2Proof.Proofs
end

section
/-! PROOFS. Note store and transmit queue under every command: both stay sound through the commands that leave them, through the end
of an event, and through the commands that act on them (R93, R94, R126, R129). -/

namespace Sys2Proof.Proofs

open Sys2Proof Sys2Proof.Machine Sys2Proof.Safety

/-! ### Keeping both sound -/

/-- The note store and the transmit queue that are sound in s are sound in t. -/
structure Keeps (s t : State) : Prop where
  store : StoreSound s → StoreSound t
  queue : QueueSound s → QueueSound t

theorem Keeps.refl (s : State) : Keeps s s := ⟨id, id⟩

theorem Keeps.trans {s t u : State} (first : Keeps s t) (second : Keeps t u) : Keeps s u :=
  ⟨second.store ∘ first.store, second.queue ∘ first.queue⟩

/-- What the two promises read of a state. -/
structure Desk where
  phase : PortPhase
  station : Fin 8
  link : Link
  store : NoteStore

def deskOf (s : State) : Desk :=
  { phase := s.port.phase, station := s.port.station, link := s.link, store := s.store }

theorem keeps_of_desk {s t : State} (same : deskOf t = deskOf s) : Keeps s t := by
  have link : t.link = s.link := congrArg Desk.link same
  have store : t.store = s.store := congrArg Desk.store same
  refine ⟨fun sound => storeSound_congr sound ?_, fun sound => queueSound_of_link sound link⟩
  exact ⟨by rw [store], by rw [store], congrArg Desk.phase same, congrArg Desk.station same, by rw [link]⟩

theorem keeps_of_blocks {s t : State} (port : t.port = s.port) (link : t.link = s.link) (store : t.store = s.store) :
    Keeps s t := by
  apply keeps_of_desk
  rw [deskOf, port, link, store]
  rfl

/-- What acts on the link alone keeps the store by the run number, and the queue by a rule of its own. -/
theorem keeps_of_queue {s t : State} (notes : SameNotes s t) (queue : QueueSound s → QueueSound t) : Keeps s t :=
  ⟨fun sound => storeSound_congr sound notes, queue⟩

theorem keeps_respond (c : ResponseCode) (data : List Byte) (s : State) : Keeps s (respond c data s) := keeps_of_desk rfl

theorem keeps_requestStatus (s : State) : Keeps s (requestStatus s) := by
  refine keeps_of_queue (sameNotes_of_blocks ?_ (requestStatus_link s).2.2.1 ?_) queueSound_requestStatus
  all_goals simp only [requestStatus_frame]

theorem keeps_announceChange (before s : State) : Keeps s (announceChange before s) := by
  unfold announceChange
  split
  · exact .refl s
  · exact keeps_requestStatus s

theorem keeps_makeDecision (s : State) : Keeps s (makeDecision s) :=
  keeps_of_queue (sameNotes_makeDecision s) fun sound => queueSound_of_link sound (by simp only [makeDecision_frame])

theorem keeps_finish (before s : State) : Keeps s (finish before s) := by
  have settled : Keeps s (settle s) := by apply keeps_of_blocks <;> simp only [settle_frame]
  exact (settled.trans (keeps_announceChange before _)).trans (keeps_makeDecision _)

/-! ### Resets, frames and requests of the take engine -/

theorem keeps_restart (strap : Fin 8) (s : State) : Keeps s (restart strap s) :=
  ⟨fun _ => storeSound_of_empty rfl, fun _ => queueSound_of_empty rfl rfl⟩

theorem keeps_arriveFrame (f : FrameIn) (s : State) : Keeps s (arriveFrame f s) := by
  unfold arriveFrame
  split
  · refine Keeps.trans ?_ (keeps_finish _ _)
    apply keeps_of_blocks <;> simp only [runFrame_frame, stampFrame_frame]
  · apply keeps_of_blocks <;> simp only [sendMix_port, sendMix_link, sendMix_store, stampFrame_frame]

theorem keeps_promote (v : RingView) (s : State) : Keeps s (finish s (promote v s)) := by
  refine Keeps.trans ?_ (keeps_finish _ _)
  apply keeps_of_blocks <;> simp only [promote_frame]

theorem keeps_endRequest {s : State} {r : ResponseCode × State} (kept : Keeps s r.2) : Keeps s (endRequest s r) := by
  unfold endRequest
  split
  · exact kept.trans (keeps_finish _ _)
  · exact kept

theorem keeps_start (v : RingView) (src : Source) (s : State) : Keeps s (endRequest s (localStart v src s)) := by
  apply keeps_endRequest
  apply keeps_of_blocks <;> simp only [localStart_frame]

theorem keeps_stop (s : State) : Keeps s (endRequest s (localStop s)) := by
  apply keeps_endRequest
  apply keeps_of_blocks <;> simp only [localStop_frame]

theorem keeps_recordKey (s : State) : Keeps s (recordKey s) := by
  unfold recordKey
  split
  · split
    · exact keeps_start _ _ s
    · exact keeps_start _ _ s
    · exact keeps_stop s
    · exact keeps_stop s
  · exact .refl s

theorem keeps_responseRead (s : State) :
    Keeps s { s with port := { s.port with output := responseBytes s.port.response } } :=
  keeps_of_desk rfl

theorem keeps_clockLost (s : State) :
    Keeps s
      (if s.counter.clock = .running then
        raise .clockLost
          { advanceTime (s.counter.lossTimer.getD s.time + Config.lossTime) s with
            counter := { s.counter with clock := .lost, lossTimer := none } }
      else s) := by
  split
  · exact keeps_of_desk rfl
  · exact .refl s

theorem keeps_referencePulse (s : State) : Keeps s (referencePulse s) := by
  apply keeps_of_blocks <;> simp only [referencePulse_frame]

/-! ### The media writer (R130, R132, R167) -/

theorem markWritten_notes (ids : List NoteId) (l : List StoredNote) :
    (markWritten ids l).map StoredNote.note = l.map StoredNote.note := by
  rw [markWritten, List.map_map]
  refine List.map_congr_left fun x _ => ?_
  simp only [Function.comp_apply]
  split <;> rfl

theorem sameNotes_contentWritten (addr : Nat) (content : Content) (s : State) :
    SameNotes s (contentWritten addr content s) := by
  have store : (contentWritten addr content s).store.notes.map StoredNote.note = s.store.notes.map StoredNote.note ∧
      (contentWritten addr content s).store.seq = s.store.seq := by
    cases content with
    | audio i words serial first seq frames => exact ⟨by simp only [contentWritten, modifySlot_frame], by
        simp only [contentWritten, modifySlot_frame]⟩
    | index i words u => exact ⟨by simp only [contentWritten, promote_frame, raise_store, setSlot_store], by
        simp only [contentWritten, promote_frame, raise_store, setSlot_store]⟩
    | notes l => exact ⟨markWritten_notes _ _, rfl⟩
    | fault addrs unlisted => exact ⟨rfl, rfl⟩
  refine ⟨store.1, store.2, ?_, ?_, ?_⟩
  all_goals simp only [contentWritten_frame]

theorem sameNotes_completeOk (w : Write) (s : State) : SameNotes s (completeOk w s) := by
  have advanced : SameNotes s (advanceCursor (clearFlight s)) := by
    apply sameNotes_of_blocks <;> simp only [advanceCursor_frame, clearFlight_port, clearFlight_link, clearFlight_store]
  unfold completeOk
  dsimp only
  split
  · exact advanced
  · have written := advanced.trans (sameNotes_contentWritten w.addr w.content _)
    split
    · refine written.trans ?_
      apply sameNotes_of_blocks <;> simp only [retrySucceeded_frame]
    · exact written

theorem keeps_successfulCompletion (s : State) : Keeps s (successfulCompletion s) := by
  unfold successfulCompletion
  split
  · exact .refl s
  · refine Keeps.trans (keeps_of_queue (sameNotes_completeOk _ s) fun sound => ?_) (keeps_finish _ _)
    exact queueSound_of_link sound (by simp only [completeOk_frame])

theorem keeps_failedCompletion (s : State) : Keeps s (failedCompletion s) := by
  unfold failedCompletion
  split
  · exact .refl s
  · refine Keeps.trans ?_ (keeps_finish _ _)
    apply keeps_of_blocks <;> simp only [completeFailed_frame]

theorem restartNotes_notes (s : State) :
    (restartNotes s).store.notes.map StoredNote.note = s.store.notes.map StoredNote.note := by
  change (s.store.notes.map _).map StoredNote.note = _
  rw [List.map_map]
  refine List.map_congr_left fun x _ => ?_
  simp only [Function.comp_apply]
  split <;> rfl

theorem keeps_captureRestart (u : Unit) (s : State) : Keeps s (captureRestart u s) := by
  have before : (restartWriter (restartMix (emptyRing (restartTakes s)))).store = s.store := by
    simp only [restartWriter_store, restartMix_store, emptyRing_store, restartTakes_frame]
  have abandoned : SameNotes s (restartAll s) := by
    refine ⟨(restartNotes_notes _).trans (by rw [before]), ?_, ?_, ?_, ?_⟩
    · change (restartWriter (restartMix (emptyRing (restartTakes s)))).store.seq = s.store.seq
      rw [before]
    all_goals simp only [restartAll_frame]
  have restarted : Keeps s (restartAll s) :=
    keeps_of_queue abandoned fun sound => queueSound_of_link sound (by simp only [restartAll_frame])
  exact (restarted.trans (keeps_finish s _)).trans (keeps_respond _ _ _)

/-! ### The cart link (R84, R89 to R102) -/

theorem keeps_beginAttempt (s : State) : Keeps s (beginAttempt s) := by
  refine keeps_of_queue (sameNotes_of_blocks ?_ (beginAttempt_link s).2.2.2.2.1 ?_) queueSound_beginAttempt
  all_goals simp only [beginAttempt_frame]

theorem keeps_deferralExpiry (s : State) : Keeps s (deferralExpiry s) := by
  unfold deferralExpiry
  split
  · refine Keeps.trans ?_ (keeps_beginAttempt _)
    exact keeps_of_desk rfl
  · exact .refl s

theorem leaveQueue_run (s : State) : (leaveQueue s).link.run = s.link.run := by
  unfold leaveQueue
  dsimp only
  split
  · rfl
  · rfl

theorem collideHead_run (s : State) : (collideHead s).link.run = s.link.run := by
  unfold collideHead
  split
  · rfl
  · split
    · rfl
    · exact leaveQueue_run _

theorem endByCollision_run (n : Nat) (s : State) : (endByCollision n s).link.run = s.link.run := collideHead_run _

theorem successfulSend_run (s : State) : (successfulSend s).link.run = s.link.run := by
  unfold successfulSend
  split
  · exact leaveQueue_run _
  · rfl

theorem receiveByte_run (b : Byte) (s : State) : (receiveByte b s).link.run = s.link.run := by
  unfold receiveByte
  dsimp only
  repeat' split
  all_goals rfl

theorem lineBusy_run (b : Byte) (s : State) : (lineBusy b s).link.run = s.link.run := by
  have heard (u : State) : (hearByte b u).link.run = u.link.run := receiveByte_run b _
  unfold lineBusy
  split
  · split
    · unfold hearInSend
      split
      · unfold hearAgainst
        dsimp only
        split
        · exact (endByCollision_run _ _).trans (receiveByte_run _ _)
        · exact receiveByte_run _ _
      · exact (heard _).trans (successfulSend_run s)
    · exact heard s
  · rfl

theorem collision_run (s : State) : (collision s).link.run = s.link.run := by
  unfold collision
  split
  · exact endByCollision_run _ _
  · rfl

theorem keeps_successfulSend (s : State) : Keeps s (successfulSend s) := by
  refine keeps_of_queue (sameNotes_of_blocks ?_ (successfulSend_run s) ?_) queueSound_successfulSend
  all_goals simp only [successfulSend_frame]

theorem keeps_collision (s : State) : Keeps s (collision s) := by
  refine keeps_of_queue (sameNotes_of_blocks ?_ (collision_run s) ?_) queueSound_collision
  all_goals simp only [collision_frame]

theorem keeps_lineBusy (b : Byte) (s : State) : Keeps s (lineBusy b s) := by
  refine keeps_of_queue (sameNotes_of_blocks ?_ (lineBusy_run b s) ?_) fun sound => queueSound_lineBusy sound b
  all_goals simp only [lineBusy_frame]

theorem keeps_announceTimerExpiry (s : State) : Keeps s (announceTimerExpiry s) := by
  unfold announceTimerExpiry
  split
  · refine Keeps.trans ?_ (keeps_requestStatus _)
    exact ⟨fun sound => storeSound_congr sound ⟨rfl, rfl, rfl, rfl, rfl⟩, fun sound => queueSound_congr sound rfl rfl id⟩
  · exact .refl s

theorem keeps_peerAbsent (p : Fin 8) (s : State) : Keeps s (peerAbsent p s) := by
  have lost (u : State) : Keeps u (loseOrigin p u) := by apply keeps_of_blocks <;> simp only [loseOrigin_frame]
  unfold peerAbsent
  split
  · refine Keeps.trans ?_ (lost _)
    exact ⟨fun sound => storeSound_congr sound ⟨rfl, rfl, rfl, rfl, rfl⟩, fun sound => queueSound_congr sound rfl rfl id⟩
  · exact .refl s

/-! ### A received frame (R97, R98) -/

theorem keeps_raiseIf (c : Bool) (k : Notice) (s : State) : Keeps s (raiseIf c k s) := by
  apply keeps_of_blocks <;> simp only [raiseIf_frame]

theorem keeps_countError (s : State) : Keeps s (countError s) :=
  ⟨fun sound => storeSound_congr sound ⟨rfl, rfl, rfl, rfl, rfl⟩, fun sound => queueSound_congr sound rfl rfl id⟩

theorem keeps_stationClash (s : State) : Keeps s (stationClash s) :=
  ⟨fun sound => storeSound_congr sound ⟨rfl, rfl, rfl, rfl, rfl⟩, fun _ => queueSound_stationClash s⟩

theorem keeps_peerHeard (p : Fin 8) (s : State) : Keeps s (peerHeard p s) := by
  unfold peerHeard
  dsimp only
  refine Keeps.trans ?_ (keeps_raiseIf _ _ _)
  exact ⟨fun sound => storeSound_congr sound ⟨rfl, rfl, rfl, rfl, rfl⟩, fun sound => queueSound_congr sound rfl rfl id⟩

/-- The link behind a note of a peer differs in the peers' entries alone. -/
def PeersAlone (s t : State) : Prop := ∃ peers, t.link = { s.link with peers := peers }

theorem PeersAlone.trans {s t u : State} (first : PeersAlone s t) (second : PeersAlone t u) : PeersAlone s u := by
  obtain ⟨_, first⟩ := first
  obtain ⟨peers, second⟩ := second
  exact ⟨peers, by rw [second, first]⟩

theorem peersAlone_of_link {s t : State} (link : t.link = s.link) : PeersAlone s t := ⟨s.link.peers, link⟩

theorem peersAlone_applyRun (p : Fin 8) (run : Nat) (s : State) : PeersAlone s (applyRun p run s) := by
  rw [applyRun_eq]
  exact ⟨_, rfl⟩

theorem peersAlone_setHeard (p : Fin 8) (u : Nat) (s : State) : PeersAlone s (setHeard p u s) := by
  unfold setHeard
  dsimp only
  split
  · exact ⟨_, rfl⟩
  · exact ⟨_, rfl⟩

theorem peersAlone_rejectNote (p : Fin 8) (seq : Nat) (s : State) : PeersAlone s (rejectNote p seq s) := by
  unfold rejectNote
  dsimp only
  split
  · refine PeersAlone.trans ?_ (peersAlone_setHeard p _ _)
    exact peersAlone_of_link rfl
  · exact peersAlone_of_link rfl

theorem peersAlone_acceptNote (p : Fin 8) (n : Note) (s : State) : PeersAlone s (acceptNote p n s) := by
  unfold acceptNote
  dsimp only
  split
  · exact peersAlone_of_link rfl
  · split
    · refine PeersAlone.trans ?_ (peersAlone_setHeard p _ _)
      exact peersAlone_of_link (by simp only [raise_link, tryAttach_frame, storeNote_link])
    · exact peersAlone_of_link rfl

theorem peersAlone_takeNote (p : Fin 8) (payload : List Byte) (s : State) : PeersAlone s (takeNote p payload s) := by
  have entered := peersAlone_applyRun p (field payload 0 2) s
  unfold takeNote takePeerNote
  dsimp only
  split
  · exact entered
  · split
    · exact entered.trans (peersAlone_rejectNote p _ _)
    · split
      · exact entered.trans (peersAlone_acceptNote p _ _)
      · exact entered.trans (peersAlone_rejectNote p _ _)

theorem peersAlone_takeGone (p : Fin 8) (payload : List Byte) (s : State) : PeersAlone s (takeGone p payload s) := by
  unfold takeGone
  dsimp only
  split
  · exact peersAlone_of_link rfl
  · refine PeersAlone.trans ?_ (peersAlone_setHeard p _ _)
    exact peersAlone_of_link (by simp only [raiseIf_frame])

theorem queueSound_of_peersAlone {s t : State} (sound : QueueSound s) (alone : PeersAlone s t) : QueueSound t := by
  obtain ⟨peers, link⟩ := alone
  refine queueSound_congr sound ?_ ?_ fun sending => ?_
  all_goals rw [link]
  exact sending

theorem queueSound_takeStatus {s : State} (sound : QueueSound s) (p : Fin 8) (payload : List Byte) (arrival : Nat) :
    QueueSound (takeStatus p payload arrival s) := by
  have entered : QueueSound (applyStatus p (readStatusPayload payload) arrival s) := by
    rw [applyStatus_eq]
    exact (keeps_raiseIf _ _ _).queue (queueSound_setPeer sound p _)
  unfold takeStatus
  dsimp only
  refine queueSound_testCatchUp ?_ p _
  split
  · exact queueSound_of_link entered (by simp only [takeAnnouncement_frame])
  · exact entered

theorem keeps_handOn {p : Fin 8} {s : State} (run : s.port.phase = .run) (peer : p ≠ s.port.station) (kind : Byte)
    (payload : List Byte) (arrival : Nat) : Keeps s (handOn kind p payload arrival s) := by
  unfold handOn
  split
  · exact ⟨fun sound => storeSound_congr sound (sameNotes_takeStatus p payload arrival s),
      fun sound => queueSound_takeStatus sound p payload arrival⟩
  · exact ⟨fun sound => storeSound_takeNote sound run peer payload,
      fun sound => queueSound_of_peersAlone sound (peersAlone_takeNote p payload s)⟩
  · exact ⟨fun sound => storeSound_congr sound (sameNotes_takeRequest payload s),
      fun sound => queueSound_takeRequest sound payload⟩
  · exact ⟨fun sound => storeSound_congr sound (sameNotes_takeGone p payload s),
      fun sound => queueSound_of_peersAlone sound (peersAlone_takeGone p payload s)⟩

theorem keeps_processFrame {s : State} (run : s.port.phase = .run) (kind : Byte) (f : HeardFrame) (arrival : Nat) :
    Keeps s (processFrame kind f arrival s) := by
  unfold processFrame
  split
  case isTrue => exact keeps_countError s
  case isFalse valid =>
    split
    case isTrue => exact keeps_stationClash s
    case isFalse other =>
      have sender : f.sender.toNat < 8 := by
        simp only [frameValid, Bool.not_eq_true', Bool.not_eq_false, Bool.and_eq_true, decide_eq_true_eq] at valid
        exact valid.1.1.2
      have peer : Fin.ofNat 8 f.sender.toNat ≠ s.port.station := fun same =>
        other ((Nat.mod_eq_of_lt sender).symm.trans (congrArg Fin.val same))
      have port : (peerHeard (Fin.ofNat 8 f.sender.toNat) s).port = s.port := by simp only [peerHeard_frame]
      exact (keeps_peerHeard _ s).trans (keeps_handOn (port ▸ run) (port ▸ peer) kind f.payload arrival)

theorem keeps_endReception {s : State} (run : s.port.phase = .run) : Keeps s (endReception s) := by
  have ready : Keeps s { s with link := { s.link with receiver := .ready } } :=
    ⟨fun sound => storeSound_congr sound ⟨rfl, rfl, rfl, rfl, rfl⟩, fun sound => queueSound_congr sound rfl rfl id⟩
  unfold endReception
  dsimp only
  split
  · split
    · refine ready.trans (keeps_processFrame ?_ _ _ _)
      exact run
    · exact ready.trans (keeps_countError _)
  · exact ready.trans (keeps_countError _)
  · exact ready

theorem keeps_lineIdle (s : State) : Keeps s (lineIdle s) := by
  unfold lineIdle
  split
  case isTrue rests =>
    simp only [mayRest, Bool.and_eq_true, inRun_iff] at rests
    obtain ⟨⟨run, -⟩, -⟩ := rests
    have idle : Keeps s (becomeIdle s) :=
      ⟨fun sound => storeSound_congr sound ⟨rfl, rfl, rfl, rfl, rfl⟩, queueSound_becomeIdle⟩
    exact (idle.trans (keeps_endReception run)).trans (keeps_finish s _)
  case isFalse => exact .refl s

theorem keeps_receiveFrame (kind : Byte) (f : HeardFrame) (s : State) : Keeps s (receiveFrame kind f s) := by
  unfold receiveFrame
  split
  · refine Keeps.trans ?_ (keeps_lineIdle _)
    exact ⟨fun sound => storeSound_congr sound ⟨rfl, rfl, rfl, rfl, rfl⟩, fun sound => queueSound_hearFrame sound kind f⟩
  · exact .refl s

/-! ### The host's commands (R177, R178) -/

theorem keeps_hostCommand {α : Type} {p : TakenIn} {operands : Option α} {act : α → State → State} {s : State}
    (taken : ∀ a, takenNow p s.port.phase = true → Keeps s (act a s)) : Keeps s (hostCommand p operands act s) := by
  unfold hostCommand
  split
  case isTrue phase =>
    split
    case h_1 a => exact taken a phase
    case h_2 => exact keeps_respond _ _ s
  case isFalse => exact keeps_respond _ _ s

theorem keeps_configureClock (a : ClockArgs) (s : State) : Keeps s (configureClock a s) := by
  unfold configureClock
  split
  · split <;> exact keeps_of_desk rfl
  · exact keeps_respond _ _ s

theorem keeps_configureTrack (a : TrackArgs) (s : State) : Keeps s (configureTrack a s) := by
  unfold configureTrack
  split
  · split <;> exact keeps_of_desk rfl
  · exact keeps_respond _ _ s

theorem keeps_configureCapture (a : CaptureArgs) (s : State) : Keeps s (configureCapture a s) := by
  unfold configureCapture
  split
  · split
    · exact ⟨fun sound => storeSound_congr sound ⟨rfl, rfl, rfl, rfl, rfl⟩, fun sound => queueSound_congr sound rfl rfl id⟩
    · exact keeps_respond _ _ s
  · exact keeps_respond _ _ s

theorem keeps_configureMedia (a : Nat × Nat) (s : State) : Keeps s (configureMedia a s) := by
  unfold configureMedia
  split <;> exact keeps_of_desk rfl

/-- The run number is set in SETUP, where the store is empty (R104, R132). -/
theorem keeps_setRunNumber {s : State} (setup : s.port.phase = .setup) (n : Nat) : Keeps s (setRunNumber n s) := by
  refine ⟨fun sound => storeSound_of_empty ?_, fun sound => ?_⟩
  · simp only [setRunNumber_frame, sound.quiet setup]
  · unfold setRunNumber
    split <;> exact queueSound_congr sound rfl rfl id

/-- COMMIT finds the store empty and asks for the first STATUS (R132, R180). -/
theorem keeps_commit {s : State} (setup : s.port.phase = .setup) (u : Unit) : Keeps s (commit u s) := by
  refine ⟨fun sound => storeSound_of_empty ?_, fun sound => ?_⟩
  · simp only [commit_frame, sound.quiet setup]
  · unfold commit
    split
    · refine (keeps_respond _ _ _).queue (queueSound_requestStatus ?_)
      refine queueSound_congr sound ?_ ?_ fun sending => ?_
      all_goals simp only [setSpace_frame]
      exact sending
    · exact (keeps_respond _ _ s).queue sound

theorem keeps_setTrim (a : Nat × Nat) (s : State) : Keeps s (setTrim a s) := by
  unfold setTrim
  split <;> exact keeps_of_desk rfl

theorem keeps_setGate (a : Nat × GateSettings) (s : State) : Keeps s (setGate a s) := by
  unfold setGate
  split <;> exact keeps_of_desk rfl

theorem keeps_setScene (name : Text) (s : State) : Keeps s (setScene name s) := by
  refine Keeps.trans ?_ (keeps_announceChange s _)
  exact keeps_of_desk rfl

theorem keeps_setNextTake (n : Nat) (s : State) : Keeps s (setNextTake n s) := by
  refine Keeps.trans ?_ (keeps_announceChange s _)
  exact keeps_of_desk rfl

theorem keeps_jamTimecode (a : Nat × Nat × Nat × Nat) (s : State) : Keeps s (jamTimecode a s) := by
  unfold jamTimecode
  dsimp only
  split_ifs <;> exact keeps_of_desk rfl

theorem keeps_setCue (a : Nat × Nat) (s : State) : Keeps s (setCue a s) := by
  unfold setCue
  split
  · split_ifs <;> exact keeps_of_desk rfl
  · exact keeps_respond _ _ s

theorem keeps_cancelCue (u : Unit) (s : State) : Keeps s (cancelCue u s) := by
  unfold cancelCue
  split <;> exact keeps_of_desk rfl

theorem keeps_clearClip (u : Unit) (s : State) : Keeps s (clearClip u s) := by
  unfold clearClip
  split <;> exact keeps_of_desk rfl

theorem keeps_mediaRetry (u : Unit) (s : State) : Keeps s (mediaRetry u s) := by
  unfold mediaRetry
  split_ifs <;> exact keeps_of_desk rfl

theorem keeps_answerRead (data : Option (List Byte)) (s : State) : Keeps s (answerRead data s) := by
  unfold answerRead
  split <;> exact keeps_respond _ _ s

theorem keeps_setNoticeMask (v : Nat) (s : State) : Keeps s (setNoticeMask v s) := by
  unfold setNoticeMask
  split <;> exact keeps_of_desk rfl

theorem keeps_ackNotices (v : Nat) (s : State) : Keeps s (ackNotices v s) := by
  unfold ackNotices
  split <;> exact keeps_of_desk rfl

/-- A local note joins the store with the next own sequence, and the queue as a NOTE frame (R93, R126 to R128). -/
theorem keeps_addNote {s : State} (run : s.port.phase = .run) (a : NoteArgs) : Keeps s (addNote a s) := by
  unfold addNote
  split
  case h_1 n added =>
    obtain ⟨kind, attach, -, -, -, -, -, room, rfl⟩ := noteToAdd_ok added
    refine Keeps.trans (t := finish s _) (Keeps.trans ⟨fun sound => ?_, fun sound => ?_⟩ (keeps_finish s _))
      (keeps_respond _ _ _)
    · exact storeSound_storeLocal sound run room
    · refine queueSound_queueFrame ?_ nofun
      exact queueSound_of_link sound (by simp only [tryAttach_frame, storeNote_link])
  case h_2 => exact keeps_respond _ _ s

/-! ### Every step (R93, R94, R126, R129) -/

theorem exec_keeps {i : Instr} {s t : State} (executed : exec i s = .next t) : Keeps s t := by
  have next {u : State} (kept : Keeps s u) (answered : Host.Outcome.next u = (.next t : Host.Outcome State Fault Refusal)) :
      Keeps s t :=
    Host.Outcome.next.inj answered ▸ kept
  have either {c : Prop} [Decidable c] {u : State} (kept : Keeps s u)
      (answered : Host.Outcome.next (if c then u else s) = (.next t : Host.Outcome State Fault Refusal)) : Keeps s t := by
    refine next ?_ answered
    split
    · exact kept
    · exact .refl s
  have host {α : Type} {p : TakenIn} {operands : Option α} {act : α → State → State}
      (taken : ∀ a, takenNow p s.port.phase = true → Keeps s (act a s))
      (answered : Host.Outcome.next (hostCommand p operands act s) = (.next t : Host.Outcome State Fault Refusal)) :
      Keeps s t :=
    next (keeps_hostCommand taken) answered
  cases i with
  | powerOn strap => exact next (keeps_restart strap s) executed
  | reset strap => exact next (keeps_restart strap s) executed
  | frameArrival f => exact next (keeps_arriveFrame f s) executed
  | returnToHigh track f => exact either (keeps_arriveFrame f s) executed
  | cueFire f => exact either (keeps_arriveFrame f s) executed
  | awaitedStop f => exact either (keeps_arriveFrame f s) executed
  | postRollComplete f => exact either (keeps_arriveFrame f s) executed
  | halfDayStop f => exact either (keeps_arriveFrame f s) executed
  | blockEnd f => exact either (keeps_arriveFrame f s) executed
  | pendingStartPromotion => exact either (keeps_promote .afterFrame s) executed
  | clockLost => exact next (keeps_clockLost s) executed
  | referencePulse => exact next (keeps_referencePulse s) executed
  | recordKey => exact next (keeps_recordKey s) executed
  | successfulCompletion => exact next (keeps_successfulCompletion s) executed
  | failedCompletion => exact next (keeps_failedCompletion s) executed
  | writeIssue => exact next (keeps_makeDecision s) executed
  | lineIdle => exact next (keeps_lineIdle s) executed
  | deferralExpiry => exact next (keeps_deferralExpiry s) executed
  | successfulSend => exact next (keeps_successfulSend s) executed
  | collision => exact next (keeps_collision s) executed
  | announceTimerExpiry => exact next (keeps_announceTimerExpiry s) executed
  | peerAbsent p => exact next (keeps_peerAbsent p s) executed
  | statusFrame f => exact next (keeps_receiveFrame _ f s) executed
  | noteFrame f => exact next (keeps_receiveFrame _ f s) executed
  | noteRequestFrame f => exact next (keeps_receiveFrame _ f s) executed
  | noteGoneFrame f => exact next (keeps_receiveFrame _ f s) executed
  | configureClock args => exact host (fun a _ => keeps_configureClock a s) executed
  | configureTrack args => exact host (fun a _ => keeps_configureTrack a s) executed
  | configureCapture args => exact host (fun a _ => keeps_configureCapture a s) executed
  | configureMedia args => exact host (fun a _ => keeps_configureMedia a s) executed
  | setRunNumber args => exact host (fun n taken => keeps_setRunNumber (setup_of_takenNow taken) n) executed
  | commit args => exact host (fun u taken => keeps_commit (setup_of_takenNow taken) u) executed
  | setTrim args => exact host (fun a _ => keeps_setTrim a s) executed
  | setGate args => exact host (fun a _ => keeps_setGate a s) executed
  | setScene args => exact host (fun name _ => keeps_setScene name s) executed
  | setNextTake args => exact host (fun n _ => keeps_setNextTake n s) executed
  | jamTimecode args => exact host (fun a _ => keeps_jamTimecode a s) executed
  | start args => exact host (fun _ _ => (keeps_start _ _ s).trans (keeps_respond _ _ _)) executed
  | stop args => exact host (fun _ _ => (keeps_stop s).trans (keeps_respond _ _ _)) executed
  | addNote args => exact host (fun a taken => keeps_addNote ((inRun_iff s).mp (inRun_of_takenNow taken)) a) executed
  | setCue args => exact host (fun a _ => keeps_setCue a s) executed
  | cancelCue args => exact host (fun u _ => keeps_cancelCue u s) executed
  | clearClip args => exact host (fun u _ => keeps_clearClip u s) executed
  | mediaRetry args => exact host (fun u _ => keeps_mediaRetry u s) executed
  | captureRestart args => exact host (fun u _ => keeps_captureRestart u s) executed
  | readStatus args => exact host (fun _ _ => keeps_answerRead _ s) executed
  | readSlot args => exact host (fun _ _ => keeps_answerRead _ s) executed
  | readPeer args => exact host (fun _ _ => keeps_answerRead _ s) executed
  | readNote args => exact host (fun _ _ => keeps_answerRead _ s) executed
  | readClip args => exact host (fun _ _ => keeps_answerRead _ s) executed
  | readNotices args => exact host (fun _ _ => keeps_answerRead _ s) executed
  | setNoticeMask args => exact host (fun v _ => keeps_setNoticeMask v s) executed
  | ackNotices args => exact host (fun v _ => keeps_ackNotices v s) executed
  | unknownCommand code args => exact either (keeps_respond _ _ s) executed
  | responseRead => exact next (keeps_responseRead s) executed
  | lineBusy b => exact next (keeps_lineBusy b s) executed
  | selectionReleased received => exact next (.refl s) executed

theorem step_keeps {s t : State} (stepped : Machine.step s = .next t) : Keeps s t := by
  unfold Machine.step at stepped
  split at stepped
  case h_1 =>
    cases stepped
    apply keeps_of_blocks <;> simp only [tick_frame]
  case h_2 i rest _ =>
    refine Keeps.trans ?_ (exec_keeps stepped)
    exact keeps_of_desk rfl

/-- Settles O59: an own note carries the next sequence and a peer's note joins only under an identity not held; a STATUS is queued
where none is, or owed to a place that the head frame frees. -/
theorem storeAndQueueStaySound : Obligations.StoreAndQueueStaySound := by
  unfold Obligations.StoreAndQueueStaySound
  exact ⟨fun _ _ sound stepped => (step_keeps stepped).store sound, fun _ _ sound stepped => (step_keeps stepped).queue sound⟩

end Sys2Proof.Proofs
end

section
/-! PROOFS. Notes and takes: the slot started most recently of those that meet a test, the effect of a note on a take record, and the
slot that a note attaches to (R127, R133 to R135). -/

namespace Sys2Proof.Proofs

open Sys2Proof Sys2Proof.Machine Sys2Proof.Safety

/-! ### The slot started most recently (R127, R133) -/

/-- The age of the take in a slot that meets the test. -/
def candidate (p : Fin 3 → Take → Bool) (s : State) (i : Fin 3) : Option Nat :=
  (s.takes.slots[i].filter (p i)).map (startAge s)

/-- The better of the best slot so far and the next one. -/
def preferred (better : Nat → Nat → Bool) (best : Option (Fin 3 × Nat)) (i : Fin 3) (age : Option Nat) : Option (Fin 3 × Nat) :=
  match age, best with
  | none, best => best
  | some a, none => some (i, a)
  | some a, some (j, b) => if better a b then some (i, a) else some (j, b)

theorem bestSlot_eq (better : Nat → Nat → Bool) (p : Fin 3 → Take → Bool) (s : State) :
    bestSlot better p s =
      (preferred better (preferred better (preferred better none 0 (candidate p s 0)) 1 (candidate p s 1)) 2
        (candidate p s 2)).map Prod.fst := by
  have consider (best : Option (Fin 3 × Nat)) (i : Fin 3) :
      (match s.takes.slots[i] with
        | none => best
        | some t =>
          if p i t then
            match best with
            | none => some (i, startAge s t)
            | some (j, a) => if better (startAge s t) a then some (i, startAge s t) else some (j, a)
          else best) = preferred better best i (candidate p s i) := by
    unfold candidate preferred
    cases s.takes.slots[i] with
    | none => rfl
    | some t =>
      by_cases meets : p i t = true
      · rw [Option.filter_some_pos meets]
        cases best <;> simp only [meets, if_true, Option.map_some]
      · rw [Option.filter_some_neg (Bool.eq_false_iff.mpr meets)]
        simp only [meets, Bool.false_eq_true, if_false, Option.map_none]
  rw [← consider none 0, ← consider _ 1, ← consider _ 2]
  rfl

theorem candidate_of_meets {p : Fin 3 → Take → Bool} {s : State} {i : Fin 3} {u : Take} (holds : s.takes.slots[i] = some u)
    (meets : p i u = true) : candidate p s i = some (startAge s u) := by
  rw [candidate, holds, Option.filter_some_pos meets]
  rfl

theorem candidate_eq_some {p : Fin 3 → Take → Bool} {s : State} {i : Fin 3} {a : Nat} (best : candidate p s i = some a) :
    ∃ u, s.takes.slots[i] = some u ∧ p i u = true ∧ startAge s u = a := by
  obtain ⟨u, filtered, age⟩ := Option.map_eq_some_iff.mp best
  obtain ⟨holds, meets⟩ := Option.filter_eq_some_iff.mp filtered
  exact ⟨u, holds, meets, age⟩

/-- The slot started most recently, when one started after every other that meets the test. -/
theorem latestSlot_of_latest {p : Fin 3 → Take → Bool} {s : State} {i : Fin 3} {u : Take} (holds : s.takes.slots[i] = some u)
    (meets : p i u = true)
    (latest : ∀ j v, j ≠ i → s.takes.slots[j] = some v → p j v = true → startAge s u < startAge s v) :
    latestSlot p s = some i := by
  have own := candidate_of_meets holds meets
  have older (j : Fin 3) (other : j ≠ i) : ∀ b ∈ candidate p s j, startAge s u < b := by
    intro b best
    obtain ⟨v, held, meets, rfl⟩ := candidate_eq_some best
    exact latest j v other held meets
  have here (best : Option (Fin 3 × Nat)) (above : ∀ x ∈ best, startAge s u < x.2) :
      preferred (fun new old => new < old) best i (candidate p s i) = some (i, startAge s u) := by
    rw [own]
    cases best with
    | none => rfl
    | some x => exact if_pos (decide_eq_true (above x rfl))
  have behind (j : Fin 3) (other : j ≠ i) :
      preferred (fun new old => new < old) (some (i, startAge s u)) j (candidate p s j) = some (i, startAge s u) := by
    cases best : candidate p s j with
    | none => rfl
    | some b => exact if_neg fun less => Nat.lt_asymm (of_decide_eq_true less) (older j other b best)
  have before (j : Fin 3) (other : j ≠ i) (best : Option (Fin 3 × Nat)) (above : ∀ x ∈ best, startAge s u < x.2) :
      ∀ x ∈ preferred (fun new old => new < old) best j (candidate p s j), startAge s u < x.2 := by
    cases age : candidate p s j with
    | none => exact above
    | some b =>
      have later := older j other b age
      cases best with
      | none => exact fun x same => Option.mem_some_iff.mp same ▸ later
      | some y =>
        intro x chosen
        change x ∈ (if _ then some (j, b) else some y) at chosen
        split at chosen
        · exact Option.mem_some_iff.mp chosen ▸ later
        · exact above x chosen
  rw [latestSlot, bestSlot_eq]
  have none_above : ∀ x ∈ (none : Option (Fin 3 × Nat)), startAge s u < x.2 := nofun
  match i, here, behind, before with
  | 0, here, behind, _ => rw [here none none_above, behind 1 (by decide), behind 2 (by decide)]; rfl
  | 1, here, behind, before => rw [here _ (before 0 (by decide) none none_above), behind 2 (by decide)]; rfl
  | 2, here, _, before =>
    rw [here _ (before 1 (by decide) _ (before 0 (by decide) none none_above))]; rfl

theorem bestSlot_eq_none {better : Nat → Nat → Bool} {p : Fin 3 → Take → Bool} {s : State}
    (noTake : ∀ (i : Fin 3) (u : Take), s.takes.slots[i] = some u → p i u = false) : bestSlot better p s = none := by
  cases best : bestSlot better p s with
  | none => rfl
  | some i =>
    obtain ⟨u, holds, meets⟩ := bestSlot_meets best
    cases (noTake i u holds).symm.trans meets

/-! ### The effect of a note on a take record (R133, R134) -/

theorem noteEffect_eq (n : Note) (u : Take) :
    ∃ flags tracks, noteEffect n u = { u with flags := flags, tracks := tracks } := by
  unfold noteEffect
  split
  · exact ⟨u.flags, u.tracks, rfl⟩
  · exact ⟨u.flags, u.tracks, rfl⟩
  · exact ⟨_, u.tracks, rfl⟩
  · exact ⟨_, u.tracks, rfl⟩
  · exact ⟨_, u.tracks, rfl⟩
  · split
    · exact ⟨u.flags, u.tracks, rfl⟩
    · exact ⟨u.flags, _, rfl⟩

/-- Of a take record a note changes references, flags and tracks alone. -/
theorem attachTo_eq (n : Note) (u : Take) :
    ∃ flags tracks, attachTo n u =
      { u with noteRefs := addReference n.id u.noteRefs, flags := flags, tracks := tracks } := by
  obtain ⟨flags, tracks, effect⟩ := noteEffect_eq n { u with noteRefs := addReference n.id u.noteRefs }
  exact ⟨flags, tracks, effect⟩

/-- The effect of a note's kind does not see the references. -/
theorem noteEffect_noteRefs (n : Note) (u : Take) (refs : List NoteId) :
    noteEffect n { u with noteRefs := refs } = { noteEffect n u with noteRefs := refs } := by
  unfold noteEffect
  split
  · rfl
  · rfl
  · rfl
  · rfl
  · rfl
  · split
    · rfl
    · rfl

theorem attachTo_noteRefs (n : Note) (u : Take) :
    (attachTo n u).noteRefs =
      if n.id ∈ u.noteRefs ∨ 32 ≤ u.noteRefs.length then u.noteRefs else u.noteRefs ++ [n.id] := by
  obtain ⟨flags, tracks, attached⟩ := attachTo_eq n u
  rw [attached]
  simp only [addReference, Bool.or_eq_true, List.contains_iff_mem, decide_eq_true_iff]
  rfl

theorem attachTo_without_reference (n : Note) (u : Take) : { attachTo n u with noteRefs := u.noteRefs } = noteEffect n u := by
  obtain ⟨flags, tracks, effect⟩ := noteEffect_eq n u
  rw [attachTo, noteEffect_noteRefs, effect]

theorem trackIndex_eq_some_iff (number : Nat) (i : Fin 16) : trackIndex number = some i ↔ number = i.val + 1 := by
  constructor
  · intro index
    unfold trackIndex at index
    split at index
    · cases index
      dsimp only
      omega
    · cases index
  · rintro rfl
    exact trackIndex_succ i

/-- A TRACK NAME names the track of its number, where that is a track with an entry (R134). -/
theorem noteEffect_trackName {n : Note} (kind : n.kind = .trackName) (u : Take) :
    noteEffect n u =
      { u with
        tracks :=
          Vector.ofFn fun k : Fin 16 =>
            if n.track = some (k.val + 1) then u.tracks[k].map fun x => { x with name := some (n.text.take 16) }
            else u.tracks[k] } := by
  have number (k : Fin 16) : n.track = some (k.val + 1) ↔ n.track.bind trackIndex = some k := by
    rw [Option.bind_eq_some_iff]
    exact ⟨fun track => ⟨_, track, trackIndex_succ k⟩,
      fun ⟨m, track, index⟩ => track.trans (congrArg some ((trackIndex_eq_some_iff m k).mp index))⟩
  simp only [noteEffect, kind, number]
  cases n.track.bind trackIndex with
  | none => simp
  | some i =>
    dsimp only
    congr 1
    refine Vector.ext fun k inRange => ?_
    rw [Vector.getElem_set, Vector.getElem_ofFn]
    by_cases same : i.val = k
    · subst same
      simp
    · have other : i ≠ ⟨k, inRange⟩ := fun equal => same (congrArg Fin.val equal)
      simp [same, other]

/-! ### The slot that a note attaches to (R133) -/

theorem eligible_iff (s : State) (n : Note) :
    eligible s n = true ↔ n.ref.isSome = true ∧
      (n.id.originator = s.port.station.val ∨ s.takes.followMask.getLsbD n.id.originator = true) := by
  simp only [eligible, Bool.and_eq_true, Bool.or_eq_true, beq_iff_eq]

theorem tryAttach_of_none {n : Note} {s : State} (alone : attachesTo n s = none) : tryAttach n s = s := by
  rw [tryAttach, alone]

theorem tryAttach_of_some {n : Note} {s : State} {i : Fin 3} {u : Take} (attaches : attachesTo n s = some i)
    (holds : s.takes.slots[i] = some u) : tryAttach n s = setSlot i (some (attachTo n u)) s := by
  rw [tryAttach, attaches]
  simp only [modifySlot, holds]

section

variable {s : State} {ref : Label} {i : Fin 3} {u : Take} (holds : s.takes.slots[i] = some u)
  (unissued : u.indexIssued = false)

include holds unissued

theorem matchingSlot_of_label (label : u.label = ref)
    (latest : ∀ j v, j ≠ i → s.takes.slots[j] = some v → v.indexIssued = false → v.label = ref →
      startAge s u < startAge s v) : matchingSlot s ref = some i := by
  have best : latestSlot (fun _ t => !t.indexIssued && t.label == ref) s = some i := by
    refine latestSlot_of_latest holds (by simp [unissued, label]) fun j v other held meets => ?_
    rw [Bool.and_eq_true, Bool.not_eq_true', beq_iff_eq] at meets
    exact latest j v other held meets.1 meets.2
  rw [matchingSlot, best]

theorem matchingSlot_of_former (former : ref ∈ u.former)
    (noLabel : ∀ (j : Fin 3) (v : Take), s.takes.slots[j] = some v → v.indexIssued = false → v.label ≠ ref)
    (latest : ∀ j v, j ≠ i → s.takes.slots[j] = some v → v.indexIssued = false → ref ∈ v.former →
      startAge s u < startAge s v) : matchingSlot s ref = some i := by
  have none : latestSlot (fun _ t => !t.indexIssued && t.label == ref) s = none := by
    refine bestSlot_eq_none fun j v held => ?_
    cases mark : v.indexIssued with
    | true => rfl
    | false => exact beq_eq_false_iff_ne.mpr (noLabel j v held mark)
  have best : latestSlot (fun _ t => !t.indexIssued && t.former.contains ref) s = some i := by
    refine latestSlot_of_latest holds (by simp [unissued, former]) fun j v other held meets => ?_
    rw [Bool.and_eq_true, Bool.not_eq_true', List.contains_iff_mem] at meets
    exact latest j v other held meets.1 meets.2
  rw [matchingSlot, none, best]

end

theorem matchingSlot_eq_none {s : State} {ref : Label}
    (noTake : ∀ (i : Fin 3) (u : Take), s.takes.slots[i] = some u → u.indexIssued = false → u.label ≠ ref ∧ ref ∉ u.former) :
    matchingSlot s ref = none := by
  have noLabel : latestSlot (fun _ t => !t.indexIssued && t.label == ref) s = none := by
    refine bestSlot_eq_none fun j v held => ?_
    cases mark : v.indexIssued with
    | true => rfl
    | false => exact beq_eq_false_iff_ne.mpr (noTake j v held mark).1
  have noFormer : latestSlot (fun _ t => !t.indexIssued && t.former.contains ref) s = none := by
    refine bestSlot_eq_none fun j v held => ?_
    cases mark : v.indexIssued with
    | true => rfl
    | false => simp [(noTake j v held mark).2]
  rw [matchingSlot, noLabel, noFormer]

/-! ### A STOP before a note (R135, R164) -/

theorem recordDecided_respond {s t : State} {i : Fin 3} {u v : Take} (decided : RecordDecided s t i u v) (c : ResponseCode)
    (data : List Byte) : RecordDecided s (respond c data t) i u v where
  decided := congrArg Host.Outcome.next (respond_stands (Host.Outcome.next.inj decided.decided))
  stays := decided.stays
  issued := decided.issued

theorem stop_leaves_labels {s : State} {i : Fin 3} {u : Take} (run : s.port.phase = .run) (isOpenSlot : openSlot s = some i)
    (holds : s.takes.slots[i] = some u) (rolling : u.phase = .rolling) :
    ∃ t v, exec (.stop []) s = .next t ∧ t.takes.slots[i] = some v ∧ v.label = u.label ∧ v.former = u.former ∧
      RecordDecided s t i u v := by
  have command : exec (.stop []) s = .next (respond .ok [] (finish s (stopTake i u s.counter.newest s))) := by
    rw [exec_stop run, stopCommand_of_localStop (localStop_of_openSlot isOpenSlot holds rolling), endRequest_ok]
  obtain ⟨-, -, label, -, -, -, -, mark⟩ := stoppedHere_fields s.counter.newest s.takes.postRoll u
  have former : (stoppedHere s.counter.newest s.takes.postRoll u).former = u.former := by
    unfold stoppedHere
    split <;> rfl
  have day : (stopTake i u s.counter.newest s).day = s.day := by rw [State.day, State.day, (stopTake_frame _ _ _ _).2.2.2.1]
  obtain ⟨_, slot, ⟨_, _, _, _, _, rfl⟩, decided⟩ :=
    finish_record s (stopTake_slot i u s) mark (by simp only [stopTake_frame]) day
  exact ⟨_, _, command, slot, label, former, recordDecided_respond decided _ _⟩

/-- Settles O23: the reference's slot is the latest by label, or by former label where no label matches, and the note's effect is
that of its kind; a STOP leaves the labels. -/
theorem notesAttachToTakes : Obligations.NotesAttachToTakes := by
  unfold Obligations.NotesAttachToTakes
  intro n s mine byLabel byFormer latest
  refine ⟨fun i u run isOpenSlot holds rolling => stop_leaves_labels run isOpenSlot holds rolling, fun alone => ?alone,
    fun ref carried own => ?carried⟩
  case alone =>
    refine tryAttach_of_none (if_neg ?_)
    rw [eligible_iff]
    rintro ⟨carried, own⟩
    rcases alone with none | other
    · rw [none] at carried
      cases carried
    · exact other own
  case carried =>
    have attaches : attachesTo n s = matchingSlot s ref := by
      rw [attachesTo, if_pos ((eligible_iff s n).mpr ⟨by rw [carried]; rfl, own⟩), carried, Option.bind_some]
    refine ⟨fun noTake => ?_, fun i u found => ?_⟩
    · refine tryAttach_of_none (attaches.trans (matchingSlot_eq_none fun i u holds unissued => ?_))
      obtain ⟨noLabel, noFormer⟩ := noTake i u
      exact ⟨fun label => noLabel ⟨holds, unissued, label⟩, fun former => noFormer ⟨holds, unissued, former⟩⟩
    · have slot : matchingSlot s ref = some i ∧ s.takes.slots[i] = some u := by
        rcases found with ⟨⟨holds, unissued, label⟩, best⟩ | ⟨noLabel, ⟨holds, unissued, former⟩, best⟩
        · exact ⟨matchingSlot_of_label holds unissued label fun j v other held unissued label =>
            best j v other ⟨held, unissued, label⟩, holds⟩
        · exact ⟨matchingSlot_of_former holds unissued former
            (fun j v held unissued label => noLabel j v ⟨held, unissued, label⟩)
            fun j v other held unissued former => best j v other ⟨held, unissued, former⟩, holds⟩
      obtain ⟨matching, holds⟩ := slot
      refine ⟨attachTo n u, tryAttach_of_some (attaches.trans matching) holds, attachTo_noteRefs n u,
        (attachTo_without_reference n u).trans ?_⟩
      cases kind : n.kind with
      | trackName => exact noteEffect_trackName kind u
      | _ => simp only [noteEffect, kind]

end Sys2Proof.Proofs
end

section
/-! PROOFS. A note that the store takes up: its contents, the place that it takes in the store, what it leaves of the announced state
and of the take records, and ADD NOTE (R89, R93, R127, R128, R131, R133). -/

namespace Sys2Proof.Proofs

open Sys2Proof Sys2Proof.Machine Sys2Proof.Safety

/-! ### The take that the attach option names (R127) -/

theorem attachLabel_of_open {s : State} {i : Fin 3} {u : Take} (isOpenSlot : openSlot s = some i)
    (holds : s.takes.slots[i] = some u) : attachLabel s = some u.label := by
  simp only [attachLabel, attachSlot, isOpenSlot, holds, Option.map_some]

theorem attachLabel_of_closing {s : State} {i : Fin 3} {u : Take} (noOpen : openSlot s = none)
    (holds : s.takes.slots[i] = some u) (closing : u.phase = .closing) (unissued : u.indexIssued = false)
    (latest : ∀ (j : Fin 3) (v : Take), j ≠ i → s.takes.slots[j] = some v → v.phase = .closing → v.indexIssued = false →
      startAge s u < startAge s v) : attachLabel s = some u.label := by
  have best : latestSlot (fun _ t => t.phase == .closing && !t.indexIssued) s = some i := by
    refine latestSlot_of_latest holds (by simp [closing, unissued]) fun j v other held meets => ?_
    rw [Bool.and_eq_true, Bool.not_eq_true', beq_iff_eq] at meets
    exact latest j v other held meets.1 meets.2
  simp only [attachLabel, attachSlot, noOpen, best, holds, Option.map_some]

theorem attachLabel_eq_none {s : State} (noOpen : openSlot s = none)
    (noTake : ∀ (i : Fin 3) (u : Take), s.takes.slots[i] = some u → u.phase = .closing → u.indexIssued = false → False) :
    attachLabel s = none := by
  have none : latestSlot (fun _ t => t.phase == .closing && !t.indexIssued) s = none := by
    refine bestSlot_eq_none fun i u holds => ?_
    rw [Bool.and_eq_false_iff, beq_eq_false_iff_ne, Bool.not_eq_false']
    by_cases closing : u.phase = .closing
    · exact .inr (Bool.not_eq_false _ ▸ noTake i u holds closing)
    · exact .inl closing
  simp only [attachLabel, attachSlot, noOpen, none]

/-! ### A note's contents (R125, R127, R136) -/

theorem contentsFit_iff (D : Nat) (kind : NoteKind) (ref : Option Label) (pos track : Option Nat) :
    contentsFit D kind ref pos track = true ↔
      (∀ n, track = some n → 1 ≤ n ∧ n ≤ 16) ∧ (∀ p, pos = some p → p < D) ∧
        (∀ label, ref = some label → 1 ≤ label.number ∧ label.number ≤ 999) ∧ (kind = .trackName → track ≠ none) ∧
        (kind = .mark → pos ≠ none) := by
  have onTrack : (match track with
      | some t => decide (1 ≤ t) && decide (t ≤ 16)
      | none => kind != .trackName) = true ↔
      (∀ n, track = some n → 1 ≤ n ∧ n ≤ 16) ∧ (kind = .trackName → track ≠ none) := by
    cases track <;> simp
  have atPosition : (match pos with
      | some p => decide (p < D)
      | none => kind != .mark) = true ↔ (∀ p, pos = some p → p < D) ∧ (kind = .mark → pos ≠ none) := by
    cases pos <;> simp
  have ofTake : (match ref with
      | some r => decide (1 ≤ r.number) && decide (r.number ≤ 999)
      | none => true) = true ↔ ∀ label, ref = some label → 1 ≤ label.number ∧ label.number ≤ 999 := by
    cases ref <;> simp
  unfold contentsFit
  rw [Bool.and_eq_true, Bool.and_eq_true]
  refine (and_congr (and_congr onTrack atPosition) ofTake).trans ?_
  constructor
  · rintro ⟨⟨⟨track, named⟩, pos, marked⟩, ref⟩
    exact ⟨track, pos, ref, named, marked⟩
  · rintro ⟨track, pos, ref, named, marked⟩
    exact ⟨⟨⟨track, named⟩, pos, marked⟩, ref⟩

/-! ### A note's place in the store (R131) -/

theorem evictOldest_append {older newer : List StoredNote} {x : StoredNote} (unwritten : ∀ y ∈ older, y.state ≠ .written)
    (written : x.state = .written) : evictOldest (older ++ x :: newer) = older ++ newer := by
  induction older with
  | nil => exact if_pos written
  | cons y older ih =>
    refine (if_neg (unwritten y (List.mem_cons_self ..))).trans ?_
    exact congrArg (y :: ·) (ih fun z member => unwritten z (List.mem_cons_of_mem y member))

/-- The notes that stay in the store when one joins: all while it is not full, and all but the oldest WRITTEN one in a full one. -/
def StayInStore (s : State) (kept : List StoredNote) : Prop :=
  (s.store.notes.length < 256 ∧ kept = s.store.notes) ∨
    (256 ≤ s.store.notes.length ∧ ∃ older x newer, s.store.notes = older ++ x :: newer ∧
      x.state = .written ∧ (∀ y ∈ older, y.state ≠ .written) ∧ kept = older ++ newer)

theorem StayInStore.room {s : State} {kept : List StoredNote} (stay : StayInStore s kept) :
    storeHasRoom s = true ∧ keptNotes s = kept := by
  rw [storeHasRoom_iff, keptNotes]
  rcases stay with ⟨free, rfl⟩ | ⟨full, older, x, newer, notes, written, unwritten, rfl⟩
  · exact ⟨.inl free, if_pos free⟩
  · refine ⟨.inr ⟨x, ?_, written⟩, (if_neg (Nat.not_lt.mpr full)).trans ?_⟩
    · rw [notes]
      exact List.mem_append_right older (List.mem_cons_self ..)
    · rw [notes]
      exact evictOldest_append unwritten written

theorem storeHasRoom_of_full {s : State} (full : 256 ≤ s.store.notes.length)
    (unwritten : ∀ x ∈ s.store.notes, x.state ≠ .written) : storeHasRoom s = false := by
  rw [Bool.eq_false_iff, ne_eq, storeHasRoom_iff]
  rintro (free | ⟨x, member, written⟩)
  · exact Nat.not_lt.mpr full free
  · exact unwritten x member written

/-! ### What a note leaves of the announced state and of the records (R58, R95, R160) -/

/-- What is announced of the open take. -/
def announcedOf (u : Take) : TakePhase × Label × Nat × Nat × Option Nat := (u.phase, u.label, u.origin, u.sr, u.e)

theorem announcedState_congr {s t : State}
    (takes : ∀ i : Fin 3, t.takes.slots[i].map announcedOf = s.takes.slots[i].map announcedOf)
    (pendingStart : t.takes.pendingStart = s.takes.pendingStart) (scene : t.takes.scene = s.takes.scene)
    (nextTake : t.takes.nextTake = s.takes.nextTake) (port : t.port = s.port)
    (capture : t.writer.capture = s.writer.capture) : announcedState t = announcedState s := by
  have phaseOf (w : Option Take) : isOpen w = (w.map announcedOf).any fun x => x.1 == .rolling || x.1 == .post := by
    cases w <;> rfl
  have sameOpen : openSlot t = openSlot s := openSlot_congr fun i => by rw [phaseOf, takes i, ← phaseOf]
  have sameTake : (openTake t).map announcedOf = (openTake s).map announcedOf := by
    unfold openTake
    rw [sameOpen]
    split
    · exact takes _
    · rfl
  unfold announcedState takeFields enginePhase
  rw [pendingStart, scene, nextTake, port, capture]
  cases inT : openTake t with
  | none =>
    rw [inT] at sameTake
    rw [Option.map_eq_none_iff.mp sameTake.symm]
  | some v =>
    rw [inT] at sameTake
    obtain ⟨u, inS, same⟩ := Option.map_eq_some_iff.mp sameTake.symm
    simp only [announcedOf, Prod.mk.injEq] at same
    obtain ⟨phase, label, origin, sr, e⟩ := same
    simp only [inS, Option.bind_some, phase, e]
    cases v.phase == .rolling <;> simp only [label, origin, sr, e, if_true, if_false, Bool.false_eq_true]

/-- What the writer settles at the end of an event is not announced. -/
theorem announcedState_settle (s : State) : announcedState (settle s) = announcedState s :=
  (LeavesTakes.announcesAlike (before := s) ⟨rfl, rfl, rfl⟩).announcedState

/-- An event that leaves the announced state requests no STATUS at its end. -/
theorem finish_link_of_announced {before after : State} (same : announcedState after = announcedState before) :
    (finish before after).link = after.link := by
  simp only [finish, makeDecision_frame, announceChange_of_eq (same.symm.trans (announcedState_settle after).symm), settle_frame]

/-- The end of an event leaves of each record what the accounts do not change. -/
theorem finish_slots_map {α : Type} {f : Take → α} (blind : ∀ u v, Accounts u v → f v = f u) (before after : State)
    (i : Fin 3) : (finish before after).takes.slots[i].map f = after.takes.slots[i].map f := by
  cases holds : after.takes.slots[i] with
  | none => rw [(revises_finish before after).empty holds]
  | some u =>
    obtain ⟨v, held, accounts⟩ := HoldsAccounted.finish before (holdsAccounted_of_eq holds)
    rw [held, Option.map_some, Option.map_some, blind u v accounts]

/-- A note attaches by the port, the slots, the serials and the follow mask. -/
theorem attachesTo_congr {s t : State} (port : t.port = s.port) (takes : t.takes = s.takes) (n : Note) :
    attachesTo n t = attachesTo n s := by
  have age : startAge t = startAge s := by
    funext u
    rw [startAge, startAge, takes]
  have matching : matchingSlot t = matchingSlot s := by
    funext ref
    simp only [matchingSlot, latestSlot, bestSlot, age, takes]
  unfold attachesTo eligible
  rw [matching, port, takes]

theorem tryAttach_takes {s t : State} (port : t.port = s.port) (takes : t.takes = s.takes) (n : Note) :
    (tryAttach n t).takes = (tryAttach n s).takes := by
  unfold tryAttach
  rw [attachesTo_congr port takes]
  split
  · unfold modifySlot
    rw [takes]
    split
    · exact takes
    · simp only [setSlot, takes]
  · exact takes

/-- An attachment changes the takes alone. -/
theorem tryAttach_eq (n : Note) (s : State) : tryAttach n s = { s with takes := (tryAttach n s).takes } := by
  unfold tryAttach
  split
  · unfold modifySlot
    split
    · rfl
    · rfl
  · rfl

theorem tryAttach_slotsAlone (n : Note) (s : State) : SlotsAlone s (tryAttach n s) := by
  unfold tryAttach
  split
  · exact slotsAlone_modifySlot _ _ s
  · exact .refl s

theorem tryAttach_announcedOf (n : Note) (s : State) (i : Fin 3) :
    (tryAttach n s).takes.slots[i].map announcedOf = s.takes.slots[i].map announcedOf := by
  unfold tryAttach
  split
  · rw [modifySlot_slots]
    split
    · rw [Option.map_map]
      refine congrArg (Option.map · _) (funext fun u => ?_)
      obtain ⟨flags, tracks, attached⟩ := attachTo_eq n u
      rw [Function.comp_apply, attached]
      rfl
    · rfl
  · rfl

/-- An attachment is not announced (R95, R133, R134). -/
theorem announcedState_of_tryAttach {s t : State} {n : Note} (takes : t.takes = (tryAttach n s).takes) (port : t.port = s.port)
    (writer : t.writer = s.writer) : announcedState t = announcedState s := by
  have alone := tryAttach_slotsAlone n s
  refine announcedState_congr (fun i => ?_) ?_ ?_ ?_ port (congrArg Writer.capture writer)
  · rw [takes]
    exact tryAttach_announcedOf n s i
  · rw [takes, alone.pendingStart]
  · rw [takes, alone.scene]
  · rw [takes, alone.nextTake]

/-! ### A frame that joins the queue (R89, R93) -/

theorem queueFrame_of_inactive {f : TxFrame} {s : State} (inactive : linkActive s = false) : queueFrame f s = s := by
  rw [queueFrame, inactive]
  rfl

theorem queueFrame_of_room {f : TxFrame} {s : State} (active : linkActive s = true) (room : s.link.queue.length < 8) :
    queueFrame f s = appendEntry f s := by
  rw [queueFrame, active, if_neg (by decide)]
  exact if_pos room

theorem queueFrame_of_full {f : TxFrame} {s : State} (active : linkActive s = true) (full : 8 ≤ s.link.queue.length) :
    queueFrame f s =
      { s with
        link := { s.link with counts := { s.link.counts with refused := min 65535 (s.link.counts.refused + 1) } } } := by
  rw [queueFrame, active, if_neg (by decide)]
  exact if_neg (Nat.not_lt.mpr full)

/-- The first bullet of R89 for a frame that reaches the head of an empty queue in STANDBY. -/
theorem appendEntry_of_standby (f : TxFrame) {s : State} (empty : s.link.queue = []) (standby : s.link.tx = .standby) :
    (s.link.line ≠ .idle → (appendEntry f s).link.tx = .waitIdle) ∧
      (s.link.line = .idle → s.time < s.link.idleFrom + deferral s → (appendEntry f s).link.tx = .defer) ∧
      (s.link.line = .idle → s.link.idleFrom + deferral s ≤ s.time →
        (appendEntry f s).link.tx = .send ∧ (appendEntry f s).link.attemptFrom = s.time ∧
          (appendEntry f s).link.line = .busy ∧
          (appendEntry f s).link.sending =
            frameBytes (byte f.code) (byte s.port.station.val)
              (txPayload { s with link := { s.link with queue := s.link.queue ++ [{ frame := f, attempts := 0 }] } } f)) := by
  have joined : s.link.queue ++ [({ frame := f, attempts := 0 } : TxEntry)] = [{ frame := f, attempts := 0 }] := by
    rw [empty, List.nil_append]
  unfold appendEntry
  rw [joined]
  generalize waits : { s with link := { s.link with queue := [({ frame := f, attempts := 0 } : TxEntry)] } } = w
  have waiting : w.link.queue ≠ [] := by
    rw [← waits]
    nofun
  have head : w.link.queue = [{ frame := f, attempts := 0 }] := by rw [← waits]
  have stands : w.link.tx = .standby ∧ w.link.line = s.link.line ∧ w.time = s.time ∧ w.link.idleFrom = s.link.idleFrom ∧
      deferral w = deferral s ∧ w.port = s.port := by
    rw [← waits]
    exact ⟨standby, rfl, rfl, rfl, rfl, rfl⟩
  obtain ⟨standby, sameLine, time, idleFrom, sameDeferral, port⟩ := stands
  rw [← sameLine, ← time, ← idleFrom, ← sameDeferral, ← port]
  refine ⟨fun line => ?_, fun line early => ?_, fun line rested => ?_⟩
  · rw [kickTransmitter_of_line_not_idle standby waiting line]
  · rw [kickTransmitter_of_early standby waiting line early]
  · rw [kickTransmitter_of_rested standby waiting line rested, beginAttempt_of_cons head]
    exact ⟨rfl, rfl, rfl, rfl⟩

/-! ### ADD NOTE (R127, R128) -/

theorem exec_addNote {s : State} {args : List Byte} {a : NoteArgs} (run : s.port.phase = .run)
    (read : readNoteArgs args = some a) : exec (.addNote args) s = .next (addNote a s) := by
  refine congrArg Host.Outcome.next ?_
  rw [read]
  exact hostCommand_taken a addNote (by rw [run]; rfl)

theorem answered_of_noteToAdd {s : State} {args : List Byte} {a : NoteArgs} {c : ResponseCode} (run : s.port.phase = .run)
    (read : readNoteArgs args = some a) (refused : noteToAdd a s = .error c) : Answered (.addNote args) c s := by
  rw [Answered, exec_addNote run read, addNote, refused]
  rfl

/-- The state in which a local note attaches and is queued: it stands in the store under the next own sequence. -/
def localStored (n : Note) (s : State) : State :=
  tryAttach n (storeNote n { s with store := { s.store with seq := s.store.seq + 1 } })

theorem localStored_eq (n : Note) (s : State) :
    localStored n s =
      { s with
        takes := (tryAttach n s).takes
        store :=
          { s.store with seq := s.store.seq + 1, notes := keptNotes s ++ [{ note := n, state := .pending }] } } := by
  have takes := tryAttach_takes (s := s) (t := storeNote n { s with store := { s.store with seq := s.store.seq + 1 } })
    rfl rfl n
  rw [localStored, tryAttach_eq, takes]
  rfl

section

variable (n : Note) (s : State)

theorem storeLocal_eq : storeLocal n s = queueFrame (.note n) (localStored n s) := rfl

theorem storeLocal_takes : (storeLocal n s).takes = (tryAttach n s).takes := by
  rw [storeLocal_eq]
  simp only [queueFrame_frame, localStored_eq]

theorem storeLocal_store :
    (storeLocal n s).store =
      { s.store with seq := s.store.seq + 1, notes := keptNotes s ++ [{ note := n, state := .pending }] } := by
  rw [storeLocal_eq]
  simp only [queueFrame_frame, localStored_eq]

theorem announcedState_storeLocal : announcedState (storeLocal n s) = announcedState s := by
  refine announcedState_of_tryAttach (storeLocal_takes n s) ?_ ?_
  all_goals simp only [storeLocal_frame]

end

/-! ### What ADD NOTE leaves (R128) -/

theorem noteToAdd_of_kind {a : NoteArgs} {s : State} {kind : NoteKind} {attach : Bool} (isKind : noteKindOf a.kind = some kind)
    (isOption : onOff a.attach = some attach) :
    noteToAdd a s =
      if contentsFit s.day kind a.raw.ref a.raw.pos a.raw.track = false then .error .badValue
      else if 65535 ≤ s.store.seq then .error .refused
      else if attach ∧ attachLabel s = none then .error .refused
      else if storeHasRoom s then .ok (localNote s kind (if attach then attachLabel s else a.raw.ref) a.raw)
      else .error .busy := by
  rw [noteToAdd, isKind, isOption]
  rfl

theorem noteToAdd_of_no_kind {a : NoteArgs} {s : State} (unread : noteKindOf a.kind = none ∨ onOff a.attach = none) :
    noteToAdd a s = .error .badValue := by
  unfold noteToAdd
  split
  case h_1 isKind isOption =>
    rcases unread with none | none
    · cases none.symm.trans isKind
    · cases none.symm.trans isOption
  case h_2 => rfl

theorem accounts_blind {u v : Take} (accounts : Accounts u v) :
    (v.noteRefs, v.flags, v.tracks) = (u.noteRefs, u.flags, u.tracks) := by
  obtain ⟨_, _, _, _, _, rfl⟩ := accounts
  rfl

section

variable {s : State} (n : Note)

theorem finish_storeLocal_link : (finish s (storeLocal n s)).link = (queueFrame (.note n) (localStored n s)).link :=
  finish_link_of_announced (announcedState_storeLocal n s)

theorem localStored_link : (localStored n s).link = s.link := by rw [localStored_eq]

theorem linkActive_localStored (run : s.port.phase = .run) (active : s.link.listenOnly = false) :
    linkActive (localStored n s) = true := by
  rw [linkActive_iff, localStored_eq]
  exact ⟨run, active⟩

theorem finish_storeLocal_of_listenOnly (listens : s.link.listenOnly = true) :
    (finish s (storeLocal n s)).link = s.link := by
  have inactive : linkActive (localStored n s) = false := by
    rw [linkActive, localStored_link, listens]
    exact Bool.and_false _
  rw [finish_storeLocal_link, queueFrame_of_inactive inactive, localStored_link]

theorem finish_storeLocal_of_room (run : s.port.phase = .run) (active : s.link.listenOnly = false)
    (room : s.link.queue.length < 8) :
    (finish s (storeLocal n s)).link = (appendEntry (.note n) (localStored n s)).link := by
  rw [finish_storeLocal_link, queueFrame_of_room (linkActive_localStored n run active) (by rw [localStored_link]; exact room)]

theorem finish_storeLocal_of_full (run : s.port.phase = .run) (active : s.link.listenOnly = false)
    (full : 8 ≤ s.link.queue.length) :
    (finish s (storeLocal n s)).link =
      { s.link with counts := { s.link.counts with refused := min 65535 (s.link.counts.refused + 1) } } := by
  rw [finish_storeLocal_link, queueFrame_of_full (linkActive_localStored n run active) (by rw [localStored_link]; exact full),
    localStored_link]

/-- The NOTE frame at the head of an empty queue in STANDBY (R89, R90). -/
theorem finish_storeLocal_of_standby (run : s.port.phase = .run) (active : s.link.listenOnly = false)
    (empty : s.link.queue = []) (standby : s.link.tx = .standby) :
    let t := finish s (storeLocal n s)
    let deferral := (s.port.station.val + (if s.link.penalty then 9 else 1)) * 8
    (s.link.line ≠ .idle → t.link.tx = .waitIdle) ∧
      (s.link.line = .idle → s.time < s.link.idleFrom + deferral → t.link.tx = .defer) ∧
      (s.link.line = .idle → s.link.idleFrom + deferral ≤ s.time →
        t.link.tx = .send ∧ t.link.attemptFrom = s.time ∧ t.link.line = .busy ∧
          t.link.sending = frameBytes 2#8 (BitVec.ofNat 8 s.port.station.val) (noteBytes n)) := by
  have queued := finish_storeLocal_of_room n run active (by rw [empty]; decide)
  have stored : (localStored n s).link = s.link := localStored_link n
  have kicked := appendEntry_of_standby (.note n) (s := localStored n s) (by rw [stored, empty]) (by rw [stored, standby])
  rw [← queued, stored] at kicked
  have time : (localStored n s).time = s.time := by rw [localStored_eq]
  have port : (localStored n s).port = s.port := by rw [localStored_eq]
  have deferral_eq : deferral (localStored n s) = (s.port.station.val + (if s.link.penalty then 9 else 1)) * 8 := by
    rw [deferral, stored, port]
  rw [time, port, deferral_eq] at kicked
  exact kicked

theorem finish_storeLocal_store :
    ({ (finish s (storeLocal n s)).store with notes := [] } : NoteStore) =
        { s.store with seq := s.store.seq + 1, notes := [] } ∧
      (finish s (storeLocal n s)).store.notes.map StoredNote.note = (keptNotes s).map StoredNote.note ++ [n] := by
  obtain ⟨rest, notes⟩ := finish_store s (storeLocal n s)
  rw [storeLocal_store] at rest notes
  exact ⟨congrArg (fun store : NoteStore => { store with notes := [] }) rest, notes.trans List.map_append⟩

end

/-- Settles O22: the checks in R127's order, and the note stored, attached and queued at an event whose end announces nothing. -/
theorem addNoteStoresOrRefuses : Obligations.AddNoteStoresOrRefuses := by
  unfold Obligations.AddNoteStoresOrRefuses
  intro s args a run read drains
  have answered {c : ResponseCode} (refused : noteToAdd a s = .error c) : Answered (.addNote args) c s :=
    answered_of_noteToAdd run read refused
  refine ⟨fun i u => attachLabel_of_open, fun i u noOpen ⟨holds, closing, unissued⟩ latest => ?closing,
    fun noOpen none => ?none, fun unread => answered (noteToAdd_of_no_kind unread), ?read⟩
  case closing =>
    exact attachLabel_of_closing noOpen holds closing unissued fun j v other held closing unissued =>
      latest j v other ⟨held, closing, unissued⟩
  case none => exact attachLabel_eq_none noOpen fun i u holds closing unissued => none i u ⟨holds, closing, unissued⟩
  case read =>
    intro kind attach isKind isOption fits
    have checks := noteToAdd_of_kind (s := s) isKind isOption
    have fitting : contentsFit s.day kind a.raw.ref a.raw.pos a.raw.track = true ↔ fits := contentsFit_iff _ _ _ _ _
    refine ⟨fun unfit => answered ?_, fun fit => ?_⟩
    · rw [checks, if_pos (Bool.eq_false_iff.mpr (mt fitting.mp unfit))]
    rw [if_neg (by rw [fitting.mpr fit]; decide)] at checks
    refine ⟨fun last => answered (checks.trans (if_pos last)), fun next attaches none => answered ?_,
      fun next taken => ?_⟩
    · rw [checks, if_neg (Nat.not_le.mpr next), if_pos ⟨attaches, none⟩]
    have named : ¬(attach = true ∧ attachLabel s = none) := by
      rintro ⟨attaches, none⟩
      rcases taken with alone | named
      · cases alone.symm.trans attaches
      · rw [none] at named
        cases named
    rw [if_neg (Nat.not_le.mpr next), if_neg named] at checks
    refine ⟨fun full unwritten => answered ?_, fun kept stay => ?_⟩
    · rw [checks, storeHasRoom_of_full full unwritten]
      rfl
    intro n marks
    obtain ⟨room, keptIs⟩ := StayInStore.room stay
    have added : noteToAdd a s = .ok n := by
      rw [checks, if_pos room]
      rfl
    have command : exec (.addNote args) s = .next (respond .ok (be 2 (s.store.seq + 1)) (finish s (storeLocal n s))) := by
      rw [exec_addNote run read, addNote, added]
    obtain ⟨store, notes⟩ := finish_storeLocal_store (s := s) n
    obtain ⟨time, port, notices, counter, front, mixer, ring, -⟩ := finish_frame s (storeLocal n s)
    obtain ⟨-, port', notices', counter', front', mixer', ring', -⟩ := storeLocal_frame n s
    have peers : (finish s (storeLocal n s)).link.peers = s.link.peers := by
      rw [finish_storeLocal_link, (queueFrame_link _ _).1, localStored_link]
    have seq := congrArg NoteStore.seq store
    have duplicates := congrArg NoteStore.duplicates store
    have refused := congrArg NoteStore.refused store
    have rejected := congrArg NoteStore.rejected store
    have lost := congrArg NoteStore.lost store
    refine ⟨_, command, ?_, notes.trans (by rw [keptIs]), fun i => ?_, fun listens => ?_, fun active free => ?_,
      fun active empty standby => finish_storeLocal_of_standby n run active empty standby, fun active full => ?_,
      seq, duplicates, refused, rejected, lost, notices.trans notices', counter.trans counter',
      front.trans front', mixer.trans mixer', ring.trans ring', peers⟩
    · rw [respond_port, port, port']
    · exact (finish_slots_map (fun u v => accounts_blind) s _ i).trans (by rw [storeLocal_takes])
    · exact congrArg Link.queue (finish_storeLocal_of_listenOnly n listens)
    · refine (congrArg Link.queue (finish_storeLocal_of_room n run active free)).trans ?_
      rw [(appendEntry_link _ _).1, localStored_link]
    · have link := finish_storeLocal_of_full n run active full
      have queue := congrArg Link.queue link
      have counts := congrArg Link.counts link
      exact ⟨queue, counts⟩

end Sys2Proof.Proofs
end

section
/-! PROOFS. A frame of a peer from its last byte to the end of its event, and a NOTE or NOTE GONE at the note store: the advance
of heard-up-to, the note that is rejected, dropped, refused or stored, and the notes given up (R97, R98, R131, R136 to R138,
R141). -/

namespace Sys2Proof.Proofs

open Sys2Proof Sys2Proof.Machine Sys2Proof.Safety

/-! ### A peer's frame on its way to the unit it is for (R97, R98, R101) -/

/-- The state in which a frame of the peer p is handed on. -/
def frameMet (kind : Byte) (p : Fin 8) (f : HeardFrame) (s : State) : State := peerHeard p (restedLine (hearFrame kind f s))

/-- A valid frame of the peer p is received. -/
structure HearsPeer (kind : Byte) (s : State) (f : HeardFrame) (p : Fin 8) : Prop where
  heard : canHear kind f s = true
  valid : frameValid kind f = true
  other : ∀ own, s.link.receiver ≠ .echo own
  sender : f.sender.toNat = p.val
  peer : p ≠ s.port.station

theorem HearsPeer.run {kind : Byte} {s : State} {f : HeardFrame} {p : Fin 8} (hears : HearsPeer kind s f p) :
    s.port.phase = .run :=
  ((canHear_iff kind f s).mp hears.heard).1

theorem HearsPeer.executes {x : Byte × Instr} {s : State} {f : HeardFrame} {p : Fin 8} (hears : HearsPeer x.1 s f p)
    (row : x ∈ frameRows f) :
    exec x.2 s = .next
      (finish (hearFrame x.1 f s) (handOn x.1 p f.payload (arrivalPosition s) (frameMet x.1 p f s))) := by
  have number : Fin.ofNat 8 f.sender.toNat = p := by
    rw [hears.sender]
    exact Fin.ext (Nat.mod_eq_of_lt p.isLt)
  have foreign : f.sender.toNat ≠ (restedLine (hearFrame x.1 f s)).port.station.val := by
    rw [hears.sender]
    exact fun same => hears.peer (Fin.ext same)
  have processed : processFrame x.1 f (arrivalPosition s) (restedLine (hearFrame x.1 f s)) =
      handOn x.1 p f.payload (arrivalPosition s) (frameMet x.1 p f s) := by
    rw [processFrame, hears.valid, if_neg (by decide), if_neg foreign]
    dsimp only
    rw [number]
    rfl
  refine exec_frame_heard row hears.heard (Eq.trans ?_ processed)
  exact endReception_of_frame (fits_of_frameValid hears.valid) (hearFrame_receiver hears.heard hears.other)

/-- What a frame of the peer p leaves of s before it is handed on. -/
structure Met (p : Fin 8) (s m : State) : Prop where
  port : m.port = s.port
  counter : m.counter = s.counter
  takes : m.takes = s.takes
  store : m.store = s.store
  writer : m.writer = s.writer
  run : m.link.run = s.link.run
  queue : m.link.queue = s.link.queue
  listenOnly : m.link.listenOnly = s.link.listenOnly
  entry : m.link.peers[p] = { s.link.peers[p] with present := true, heardAt := some m.time }
  counts : m.link.counts = { s.link.counts with received := min 65535 (s.link.counts.received + 1) }
  notices : ∀ k ≠ Notice.peerChange, isPending k m = isPending k s

theorem met_frameMet (kind : Byte) (p : Fin 8) (f : HeardFrame) (s : State) : Met p s (frameMet kind p f s) := by
  obtain ⟨time, port, counter, -, -, -, takes, store, writer, -⟩ := peerHeard_frame p (restedLine (hearFrame kind f s))
  have link := peerHeard_link p (restedLine (hearFrame kind f s))
  refine ⟨port, counter, takes, store, writer, ?_, ?_, ?_, ?_, ?_, fun k other => ?_⟩
  · exact (congrArg Link.run link).trans rfl
  · exact (congrArg Link.queue link).trans rfl
  · exact (congrArg Link.listenOnly link).trans rfl
  · rw [frameMet, peerHeard_peers, if_pos rfl, time]
    rfl
  · exact (congrArg Link.counts link).trans rfl
  · rw [frameMet, isPending_peerHeard, decide_eq_false other, Bool.and_false, Bool.or_false]
    rfl

/-- What a note marks on a take. -/
def noteMarks (u : Take) : List NoteId × TakeFlags × Vector (Option TrackTally) 16 := (u.noteRefs, u.flags, u.tracks)

/-- What the end of an event leaves of the state that the event has made. -/
structure EndsAs (after t : State) : Prop where
  time : t.time = after.time
  port : t.port = after.port
  notices : t.notices = after.notices
  counter : t.counter = after.counter
  peers : t.link.peers = after.link.peers
  counts : t.link.counts = after.link.counts
  seq : t.store.seq = after.store.seq
  duplicates : t.store.duplicates = after.store.duplicates
  refused : t.store.refused = after.store.refused
  rejected : t.store.rejected = after.store.rejected
  lost : t.store.lost = after.store.lost
  notes : t.store.notes.map StoredNote.note = after.store.notes.map StoredNote.note
  marks : ∀ i : Fin 3, t.takes.slots[i].map noteMarks = after.takes.slots[i].map noteMarks

theorem endsAs_finish (before after : State) : EndsAs after (finish before after) := by
  obtain ⟨time, port, notices, counter, -⟩ := finish_frame before after
  obtain ⟨peers, -, counts⟩ := finish_link before after
  obtain ⟨store, notes⟩ := finish_store before after
  have seq := congrArg NoteStore.seq store
  have duplicates := congrArg NoteStore.duplicates store
  have refused := congrArg NoteStore.refused store
  have rejected := congrArg NoteStore.rejected store
  have lost := congrArg NoteStore.lost store
  exact ⟨time, port, notices, counter, peers, counts, seq, duplicates, refused, rejected, lost, notes,
    finish_slots_map (fun u v => accounts_blind) before after⟩

theorem HearsPeer.ends {x : Byte × Instr} {s : State} {f : HeardFrame} {p : Fin 8} (hears : HearsPeer x.1 s f p)
    (row : x ∈ frameRows f) :
    ∃ t, exec x.2 s = .next t ∧ EndsAs (handOn x.1 p f.payload (arrivalPosition s) (frameMet x.1 p f s)) t :=
  ⟨_, hears.executes row, endsAs_finish _ _⟩

/-! ### The advance of heard-up-to (R138) -/

/-- The store holds the note of this peer, run and sequence. -/
def HeldIn (p : Fin 8) (t : State) (run seq : Nat) : Prop :=
  ∃ y ∈ t.store.notes, y.note.id = { originator := p.val, run := run, seq := seq }

theorem holdsNote_iff_heldIn (p : Fin 8) (s : State) (run seq : Nat) :
    holdsNote s { originator := p.val, run := run, seq := seq } = true ↔ HeldIn p s run seq :=
  holdsNote_iff s _

theorem heldIn_iff_of_notes {s t : State} (notes : t.store.notes.map StoredNote.note = s.store.notes.map StoredNote.note)
    (p : Fin 8) (run seq : Nat) : HeldIn p t run seq ↔ HeldIn p s run seq := by
  have byNotes (u : State) : HeldIn p u run seq ↔
      ∃ n ∈ u.store.notes.map StoredNote.note, n.id = { originator := p.val, run := run, seq := seq } := by
    simp only [HeldIn, List.mem_map, exists_exists_and_eq_and]
  rw [byNotes, byNotes, notes]

/-- Heard-up-to has advanced from u over every note held. -/
def Advanced (p : Fin 8) (t : State) (run u : Nat) : Prop :=
  u ≤ t.link.peers[p].heardUpTo ∧ (∀ k, u < k → k ≤ t.link.peers[p].heardUpTo → HeldIn p t run k) ∧
    (t.link.peers[p].heardUpTo < 65535 → ¬HeldIn p t run (t.link.peers[p].heardUpTo + 1))

theorem EndsAs.advanced {after t : State} (ends : EndsAs after t) {p : Fin 8} {run u : Nat}
    (advanced : Advanced p after run u) : Advanced p t run u := by
  simp only [Advanced, heldIn_iff_of_notes ends.notes, ends.peers]
  exact advanced

/-- The advance passes notes held only, and ends short of its fuel at a note that is not held. -/
theorem advanceHeard_passes (s : State) (p : Fin 8) (run fuel u : Nat) :
    u ≤ advanceHeard s p.val run fuel u ∧ (∀ k, u < k → k ≤ advanceHeard s p.val run fuel u → HeldIn p s run k) ∧
      (advanceHeard s p.val run fuel u < 65535 → HeldIn p s run (advanceHeard s p.val run fuel u + 1) →
        advanceHeard s p.val run fuel u = u + fuel) := by
  induction fuel generalizing u with
  | zero => exact ⟨Nat.le_refl u, fun k above below => absurd below (Nat.not_le.mpr above), fun _ _ => rfl⟩
  | succ fuel ih =>
    unfold advanceHeard
    split
    case isTrue next =>
      obtain ⟨above, passed, stops⟩ := ih (u + 1)
      refine ⟨by omega, fun k after upTo => ?_, fun room held => by rw [stops room held]; omega⟩
      rcases Nat.eq_or_lt_of_le after with same | beyond
      · exact same ▸ (holdsNote_iff_heldIn p s run _).mp next.2
      · exact passed k beyond upTo
    case isFalse stop =>
      refine ⟨Nat.le_refl u, fun k above below => absurd below (Nat.not_le.mpr above), fun room held => ?_⟩
      exact absurd ⟨room, (holdsNote_iff_heldIn p s run _).mpr held⟩ stop

/-- The store has no place for one note more than it holds. -/
theorem not_all_heldIn (s : State) (p : Fin 8) (run u : Nat) :
    ¬∀ k, u < k → k ≤ u + s.store.notes.length + 1 → HeldIn p s run k := by
  intro held
  let ids := (List.range (s.store.notes.length + 1)).map fun k => ({ originator := p.val, run := run, seq := u + k + 1 } : NoteId)
  have distinct : ids.Nodup := by
    refine List.nodup_range.map fun j k same => ?_
    have seq : u + j + 1 = u + k + 1 := congrArg NoteId.seq same
    omega
  have subset : ids ⊆ s.store.notes.map fun x => x.note.id := by
    intro id member
    obtain ⟨k, inRange, rfl⟩ := List.mem_map.mp member
    rw [List.mem_range] at inRange
    exact List.mem_map.mpr (held (u + k + 1) (by omega) (by omega))
  have length := (List.subperm_of_subset distinct subset).length_le
  rw [List.length_map, List.length_map, List.length_range] at length
  omega

theorem setHeard_of_run {p : Fin 8} {run : Nat} {s : State} (entered : s.link.peers[p].run = some run) (u : Nat) :
    setHeard p u s =
      setPeer p { s.link.peers[p] with heardUpTo := advanceHeard s p.val run s.store.notes.length u } s := by
  simp only [setHeard, entered]

theorem advanced_setHeard {p : Fin 8} {run : Nat} {s : State} (entered : s.link.peers[p].run = some run) (u : Nat) :
    Advanced p (setHeard p u s) run u := by
  obtain ⟨above, passed, stops⟩ := advanceHeard_passes s p run s.store.notes.length u
  rw [setHeard_of_run entered, Advanced, setPeer_peers, if_pos rfl]
  refine ⟨above, passed, fun room held => not_all_heldIn s p run u fun k after upTo => ?_⟩
  have far := stops room held
  rcases Nat.eq_or_lt_of_le upTo with last | before
  · rw [last, ← far]
    exact held
  · exact passed k after (by omega)

theorem setHeard_entry (p : Fin 8) (u : Nat) (s : State) :
    ∃ h, (setHeard p u s).link.peers[p] = { s.link.peers[p] with heardUpTo := h } := by
  unfold setHeard
  dsimp only
  split
  · exact ⟨_, (setPeer_peers p p _ s).trans (if_pos rfl)⟩
  · exact ⟨_, (setPeer_peers p p _ s).trans (if_pos rfl)⟩

theorem setHeard_store (p : Fin 8) (u : Nat) (s : State) : (setHeard p u s).store = s.store := by simp only [setHeard_frame]

theorem isPending_setHeard (k : Notice) (p : Fin 8) (u : Nat) (s : State) :
    isPending k (setHeard p u s) = isPending k s :=
  isPending_of_notices (by simp only [setHeard_frame])

/-! ### A NOTE of a peer at the note store (R136 to R138) -/

/-- The note of a NOTE payload passes R136 as one of this kind. -/
def Acceptable (D : Nat) (payload : List Byte) (raw : RawNote) (kind : NoteKind) : Prop :=
  noteKindOf (field payload 4 1) = some kind ∧ field payload 2 2 ≠ 0 ∧
    contentsFit D kind raw.ref raw.pos raw.track = true ∧ raw.text.length ≤ (if kind = .trackName then 16 else 64)

/-- The note that a NOTE of the peer p carries. -/
def peerNote (p : Fin 8) (payload : List Byte) (raw : RawNote) (kind : NoteKind) : Note :=
  { id := { originator := p.val, run := field payload 0 2, seq := field payload 2 2 }, kind := kind, ref := raw.ref,
    pos := raw.pos, track := raw.track, text := raw.text.map printable }

section

variable {p : Fin 8} {payload : List Byte} {raw : RawNote} {s : State} (read : readNotePayload payload = some raw)

include read

theorem takePeerNote_of_unacceptable (unfit : ∀ kind, ¬Acceptable s.day payload raw kind) :
    takePeerNote p payload s = rejectNote p (field payload 2 2) s := by
  rw [takePeerNote, read]
  dsimp only
  split
  case h_1 => rfl
  case h_2 kind named => exact if_neg fun ⟨numbered, fits, short⟩ => unfit kind ⟨named, numbered, fits, short⟩

theorem takePeerNote_of_acceptable {kind : NoteKind} (fit : Acceptable s.day payload raw kind) :
    takePeerNote p payload s = acceptNote p (peerNote p payload raw kind) s := by
  obtain ⟨named, numbered, fits, short⟩ := fit
  rw [takePeerNote, read]
  dsimp only
  rw [named]
  exact if_pos ⟨numbered, fits, short⟩

end

section

variable {p : Fin 8} {s : State}

theorem rejectNote_of_next {seq : Nat} (next : seq = s.link.peers[p].heardUpTo + 1) :
    rejectNote p seq s =
      setHeard p seq (raise .notesLost
        { s with
          store :=
            { s.store with rejected := min 65535 (s.store.rejected + 1), lost := min 65535 (s.store.lost + 1) } }) := by
  rw [next]
  exact if_pos rfl

theorem rejectNote_of_other {seq : Nat} (other : seq ≠ s.link.peers[p].heardUpTo + 1) :
    rejectNote p seq s = { s with store := { s.store with rejected := min 65535 (s.store.rejected + 1) } } :=
  if_neg other

theorem acceptNote_of_copy {n : Note} (copy : n.id.seq ≤ s.link.peers[p].heardUpTo ∨ holdsNote s n.id = true) :
    acceptNote p n s = { s with store := { s.store with duplicates := min 65535 (s.store.duplicates + 1) } } :=
  if_pos copy

variable {n : Note} (fresh : ¬(n.id.seq ≤ s.link.peers[p].heardUpTo ∨ holdsNote s n.id = true))

include fresh

theorem acceptNote_of_full (full : storeHasRoom s = false) :
    acceptNote p n s = { s with store := { s.store with refused := min 65535 (s.store.refused + 1) } } :=
  (if_neg fresh).trans (if_neg (Bool.eq_false_iff.mp full))

theorem acceptNote_of_room (room : storeHasRoom s = true) :
    acceptNote p n s = setHeard p s.link.peers[p].heardUpTo (raise .noteArrived (tryAttach n (storeNote n s))) :=
  (if_neg fresh).trans (if_pos room)

end

theorem rejectNote_keeps (p : Fin 8) (seq : Nat) (s : State) :
    (∃ h, (rejectNote p seq s).link.peers[p] = { s.link.peers[p] with heardUpTo := h }) ∧
      (rejectNote p seq s).store.seq = s.store.seq := by
  by_cases next : seq = s.link.peers[p].heardUpTo + 1
  · rw [rejectNote_of_next next, setHeard_store]
    exact ⟨setHeard_entry p _ _, rfl⟩
  · rw [rejectNote_of_other next]
    exact ⟨⟨s.link.peers[p].heardUpTo, rfl⟩, rfl⟩

theorem acceptNote_keeps (p : Fin 8) (n : Note) (s : State) :
    (∃ h, (acceptNote p n s).link.peers[p] = { s.link.peers[p] with heardUpTo := h }) ∧
      (acceptNote p n s).store.seq = s.store.seq ∧ (acceptNote p n s).store.rejected = s.store.rejected ∧
      (acceptNote p n s).store.lost = s.store.lost ∧
      (¬(n.id.seq ≤ s.link.peers[p].heardUpTo ∨ holdsNote s n.id = true) →
        (acceptNote p n s).store.duplicates = s.store.duplicates) := by
  by_cases copy : n.id.seq ≤ s.link.peers[p].heardUpTo ∨ holdsNote s n.id = true
  · rw [acceptNote_of_copy copy]
    exact ⟨⟨s.link.peers[p].heardUpTo, rfl⟩, rfl, rfl, rfl, fun fresh => absurd copy fresh⟩
  · cases room : storeHasRoom s with
    | false =>
      rw [acceptNote_of_full copy room]
      exact ⟨⟨s.link.peers[p].heardUpTo, rfl⟩, rfl, rfl, rfl, fun _ => rfl⟩
    | true =>
      rw [acceptNote_of_room copy room, setHeard_store]
      obtain ⟨h, entry⟩ := setHeard_entry p s.link.peers[p].heardUpTo (raise .noteArrived (tryAttach n (storeNote n s)))
      have store : (raise .noteArrived (tryAttach n (storeNote n s))).store = (storeNote n s).store := by
        simp only [raise_store, tryAttach_frame]
      rw [store]
      refine ⟨⟨h, entry.trans ?_⟩, rfl, rfl, rfl, fun _ => rfl⟩
      simp only [raise_link, tryAttach_frame, storeNote_link]

/-- Whatever its note, a NOTE leaves of its sender's entry all but heard-up-to, and the own sequence. -/
theorem takePeerNote_keeps (p : Fin 8) (payload : List Byte) (s : State) :
    (∃ h, (takePeerNote p payload s).link.peers[p] = { s.link.peers[p] with heardUpTo := h }) ∧
      (takePeerNote p payload s).store.seq = s.store.seq := by
  cases read : readNotePayload payload with
  | none =>
    rw [takePeerNote, read]
    exact ⟨⟨s.link.peers[p].heardUpTo, rfl⟩, rfl⟩
  | some raw =>
    by_cases fit : ∃ kind, Acceptable s.day payload raw kind
    · obtain ⟨kind, fit⟩ := fit
      rw [takePeerNote_of_acceptable read fit]
      obtain ⟨entry, seq, -⟩ := acceptNote_keeps p (peerNote p payload raw kind) s
      exact ⟨entry, seq⟩
    · rw [takePeerNote_of_unacceptable read (not_exists.mp fit)]
      exact rejectNote_keeps p _ s

/-! ### A NOTE from its sender's entry to the end of its event -/

/-- The sender's entry when the note store takes up its NOTE (R98, R102). -/
structure Entered (p : Fin 8) (run u : Nat) (s m : State) : Prop where
  port : m.port = s.port
  counter : m.counter = s.counter
  takes : m.takes = s.takes
  store : m.store = s.store
  entry : m.link.peers[p] =
    { s.link.peers[p] with present := true, heardAt := some m.time, run := some run, heardUpTo := u }
  received : m.link.counts.received = min 65535 (s.link.counts.received + 1)
  notices : ∀ k ≠ Notice.peerChange, isPending k m = isPending k s

theorem Met.entered {p : Fin 8} {s m : State} (met : Met p s m) (run : Nat) :
    Entered p run (if s.link.peers[p].run = none ∨ s.link.peers[p].run = some run then s.link.peers[p].heardUpTo else 0) s
      (applyRun p run m) := by
  rw [applyRun_eq]
  refine ⟨met.port, met.counter, met.takes, met.store, ?_, (congrArg LinkCounts.received met.counts).trans rfl, met.notices⟩
  rw [setPeer_peers, if_pos rfl, met.entry]
  rfl

section

variable {p : Fin 8} {run u : Nat} {s m t : State} (entered : Entered p run u s m)

include entered

theorem Entered.day : m.day = s.day := by rw [State.day, State.day, entered.counter]

theorem Entered.heard : m.link.peers[p].heardUpTo = u := by rw [entered.entry]

theorem Entered.storeHasRoom : storeHasRoom m = storeHasRoom s := by
  rw [Machine.storeHasRoom, Machine.storeHasRoom, entered.store]

theorem Entered.runKnown : m.link.peers[p].run = some run := by rw [entered.entry]

/-- A NOTE leaves the port, the counter and the own sequence, and makes its sender PRESENT in the run it carries. -/
theorem Entered.note {payload : List Byte} (ends : EndsAs (takePeerNote p payload m) t)
    (counts : (takePeerNote p payload m).link.counts = m.link.counts) :
    t.port = s.port ∧ t.store.seq = s.store.seq ∧ t.counter = s.counter ∧ t.link.peers[p].present = true ∧
      t.link.peers[p].run = some run ∧ t.link.peers[p].heardAt = some t.time ∧
      t.link.counts.received = min 65535 (s.link.counts.received + 1) := by
  obtain ⟨time, port, counter, -⟩ := takePeerNote_frame p payload m
  obtain ⟨⟨h, entry⟩, seq⟩ := takePeerNote_keeps p payload m
  rw [ends.port, ends.seq, ends.counter, ends.peers, ends.time, ends.counts, port, seq, counter, entry, time, counts,
    entered.entry, entered.store]
  exact ⟨entered.port, rfl, entered.counter, rfl, rfl, rfl, entered.received⟩

/-- A rejected note, lost when it is the next one wanted (R136). -/
theorem Entered.rejected {seq : Nat} (ends : EndsAs (rejectNote p seq m) t) :
    t.store.notes.map StoredNote.note = s.store.notes.map StoredNote.note ∧
      t.store.rejected = min 65535 (s.store.rejected + 1) ∧ t.store.duplicates = s.store.duplicates ∧
      isPending .noteArrived t = isPending .noteArrived s ∧
      (seq = u + 1 →
        Advanced p t run (u + 1) ∧ t.store.lost = min 65535 (s.store.lost + 1) ∧ isPending .notesLost t = true) ∧
      (seq ≠ u + 1 → t.link.peers[p].heardUpTo = u ∧ t.store.lost = s.store.lost) := by
  have pending (k : Notice) : isPending k t = isPending k (rejectNote p seq m) := isPending_of_notices ends.notices
  have arrived : isPending .noteArrived m = isPending .noteArrived s := entered.notices .noteArrived (by decide)
  rw [ends.notes, ends.rejected, ends.duplicates, ends.lost, pending, pending, ends.peers, ← entered.store, ← arrived]
  by_cases next : seq = u + 1
  · have rejects := rejectNote_of_next (next.trans (by rw [entered.heard] : u + 1 = m.link.peers[p].heardUpTo + 1))
    have advanced := ends.advanced (rejects ▸ advanced_setHeard (by exact entered.runKnown) seq)
    rw [rejects, setHeard_store, isPending_setHeard, isPending_setHeard, isPending_raise, isPending_raise_self]
    exact ⟨rfl, rfl, rfl, Bool.or_false _, fun _ => ⟨next ▸ advanced, rfl, rfl⟩, fun other => absurd next other⟩
  · rw [rejectNote_of_other (by rw [entered.heard]; exact next)]
    exact ⟨rfl, rfl, rfl, rfl, fun same => absurd same next, fun _ => ⟨entered.heard, rfl⟩⟩

variable {n : Note} (isOfPeer : n.id = { originator := p.val, run := run, seq := n.id.seq })

include isOfPeer

theorem Entered.holdsNote_iff : holdsNote m n.id = true ↔ HeldIn p s run n.id.seq := by
  rw [isOfPeer, holdsNote_iff_heldIn, HeldIn, entered.store]
  rfl

/-- A second copy of a note (R137). -/
theorem Entered.copy (ends : EndsAs (acceptNote p n m) t) (copy : n.id.seq ≤ u ∨ HeldIn p s run n.id.seq) :
    t.store.notes.map StoredNote.note = s.store.notes.map StoredNote.note ∧
      t.store.duplicates = min 65535 (s.store.duplicates + 1) ∧ t.link.peers[p].heardUpTo = u ∧
      isPending .noteArrived t = isPending .noteArrived s := by
  have drops := acceptNote_of_copy (p := p) (n := n) (s := m) (by rwa [entered.heard, entered.holdsNote_iff isOfPeer])
  rw [drops] at ends
  rw [ends.notes, ends.duplicates, ends.peers, isPending_of_notices ends.notices, ← entered.store]
  exact ⟨rfl, rfl, entered.heard, entered.notices _ (by decide)⟩

variable (unheard : u < n.id.seq) (unheld : ¬HeldIn p s run n.id.seq)

include unheard unheld

theorem Entered.fresh : ¬(n.id.seq ≤ m.link.peers[p].heardUpTo ∨ holdsNote m n.id = true) := by
  rw [entered.heard, entered.holdsNote_iff isOfPeer]
  rintro (heard | held)
  · exact Nat.not_le.mpr unheard heard
  · exact unheld held

/-- A note that the full store cannot take (R131). -/
theorem Entered.refused (ends : EndsAs (acceptNote p n m) t) (full : Machine.storeHasRoom s = false) :
    t.store.notes.map StoredNote.note = s.store.notes.map StoredNote.note ∧
      t.store.refused = min 65535 (s.store.refused + 1) ∧ t.link.peers[p].heardUpTo = u ∧
      isPending .noteArrived t = isPending .noteArrived s := by
  have refuses := acceptNote_of_full (entered.fresh isOfPeer unheard unheld)
    (entered.storeHasRoom.trans full)
  rw [refuses] at ends
  rw [ends.notes, ends.refused, ends.peers, isPending_of_notices ends.notices, ← entered.store]
  exact ⟨rfl, rfl, entered.heard, entered.notices _ (by decide)⟩

/-- A note that joins the store and attaches (R131, R133, R137, R138). -/
theorem Entered.stored (ends : EndsAs (acceptNote p n m) t) {kept : List StoredNote} (stay : StayInStore s kept) :
    t.store.notes.map StoredNote.note = kept.map StoredNote.note ++ [n] ∧ t.store.refused = s.store.refused ∧
      isPending .noteArrived t = true ∧ Advanced p t run u ∧
      (acceptNote p n m).takes = (tryAttach n s).takes := by
  obtain ⟨room, keeps⟩ := stay.room
  have stores := acceptNote_of_room (entered.fresh isOfPeer unheard unheld) (entered.storeHasRoom.trans room)
  rw [entered.heard] at stores
  have store : (acceptNote p n m).store =
      { s.store with notes := kept ++ [{ note := n, state := .pending }] } := by
    rw [stores, setHeard_store]
    simp only [raise_store, tryAttach_frame]
    rw [storeNote_eq, keptNotes, entered.store, ← keptNotes, keeps]
  have known : (raise .noteArrived (tryAttach n (storeNote n m))).link.peers[p].run = some run := by
    simp only [raise_link, tryAttach_frame, storeNote_link, entered.runKnown]
  have advanced := ends.advanced (stores ▸ advanced_setHeard known u)
  have arrived : isPending .noteArrived t = true := by
    rw [isPending_of_notices ends.notices, stores, isPending_setHeard, isPending_raise_self]
  refine ⟨?_, ?_, arrived, advanced, ?_⟩
  · rw [ends.notes, store, List.map_append]
    rfl
  · rw [ends.refused, store]
  · rw [stores]
    simp only [setHeard_frame, raise_takes]
    exact tryAttach_takes (s := s) (t := storeNote n m) entered.port entered.takes n

end

/-! ### A NOTE GONE of a peer (R141) -/

theorem unheld_eq_length (s : State) (p run u n : Nat) :
    unheld s p run u n =
      ((List.range n).filter fun k => !holdsNote s { originator := p, run := run, seq := u + k + 1 }).length := by
  induction n with
  | zero => rfl
  | succ n ih =>
    rw [unheld, ih, List.range_succ, List.filter_append, List.length_append]
    cases held : holdsNote s { originator := p, run := run, seq := u + n + 1 } with
    | true => simp [held]
    | false => simp [held]

theorem unheld_congr {s t : State} (store : t.store = s.store) (p run u n : Nat) :
    unheld t p run u n = unheld s p run u n := by
  simp only [unheld_eq_length, holdsNote, store]

theorem takeGone_of_apart {p : Fin 8} {payload : List Byte} {s : State}
    (apart : s.link.peers[p].run ≠ some (field payload 0 2) ∨ s.link.peers[p].heardUpTo + 1 < field payload 2 2 ∨
      field payload 4 2 ≤ s.link.peers[p].heardUpTo) : takeGone p payload s = s :=
  if_pos apart

theorem takeGone_of_adjoining {p : Fin 8} {payload : List Byte} {s : State} {run a b u : Nat}
    (isRun : field payload 0 2 = run) (isFirst : field payload 2 2 = a) (isLast : field payload 4 2 = b)
    (heard : s.link.peers[p].heardUpTo = u) (known : s.link.peers[p].run = some run) (adjoins : a ≤ u + 1) (new : u < b) :
    takeGone p payload s =
      setHeard p b
        (raiseIf (decide (0 < unheld s p.val run u (b - u))) .notesLost
          { s with store := { s.store with lost := min 65535 (s.store.lost + unheld s p.val run u (b - u)) } }) := by
  subst isRun isFirst isLast heard
  refine if_neg ?_
  rintro (other | gap | old)
  · exact other known
  · exact Nat.not_lt.mpr adjoins gap
  · exact Nat.not_le.mpr new old

theorem takeGone_keeps (p : Fin 8) (payload : List Byte) (s : State) :
    ∃ h, (takeGone p payload s).link.peers[p] = { s.link.peers[p] with heardUpTo := h } := by
  unfold takeGone
  dsimp only
  split
  · exact ⟨s.link.peers[p].heardUpTo, rfl⟩
  · obtain ⟨h, entry⟩ := setHeard_entry p (field payload 4 2)
      (raiseIf (decide (0 < unheld s p.val (field payload 0 2) s.link.peers[p].heardUpTo
        (field payload 4 2 - s.link.peers[p].heardUpTo))) .notesLost
        { s with
          store :=
            { s.store with
              lost := satAdd Config.max16 s.store.lost (unheld s p.val (field payload 0 2) s.link.peers[p].heardUpTo
                (field payload 4 2 - s.link.peers[p].heardUpTo)) } })
    refine ⟨h, entry.trans ?_⟩
    rw [raiseIf_link]

section

variable {p : Fin 8} {payload : List Byte} {s m t : State} (met : Met p s m) (ends : EndsAs (takeGone p payload m) t)

include met ends

theorem Met.gone :
    t.port = s.port ∧ t.counter = s.counter ∧ t.link.peers[p].present = true ∧
      t.link.peers[p].run = s.link.peers[p].run ∧
      t.store.notes.map StoredNote.note = s.store.notes.map StoredNote.note := by
  obtain ⟨-, port, counter, -⟩ := takeGone_frame p payload m
  obtain ⟨h, entry⟩ := takeGone_keeps p payload m
  rw [ends.port, ends.counter, ends.peers, ends.notes, port, counter, entry, met.entry,
    (sameNotes_takeGone p payload m).notes, met.store]
  exact ⟨met.port, met.counter, rfl, rfl, rfl⟩

theorem Met.gone_apart
    (apart : s.link.peers[p].run ≠ some (field payload 0 2) ∨ s.link.peers[p].heardUpTo + 1 < field payload 2 2 ∨
      field payload 4 2 ≤ s.link.peers[p].heardUpTo) :
    t.link.peers[p].heardUpTo = s.link.peers[p].heardUpTo ∧ t.store.lost = s.store.lost := by
  rw [ends.peers, ends.lost, takeGone_of_apart (by rw [met.entry]; exact apart), met.entry, met.store]
  exact ⟨rfl, rfl⟩

theorem Met.gone_adjoining (known : s.link.peers[p].run = some (field payload 0 2))
    (adjoins : field payload 2 2 ≤ s.link.peers[p].heardUpTo + 1) (new : s.link.peers[p].heardUpTo < field payload 4 2) :
    let lost := unheld s p.val (field payload 0 2) s.link.peers[p].heardUpTo
      (field payload 4 2 - s.link.peers[p].heardUpTo)
    t.store.lost = min 65535 (s.store.lost + lost) ∧ Advanced p t (field payload 0 2) (field payload 4 2) ∧
      (0 < lost → isPending .notesLost t = true) := by
  have runKnown : m.link.peers[p].run = some (field payload 0 2) := by rw [met.entry]; exact known
  have gone := takeGone_of_adjoining (s := m) rfl rfl rfl (by rw [met.entry]) runKnown adjoins new
  rw [unheld_congr met.store, met.store] at gone
  refine ⟨?_, ends.advanced (gone ▸ advanced_setHeard ?_ _), fun some => ?_⟩
  · rw [ends.lost, gone, setHeard_store]
    simp only [raiseIf_frame]
  · rw [raiseIf_link]
    exact runKnown
  · rw [isPending_of_notices ends.notices, gone, isPending_setHeard, decide_eq_true some]
    exact isPending_raise_self _ _

end

end Sys2Proof.Proofs
end

section
/-! PROOFS. A NOTE REQUEST and a STATUS of a peer at the note store: the own notes sent again in order of sequence, the notes
declared gone, and the request for what was missed (R139, R140). -/

namespace Sys2Proof.Proofs

open Sys2Proof Sys2Proof.Machine Sys2Proof.Safety

/-! ### The own notes in order of sequence (R140) -/

/-- A note this station made in the current run, held in the store. -/
def OwnNote (s : State) (n : Note) : Prop :=
  (∃ y ∈ s.store.notes, y.note = n) ∧ n.id.originator = s.port.station.val ∧ n.id.run = s.link.run

theorem mem_insertBySeq (m n : Note) (l : List Note) : m ∈ insertBySeq n l ↔ m = n ∨ m ∈ l := by
  induction l with
  | nil => simp [insertBySeq]
  | cons x rest ih =>
    unfold insertBySeq
    split
    · exact List.mem_cons
    · rw [List.mem_cons, ih, List.mem_cons]
      exact or_left_comm

theorem pairwise_insertBySeq (n : Note) {l : List Note} (sorted : l.Pairwise fun m n => m.id.seq ≤ n.id.seq) :
    (insertBySeq n l).Pairwise fun m n => m.id.seq ≤ n.id.seq := by
  induction l with
  | nil => exact List.pairwise_singleton _ n
  | cons x rest ih =>
    obtain ⟨least, sorted'⟩ := List.pairwise_cons.mp sorted
    unfold insertBySeq
    split
    case isTrue before =>
      refine List.pairwise_cons.mpr ⟨fun m member => ?_, sorted⟩
      rcases List.mem_cons.mp member with rfl | inRest
      · exact before.le
      · exact before.le.trans (least m inRest)
    case isFalse behind =>
      refine List.pairwise_cons.mpr ⟨fun m member => ?_, ih sorted'⟩
      rcases (mem_insertBySeq m n rest).mp member with rfl | inRest
      · exact Nat.le_of_not_lt behind
      · exact least m inRest

theorem mem_sortBySeq (m : Note) (l : List Note) : m ∈ sortBySeq l ↔ m ∈ l := by
  induction l with
  | nil => exact Iff.rfl
  | cons x rest ih => rw [sortBySeq, mem_insertBySeq, ih, List.mem_cons]

theorem pairwise_sortBySeq (l : List Note) : (sortBySeq l).Pairwise fun m n => m.id.seq ≤ n.id.seq := by
  induction l with
  | nil => exact .nil
  | cons x rest ih => exact pairwise_insertBySeq x ih

theorem mem_ownNotesFrom (s : State) (first : Nat) (n : Note) :
    n ∈ ownNotesFrom s first ↔ OwnNote s n ∧ first ≤ n.id.seq := by
  rw [ownNotesFrom, mem_sortBySeq, List.mem_filter, List.mem_map]
  simp only [Bool.and_eq_true, beq_iff_eq, decide_eq_true_eq, OwnNote, and_assoc]

theorem pairwise_ownNotesFrom (s : State) (first : Nat) :
    (ownNotesFrom s first).Pairwise fun m n => m.id.seq ≤ n.id.seq :=
  pairwise_sortBySeq _

/-- The first four of the own notes are the four of least sequence, or all. -/
theorem mem_take_ownNotesFrom {s : State} {first : Nat} {n : Note} (own : OwnNote s n) (inRange : first ≤ n.id.seq)
    (left : n ∉ (ownNotesFrom s first).take 4) :
    ((ownNotesFrom s first).take 4).length = 4 ∧ ∀ m ∈ (ownNotesFrom s first).take 4, m.id.seq ≤ n.id.seq := by
  have sorted := pairwise_ownNotesFrom s first
  have member := (mem_ownNotesFrom s first n).mpr ⟨own, inRange⟩
  rw [← List.take_append_drop 4 (ownNotesFrom s first)] at sorted member
  obtain ⟨-, -, before⟩ := List.pairwise_append.mp sorted
  have behind := (List.mem_append.mp member).resolve_left left
  have some := List.length_pos_of_mem behind
  rw [List.length_drop] at some
  refine ⟨?_, fun m inTake => before m inTake n behind⟩
  rw [List.length_take]
  omega

/-! ### The answer to a NOTE REQUEST (R140) -/

theorem queueFrame_queue {f : TxFrame} {s : State} (active : linkActive s = true) (room : s.link.queue.length < 8) :
    (queueFrame f s).link.queue = s.link.queue ++ [{ frame := f, attempts := 0 }] := by
  rw [queueFrame_of_room active room]
  exact (appendEntry_link f s).1

theorem kickTransmitter_listenOnly (s : State) : (kickTransmitter s).link.listenOnly = s.link.listenOnly := by
  unfold kickTransmitter
  split
  · split
    · split
      · unfold beginAttempt
        split
        · rfl
        · rfl
      · rfl
    · rfl
  · rfl

theorem linkActive_appendEntry (f : TxFrame) (s : State) : linkActive (appendEntry f s) = linkActive s := by
  obtain ⟨-, port, -⟩ := appendEntry_frame f s
  rw [linkActive, linkActive, State.inRun, State.inRun, port, appendEntry, kickTransmitter_listenOnly]

theorem queueNotes_queue (l : List Note) {s : State} (active : linkActive s = true)
    (room : s.link.queue.length + l.length ≤ 8) :
    (l.foldl (fun st n => queueFrame (.note n) st) s).link.queue =
      s.link.queue ++ l.map fun n => { frame := .note n, attempts := 0 } := by
  induction l generalizing s with
  | nil => exact (List.append_nil _).symm
  | cons n l ih =>
    rw [List.length_cons] at room
    have free : s.link.queue.length < 8 := by omega
    have queued := queueFrame_queue (f := .note n) active free
    have stays : linkActive (queueFrame (.note n) s) = true := by
      rw [queueFrame_of_room active free, linkActive_appendEntry, active]
    rw [List.foldl_cons, ih stays (by rw [queued, List.length_append, List.length_singleton]; omega), queued, List.map_cons,
      List.append_assoc]
    rfl

theorem queueNotes_peers (l : List Note) (s : State) :
    (l.foldl (fun st n => queueFrame (.note n) st) s).link.peers = s.link.peers := by
  induction l generalizing s with
  | nil => rfl
  | cons n l ih => exact (ih _).trans (queueFrame_link (.note n) s).1

section

variable {s : State} {run first : Nat}

theorem answerRequest_of_unanswerable (unanswerable : run ≠ s.link.run ∨ s.store.seq < first) :
    answerRequest run first s = s :=
  if_pos unanswerable

theorem answerRequest_peers : (answerRequest run first s).link.peers = s.link.peers := by
  unfold answerRequest
  split_ifs
  · rfl
  · exact queueNotes_peers _ s
  · exact (queueFrame_link _ s).1

theorem holdsNote_iff_ownNote :
    holdsNote s { originator := s.port.station.val, run := s.link.run, seq := first } = true ↔
      ∃ n, OwnNote s n ∧ n.id.seq = first := by
  rw [holdsNote_iff]
  constructor
  · rintro ⟨y, member, id⟩
    exact ⟨y.note, ⟨⟨y, member, rfl⟩, congrArg NoteId.originator id, congrArg NoteId.run id⟩, congrArg NoteId.seq id⟩
  · rintro ⟨n, ⟨⟨y, member, rfl⟩, originator, ofRun⟩, seq⟩
    refine ⟨y, member, ?_⟩
    rw [← originator, ← ofRun, ← seq]

variable (ofRun : run = s.link.run) (known : first ≤ s.store.seq)

include ofRun known

theorem answerRequest_of_held (held : ∃ n, OwnNote s n ∧ n.id.seq = first) :
    answerRequest run first s = ((ownNotesFrom s first).take 4).foldl (fun st n => queueFrame (.note n) st) s := by
  rw [answerRequest, if_neg (not_or.mpr ⟨not_not.mpr ofRun, Nat.not_lt.mpr known⟩), if_pos (holdsNote_iff_ownNote.mpr held)]

theorem answerRequest_of_none (noOwn : ¬∃ n, OwnNote s n ∧ first ≤ n.id.seq) :
    answerRequest run first s = queueFrame (.noteGone s.link.run first s.store.seq) s := by
  have unheld : ¬∃ n, OwnNote s n ∧ n.id.seq = first := fun ⟨n, own, seq⟩ => noOwn ⟨n, own, seq.ge⟩
  have noLater : ownNotesFrom s (first + 1) = [] := by
    refine List.eq_nil_iff_forall_not_mem.mpr fun n member => ?_
    obtain ⟨own, later⟩ := (mem_ownNotesFrom s _ n).mp member
    exact noOwn ⟨n, own, Nat.le_of_succ_le later⟩
  rw [answerRequest, if_neg (not_or.mpr ⟨not_not.mpr ofRun, Nat.not_lt.mpr known⟩),
    if_neg (mt holdsNote_iff_ownNote.mp unheld), noLater]

theorem answerRequest_of_later {n : Note} (own : OwnNote s n) (later : first < n.id.seq)
    (least : ∀ m, OwnNote s m → first ≤ m.id.seq → n.id.seq ≤ m.id.seq) :
    answerRequest run first s = queueFrame (.noteGone s.link.run first (n.id.seq - 1)) s := by
  have unheld : ¬∃ m, OwnNote s m ∧ m.id.seq = first := fun ⟨m, ownM, seq⟩ => by
    have := least m ownM seq.ge
    omega
  have member := (mem_ownNotesFrom s (first + 1) n).mpr ⟨own, later⟩
  rw [answerRequest, if_neg (not_or.mpr ⟨not_not.mpr ofRun, Nat.not_lt.mpr known⟩),
    if_neg (mt holdsNote_iff_ownNote.mp unheld)]
  cases list : ownNotesFrom s (first + 1) with
  | nil =>
    rw [list] at member
    cases member
  | cons m rest =>
    have sorted := pairwise_ownNotesFrom s (first + 1)
    rw [list] at member sorted
    have head : m.id.seq ≤ n.id.seq := by
      rcases List.mem_cons.mp member with rfl | inRest
      · exact Nat.le_refl _
      · exact (List.pairwise_cons.mp sorted).1 n inRest
    obtain ⟨ownM, laterM⟩ := (mem_ownNotesFrom s (first + 1) m).mp (by rw [list]; exact List.mem_cons_self ..)
    have same : m.id.seq = n.id.seq := head.antisymm (least m ownM (Nat.le_of_succ_le laterM))
    rw [← same]

end

/-! ### A NOTE REQUEST from its sender's entry to the end of its event -/

section

variable {p : Fin 8} {payload : List Byte} {s m : State} (met : Met p s m)

include met

theorem Met.ownNote (n : Note) : OwnNote m n ↔ OwnNote s n := by
  rw [OwnNote, OwnNote, met.store, met.port, met.run]

theorem Met.known {first : Nat} (known : first ≤ s.store.seq) : first ≤ m.store.seq := by
  rw [met.store]
  exact known

theorem Met.takeRequest_entry :
    (takeRequest payload m).link.peers[p] = { s.link.peers[p] with present := true, heardAt := some m.time } := by
  have peers : (takeRequest payload m).link.peers = m.link.peers := by
    unfold takeRequest
    split
    · exact answerRequest_peers
    · rfl
  rw [peers, met.entry]

theorem Met.linkActive (run : s.port.phase = .run) (active : s.link.listenOnly = false) : Machine.linkActive m = true := by
  rw [linkActive_iff, met.port, met.listenOnly]
  exact ⟨run, active⟩

theorem Met.request_unanswered
    (unanswered : field payload 0 1 ≠ s.port.station.val ∨ field payload 1 2 ≠ s.link.run ∨ s.store.seq < field payload 3 2) :
    (takeRequest payload m).link.queue = s.link.queue := by
  rw [← met.queue]
  unfold takeRequest
  split
  case isTrue target =>
    rw [met.port] at target
    have unanswerable := unanswered.resolve_left (not_not.mpr target)
    rw [← met.run, ← met.store] at unanswerable
    rw [answerRequest_of_unanswerable unanswerable]
  case isFalse => rfl

variable (phase : s.port.phase = .run) (target : field payload 0 1 = s.port.station.val)
  (ofRun : field payload 1 2 = s.link.run) (known : field payload 3 2 ≤ s.store.seq) (active : s.link.listenOnly = false)
  (room : s.link.queue.length + 4 ≤ 8)

include phase target ofRun known active room

theorem Met.request_held (held : ∃ n, OwnNote s n ∧ n.id.seq = field payload 3 2) :
    ∃ l : List Note, (∀ n ∈ l, OwnNote s n ∧ field payload 3 2 ≤ n.id.seq) ∧
      l.Pairwise (fun m n => m.id.seq ≤ n.id.seq) ∧ l.length ≤ 4 ∧
      (∀ n, OwnNote s n → field payload 3 2 ≤ n.id.seq → n ∉ l → l.length = 4 ∧ ∀ m ∈ l, m.id.seq ≤ n.id.seq) ∧
      (takeRequest payload m).link.queue = s.link.queue ++ l.map fun n => { frame := .note n, attempts := 0 } := by
  have length : ((ownNotesFrom m (field payload 3 2)).take 4).length ≤ 4 := List.length_take_le ..
  refine ⟨(ownNotesFrom m (field payload 3 2)).take 4, fun n member => ?_,
    (pairwise_ownNotesFrom m _).sublist (List.take_sublist ..), length,
    fun n own inRange => mem_take_ownNotesFrom ((met.ownNote n).mpr own) inRange, ?_⟩
  · rw [← met.ownNote]
    exact (mem_ownNotesFrom m _ n).mp (List.mem_of_mem_take member)
  · have answered := answerRequest_of_held (ofRun.trans met.run.symm) (met.known known)
      (by simpa only [met.ownNote] using held)
    rw [takeRequest, if_pos (by rw [met.port]; exact target), answered, ← met.queue]
    exact queueNotes_queue _ (met.linkActive phase active) (by rw [met.queue]; omega)

theorem Met.request_none (noOwn : ¬∃ n, OwnNote s n ∧ field payload 3 2 ≤ n.id.seq) :
    (takeRequest payload m).link.queue =
      s.link.queue ++ [{ frame := .noteGone s.link.run (field payload 3 2) s.store.seq, attempts := 0 }] := by
  have answered := answerRequest_of_none (ofRun.trans met.run.symm) (met.known known)
    (by simpa only [met.ownNote] using noOwn)
  rw [takeRequest, if_pos (by rw [met.port]; exact target), answered, met.run, met.store, ← met.queue]
  exact queueFrame_queue (met.linkActive phase active) (by rw [met.queue]; omega)

theorem Met.request_later {n : Note} (own : OwnNote s n) (later : field payload 3 2 < n.id.seq)
    (least : ∀ m, OwnNote s m → field payload 3 2 ≤ m.id.seq → n.id.seq ≤ m.id.seq) :
    (takeRequest payload m).link.queue =
      s.link.queue ++ [{ frame := .noteGone s.link.run (field payload 3 2) (n.id.seq - 1), attempts := 0 }] := by
  have answered := answerRequest_of_later (ofRun.trans met.run.symm) (met.known known)
    ((met.ownNote n).mpr own) later (by simpa only [met.ownNote] using least)
  rw [takeRequest, if_pos (by rw [met.port]; exact target), answered, met.run, ← met.queue]
  exact queueFrame_queue (met.linkActive phase active) (by rw [met.queue]; omega)

end

/-! ### The end of an event over the queue (R94, R95) -/

/-- The writer's accounts and its decision are not announced. -/
theorem announcedState_finish (before after : State) : announcedState (finish before after) = announcedState after := by
  have alone := slotsAlone_finish before after
  obtain ⟨-, port, -⟩ := finish_frame before after
  obtain ⟨-, -, capture⟩ := finish_writer before after
  refine announcedState_congr (fun i => finish_slots_map (fun u v accounts => ?_) before after i) alone.pendingStart alone.scene
    alone.nextTake port capture
  obtain ⟨_, _, _, _, _, rfl⟩ := accounts
  rfl

theorem mem_queue_requestStatus {x : TxEntry} {s : State} (queued : x ∈ s.link.queue) (other : x.frame ≠ .status) :
    x ∈ (requestStatus s).link.queue := by
  unfold requestStatus
  split_ifs
  · exact queued
  · exact queued
  · exact List.mem_map.mpr ⟨x, queued, if_neg other⟩
  · rw [(appendEntry_link .status s).1]
    exact List.mem_append_left _ queued
  · exact queued

theorem mem_queue_finish {x : TxEntry} {after : State} (before : State) (queued : x ∈ after.link.queue)
    (other : x.frame ≠ .status) : x ∈ (finish before after).link.queue := by
  have settled : (settle after).link = after.link := by simp only [settle_frame]
  have queued : x ∈ (settle after).link.queue := by rwa [settled]
  have link : (finish before after).link = (announceChange before (settle after)).link := by
    simp only [finish, makeDecision_frame]
  rw [link, announceChange]
  split
  · exact queued
  · exact mem_queue_requestStatus queued other

/-! ### A STATUS tested for catch-up (R139) -/

theorem requestAllowed_iff (now : Nat) (last : Option Nat) :
    requestAllowed now last = true ↔ ∀ asked, last = some asked → asked + 100000 ≤ now := by
  cases last with
  | none => exact ⟨fun _ => nofun, fun _ => rfl⟩
  | some last =>
    rw [requestAllowed, decide_eq_true_iff]
    exact ⟨fun allowed asked same => Option.some.inj same ▸ allowed, fun allowed => allowed last rfl⟩

/-- The peer p has notes that were not heard, and may be asked for them now. -/
def WantsRequest (p : Fin 8) (highWater : Nat) (c : State) : Prop :=
  c.link.peers[p].heardUpTo < highWater ∧ requestAllowed c.time c.link.peers[p].lastRequest = true

section

variable {p : Fin 8} {highWater : Nat} {c : State}

theorem testCatchUp_of_unwanted (unwanted : ¬WantsRequest p highWater c) : testCatchUp p highWater c = c := if_neg unwanted

theorem testCatchUp_of_inactive (inactive : linkActive c = false) : testCatchUp p highWater c = c := by
  have refuses : queueTakes c = false := by rw [queueTakes, inactive, Bool.false_and]
  unfold testCatchUp
  dsimp only
  split
  · rw [refuses, if_neg Bool.false_ne_true, queueFrame_of_inactive inactive]
  · rfl

variable (wanted : WantsRequest p highWater c) (active : linkActive c = true)

include wanted active

theorem testCatchUp_of_room (room : c.link.queue.length < 8) :
    testCatchUp p highWater c =
      setPeer p { c.link.peers[p] with lastRequest := some c.time }
        (appendEntry (.noteRequest p.val (c.link.peers[p].run.getD 0) (c.link.peers[p].heardUpTo + 1)) c) := by
  have takes : queueTakes c = true := by
    rw [queueTakes, active, Bool.true_and]
    exact decide_eq_true room
  refine (if_pos wanted).trans ((if_pos takes).trans ?_)
  rw [queueFrame_of_room active room]

theorem testCatchUp_of_full (full : 8 ≤ c.link.queue.length) :
    testCatchUp p highWater c =
      { c with
        link := { c.link with counts := { c.link.counts with refused := min 65535 (c.link.counts.refused + 1) } } } := by
  have refuses : ¬queueTakes c = true := by
    rw [queueTakes, active, Bool.true_and]
    exact fun room => Nat.not_lt.mpr full (of_decide_eq_true room)
  exact (if_pos wanted).trans ((if_neg refuses).trans (queueFrame_of_full active full))

end

/-- What a STATUS of the peer p leaves of s when the note store takes it up (R98, R102). -/
structure CatchesUp (p : Fin 8) (run u : Nat) (s c : State) : Prop where
  port : c.port = s.port
  queue : c.link.queue = s.link.queue
  listenOnly : c.link.listenOnly = s.link.listenOnly
  refused : c.link.counts.refused = s.link.counts.refused
  run : c.link.peers[p].run = some run
  heard : c.link.peers[p].heardUpTo = u
  lastRequest : c.link.peers[p].lastRequest = s.link.peers[p].lastRequest

/-- The state in which the note store takes up a STATUS. -/
def statusFollowed (p : Fin 8) (payload : List Byte) (arrival : Nat) (m : State) : State :=
  let c := applyStatus p (readStatusPayload payload) arrival m
  if followed c p then takeAnnouncement p (readStatusPayload payload) c else c

theorem takeStatus_eq (p : Fin 8) (payload : List Byte) (arrival : Nat) (m : State) :
    takeStatus p payload arrival m =
      testCatchUp p (readStatusPayload payload).highWater (statusFollowed p payload arrival m) := rfl

theorem Met.catchesUp {p : Fin 8} {s m : State} (met : Met p s m) (payload : List Byte) (arrival : Nat) :
    CatchesUp p (readStatusPayload payload).run
      (if s.link.peers[p].run = none ∨ s.link.peers[p].run = some (readStatusPayload payload).run then
        s.link.peers[p].heardUpTo else 0) s (statusFollowed p payload arrival m) := by
  have link : (statusFollowed p payload arrival m).link =
      (setPeer p (statusEntry m (readStatusPayload payload) arrival m.link.peers[p]) m).link := by
    have entered : (applyStatus p (readStatusPayload payload) arrival m).link =
        (setPeer p (statusEntry m (readStatusPayload payload) arrival m.link.peers[p]) m).link := by
      rw [applyStatus_eq, raiseIf_link]
    unfold statusFollowed
    dsimp only
    split
    · simp only [takeAnnouncement_frame, entered]
    · exact entered
  have port : (statusFollowed p payload arrival m).port = m.port := by
    unfold statusFollowed
    dsimp only
    split
    · simp only [takeAnnouncement_frame, applyStatus_frame]
    · simp only [applyStatus_frame]
  have entry : (statusFollowed p payload arrival m).link.peers[p] =
      statusEntry m (readStatusPayload payload) arrival m.link.peers[p] := by
    simp only [link]
    exact (setPeer_peers p p _ m).trans (if_pos rfl)
  refine ⟨port.trans met.port, (congrArg Link.queue link).trans met.queue, (congrArg Link.listenOnly link).trans met.listenOnly,
    ?_, ?_, ?_, ?_⟩
  · exact (congrArg (fun l => l.counts.refused) link).trans (congrArg LinkCounts.refused met.counts)
  · rw [entry]
    rfl
  · rw [entry, met.entry]
    rfl
  · rw [entry, met.entry]
    rfl

section

variable {p : Fin 8} {run u highWater : Nat} {s c t : State} (caught : CatchesUp p run u s c)

include caught

theorem CatchesUp.heardUpTo (ends : EndsAs (testCatchUp p highWater c) t) : t.link.peers[p].heardUpTo = u := by
  obtain ⟨-, ⟨asked, entry⟩, -⟩ := testCatchUp_link p highWater c
  rw [ends.peers, entry]
  exact caught.heard

theorem CatchesUp.wants_iff (ends : EndsAs (testCatchUp p highWater c) t) :
    (u < highWater ∧ ∀ last, s.link.peers[p].lastRequest = some last → last + 100000 ≤ t.time) ↔
      WantsRequest p highWater c := by
  obtain ⟨time, -⟩ := testCatchUp_frame p highWater c
  rw [WantsRequest, requestAllowed_iff, caught.heard, caught.lastRequest, ends.time, time]

theorem CatchesUp.linkActive_iff (phase : s.port.phase = .run) : linkActive c = true ↔ s.link.listenOnly = false := by
  rw [Proofs.linkActive_iff, caught.port, caught.listenOnly]
  exact and_iff_right phase

/-- A request that the queue takes is marked on the entry (R93, R139). -/
theorem CatchesUp.asks (wanted : WantsRequest p highWater c) (active : linkActive c = true) (room : s.link.queue.length < 8)
    (ends : EndsAs (testCatchUp p highWater c) t) :
    t.link.peers[p].lastRequest = some t.time ∧
      (testCatchUp p highWater c).link.queue =
        s.link.queue ++ [{ frame := .noteRequest p.val run (u + 1), attempts := 0 }] := by
  obtain ⟨time, -⟩ := testCatchUp_frame p highWater c
  rw [ends.peers, ends.time, time, testCatchUp_of_room wanted active (by rw [caught.queue]; exact room), setPeer_peers,
    if_pos rfl, ← caught.queue]
  refine ⟨rfl, (appendEntry_link _ c).1.trans ?_⟩
  rw [caught.run, caught.heard]
  rfl

/-- Without a request the queue takes, the entry and the queue stay. -/
theorem CatchesUp.stays (stays : ¬WantsRequest p highWater c ∨ linkActive c = false ∨ 8 ≤ s.link.queue.length)
    (ends : EndsAs (testCatchUp p highWater c) t) :
    t.link.peers[p].lastRequest = s.link.peers[p].lastRequest ∧ (testCatchUp p highWater c).link.queue = s.link.queue := by
  rw [ends.peers, ← caught.lastRequest, ← caught.queue]
  by_cases wanted : WantsRequest p highWater c
  · cases active : linkActive c with
    | false => rw [testCatchUp_of_inactive active]; exact ⟨rfl, rfl⟩
    | true =>
      have full := (stays.resolve_left (not_not.mpr wanted)).resolve_left (by rw [active]; decide)
      rw [testCatchUp_of_full wanted active (by rw [caught.queue]; exact full)]
      exact ⟨rfl, rfl⟩
  · rw [testCatchUp_of_unwanted wanted]
    exact ⟨rfl, rfl⟩

theorem CatchesUp.refuses (wanted : WantsRequest p highWater c) (active : linkActive c = true)
    (full : 8 ≤ s.link.queue.length) (ends : EndsAs (testCatchUp p highWater c) t) :
    t.link.counts.refused = min 65535 (s.link.counts.refused + 1) := by
  rw [ends.counts, testCatchUp_of_full wanted active (by rw [caught.queue]; exact full), ← caught.refused]

theorem CatchesUp.unrefused (unwanted : ¬WantsRequest p highWater c) (ends : EndsAs (testCatchUp p highWater c) t) :
    t.link.counts.refused = s.link.counts.refused := by
  rw [ends.counts, testCatchUp_of_unwanted unwanted]
  exact caught.refused

end

/-! ### The four frames -/

/-- Settles O51: each frame of a peer from its sender's entry to the note store and the end of its event. -/
theorem noteTrafficOfAPeer : Obligations.NoteTrafficOfAPeer := by
  unfold Obligations.NoteTrafficOfAPeer
  intro s f p other sender peer e heldIn advanced sameNotes
  refine ⟨fun heard valid => ?note, fun heard valid => ?request, fun heard valid => ?gone, fun heard length check => ?status⟩
  case note =>
    intro run seq u raw read acceptable
    have hears : HearsPeer 2#8 s f p := ⟨heard, valid, other, sender, peer⟩
    let m := applyRun p run (frameMet 2#8 p f s)
    have entered : Entered p run u s m := (met_frameMet 2#8 p f s).entered run
    obtain ⟨t, row, ends⟩ : ∃ t, exec (.noteFrame f) s = .next t ∧ EndsAs (takePeerNote p f.payload m) t :=
      hears.ends (x := (2#8, .noteFrame f)) (by simp [frameRows])
    have counts : (takePeerNote p f.payload m).link.counts = m.link.counts := by
      obtain ⟨peers, link⟩ := peersAlone_takeNote p f.payload (frameMet 2#8 p f s)
      obtain ⟨_, before⟩ := peersAlone_applyRun p run (frameMet 2#8 p f s)
      exact (congrArg Link.counts link).trans (congrArg Link.counts before).symm
    obtain ⟨port, own, counter, present, ofRun, heardAt, received⟩ := entered.note ends counts
    refine ⟨t, row, port, own, counter, present, ofRun, heardAt, received, fun unfit => ?_, fun kind fit => ?_⟩
    · have rejects : takePeerNote p f.payload m = rejectNote p seq m :=
        takePeerNote_of_unacceptable read fun kind fit => unfit kind (show Acceptable s.day f.payload raw kind from entered.day ▸ fit)
      exact entered.rejected (rejects ▸ ends)
    let n := peerNote p f.payload raw kind
    have fitHere : Acceptable m.day f.payload raw kind := entered.day.symm ▸ fit
    have accepts : takePeerNote p f.payload m = acceptNote p n m := takePeerNote_of_acceptable read fitHere
    have isOfPeer : n.id = { originator := p.val, run := run, seq := n.id.seq } := rfl
    rw [accepts] at ends
    obtain ⟨-, -, rejected, lost, duplicates⟩ := acceptNote_keeps p n m
    rw [entered.store] at rejected lost duplicates
    refine ⟨ends.rejected.trans rejected, ends.lost.trans lost, entered.copy isOfPeer ends, fun unheard unheld => ?_⟩
    refine ⟨ends.duplicates.trans (duplicates (entered.fresh isOfPeer unheard unheld)), fun full unwritten => ?_,
      fun kept stay => ?_⟩
    · exact entered.refused isOfPeer unheard unheld ends (storeHasRoom_of_full full unwritten)
    · intro _ marks
      obtain ⟨notes, refused, arrived, advances, takes⟩ := entered.stored isOfPeer unheard unheld ends stay
      refine ⟨notes, refused, arrived, advances, fun i => (ends.marks i).trans ?_⟩
      rw [takes]
      rfl
  case request => 
    intro run first own
    have hears : HearsPeer 3#8 s f p := ⟨heard, valid, other, sender, peer⟩
    have met := met_frameMet 3#8 p f s
    have row := hears.executes (x := (3#8, .noteRequestFrame f)) (by simp [frameRows])
    let after := takeRequest f.payload (frameMet 3#8 p f s)
    have ends := endsAs_finish (hearFrame 3#8 f s) after
    obtain ⟨time, port, -, counter, -, -, -, takes, -, writer, -⟩ := takeRequest_frame f.payload (frameMet 3#8 p f s)
    have leaves : LeavesTakes (hearFrame 3#8 f s) after :=
      ⟨takes.trans met.takes, port.trans met.port, writer.trans met.writer⟩
    have queue := congrArg Link.queue leaves.finish_link
    have entry : (finish (hearFrame 3#8 f s) after).link.peers[p] =
        { e with present := true, heardAt := some (finish (hearFrame 3#8 f s) after).time } := by
      rw [ends.peers, ends.time, time]
      exact met.takeRequest_entry
    have notes := ends.notes.trans ((sameNotes_takeRequest f.payload _).notes.trans (by rw [met.store]))
    refine ⟨_, row, ends.port.trans leaves.port, ends.counter.trans (counter.trans met.counter), entry, notes,
      fun unanswered => queue.trans (met.request_unanswered unanswered), fun target ofRun known active room => ?_⟩
    refine ⟨fun held => ?_, fun noOwn => ?_, fun n own later least => ?_⟩
    · obtain ⟨l, owns, sorted, four, least, queued⟩ := met.request_held hears.run target ofRun known active room held
      exact ⟨l, owns, sorted, four, least, queue.trans queued⟩
    · exact queue.trans (met.request_none hears.run target ofRun known active room noOwn)
    · exact queue.trans (met.request_later hears.run target ofRun known active room own later least)
  case gone =>
    intro run a b lost
    have hears : HearsPeer 4#8 s f p := ⟨heard, valid, other, sender, peer⟩
    have met := met_frameMet 4#8 p f s
    obtain ⟨t, row, ends⟩ : ∃ t, exec (.noteGoneFrame f) s = .next t ∧ EndsAs (takeGone p f.payload (frameMet 4#8 p f s)) t :=
      hears.ends (x := (4#8, .noteGoneFrame f)) (by simp [frameRows])
    obtain ⟨port, counter, present, ofRun, notes⟩ := met.gone ends
    refine ⟨t, row, port, counter, present, ofRun, notes, met.gone_apart ends, fun known adjoins new => ?_⟩
    have counted : unheld s p.val run e.heardUpTo (b - e.heardUpTo) = lost := unheld_eq_length s p.val run _ _
    rw [← counted]
    exact met.gone_adjoining ends known adjoins new
  case status =>
    intro x u wants request free
    have hears : HearsPeer 1#8 s f p := ⟨heard, frameValid_of_status sender length check, other, sender, peer⟩
    have row := hears.executes (x := (1#8, .statusFrame f)) (List.mem_cons_self ..)
    let c := statusFollowed p f.payload (arrivalPosition s) (frameMet 1#8 p f s)
    have caught : CatchesUp p x.run u s c := (met_frameMet 1#8 p f s).catchesUp f.payload (arrivalPosition s)
    have ends := endsAs_finish (hearFrame 1#8 f s) (testCatchUp p x.highWater c)
    have wanted := caught.wants_iff ends
    have active := caught.linkActive_iff hears.run
    have unannounced : announcedState (finish (hearFrame 1#8 f s) (testCatchUp p x.highWater c)) = announcedState s →
        (finish (hearFrame 1#8 f s) (testCatchUp p x.highWater c)).link.queue = (testCatchUp p x.highWater c).link.queue :=
      fun same => congrArg Link.queue
        (finish_link_of_announced (before := hearFrame 1#8 f s) ((announcedState_finish _ _).symm.trans same))
    refine ⟨_, row, caught.heardUpTo ends, fun wants ⟨listens, room⟩ => ?_, fun stays => ?_, fun wants listens full => ?_,
      fun unwanted => ?_⟩
    · obtain ⟨asked, queue⟩ := caught.asks (wanted.mp wants) (active.mpr listens) room ends
      refine ⟨asked, mem_queue_finish _ ?_ nofun, fun same => (unannounced same).trans queue⟩
      exact queue ▸ List.mem_append_right _ (List.mem_singleton_self _)
    · have keeps : ¬WantsRequest p x.highWater c ∨ linkActive c = false ∨ 8 ≤ s.link.queue.length := by
        rcases stays with unwanted | unfree
        · exact .inl (mt wanted.mpr unwanted)
        · rcases not_and_or.mp unfree with deaf | full
          · exact .inr (.inl (Bool.eq_false_iff.mpr (mt active.mp deaf)))
          · exact .inr (.inr (Nat.le_of_not_lt full))
      obtain ⟨asked, queue⟩ := caught.stays keeps ends
      exact ⟨asked, fun same => (unannounced same).trans queue⟩
    · exact caught.refuses (wanted.mp wants) (active.mpr listens) full ends
    · exact caught.unrefused (mt wanted.mpr unwanted) ends

end Sys2Proof.Proofs
end

section
/-! PROOFS. The end of a mix block: the tables of gate and envelope over one track, the state that the 64th frame's peaks leave,
and what the block end makes of each track (R144, R145, R148 to R151). -/

namespace Sys2Proof.Proofs

open Sys2Proof Sys2Proof.Machine Sys2Proof.Safety

/-! ### The gate after a block end (R149) -/

section

variable {m : MixTrack}

theorem gateUpdate_of_closed (closed : m.gate = .closed) :
    gateUpdate m =
      if m.settings.openThreshold * 2 ^ 29 ≤ m.peak then { m with gate := .opened, hold := 0 } else { m with hold := 0 } := by
  obtain ⟨settings, gate, hold, envelope, gain, peak⟩ := m
  obtain rfl : gate = .closed := closed
  rfl

theorem gateUpdate_of_opened (opened : m.gate = .opened) :
    gateUpdate m =
      if m.settings.closeThreshold * 2 ^ 29 ≤ m.peak then { m with hold := 0 }
      else if m.hold + 1 ≤ m.settings.closeHold then { m with hold := m.hold + 1 }
      else { m with gate := .closed, hold := 0 } := by
  obtain ⟨settings, gate, hold, envelope, gain, peak⟩ := m
  obtain rfl : gate = .opened := opened
  rfl

/-- Of a track a gate's update changes gate and hold count alone. -/
theorem gateUpdate_eq (m : MixTrack) : ∃ gate hold, gateUpdate m = { m with gate := gate, hold := hold } := by
  cases gate : m.gate with
  | closed =>
    rw [gateUpdate_of_closed gate]
    split_ifs
    · exact ⟨_, _, rfl⟩
    · exact ⟨m.gate, _, rfl⟩
  | opened =>
    rw [gateUpdate_of_opened gate]
    split_ifs
    · exact ⟨m.gate, _, rfl⟩
    · exact ⟨m.gate, _, rfl⟩
    · exact ⟨_, _, rfl⟩

@[simp] theorem gateUpdate_settings (m : MixTrack) : (gateUpdate m).settings = m.settings := by
  obtain ⟨gate, hold, updated⟩ := gateUpdate_eq m
  rw [updated]

@[simp] theorem gateUpdate_peak (m : MixTrack) : (gateUpdate m).peak = m.peak := by
  obtain ⟨gate, hold, updated⟩ := gateUpdate_eq m
  rw [updated]

/-! ### The envelope state that the gate chooses (R151, first table) -/

theorem envelopeByGate_of_closed (gate : m.gate = .closed) (sounding : m.envelope ≠ .closed) :
    envelopeByGate m = .release := by
  rw [envelopeByGate, gate]
  cases envelope : m.envelope with
  | closed => exact absurd envelope sounding
  | attack => rfl
  | decay => rfl
  | held => rfl
  | release => rfl

theorem envelopeByGate_of_silent (gate : m.gate = .closed) (silent : m.envelope = .closed) :
    envelopeByGate m = .closed := by
  rw [envelopeByGate, gate, silent]

theorem envelopeByGate_of_rising (gate : m.gate = .opened)
    (rising : m.envelope = .closed ∨ m.envelope = .release ∨ m.envelope = .attack) : envelopeByGate m = .attack := by
  rw [envelopeByGate, gate]
  rcases rising with envelope | envelope | envelope
  all_goals rw [envelope]

theorem envelopeByGate_of_risen (gate : m.gate = .opened) (risen : m.envelope = .decay ∨ m.envelope = .held) :
    envelopeByGate m = m.envelope := by
  rw [envelopeByGate, gate]
  rcases risen with envelope | envelope
  all_goals rw [envelope]

/-! ### The gain move of the envelope (R151, second table) -/

variable (target : Nat)

theorem envelopeUpdate_of_closed (state : envelopeByGate m = .closed) :
    envelopeUpdate target m = { m with gain := 0, envelope := .closed } := by
  rw [envelopeUpdate, state, gainMove]

theorem envelopeUpdate_of_attack (state : envelopeByGate m = .attack) :
    envelopeUpdate target m =
      if 4096 ≤ m.gain + m.settings.attack then { m with gain := 4096, envelope := .decay }
      else { m with gain := m.gain + m.settings.attack, envelope := .attack } := by
  rw [envelopeUpdate, state, gainMove]
  rfl

theorem envelopeUpdate_of_decay (state : envelopeByGate m = .decay) :
    envelopeUpdate target m =
      if m.gain ≤ target + m.settings.decay then { m with gain := target, envelope := .held }
      else { m with gain := m.gain - m.settings.decay, envelope := .decay } := by
  rw [envelopeUpdate, state, gainMove]

/-- At the target a held gain stays: it is at least what the decay would leave. -/
theorem envelopeUpdate_of_held (state : envelopeByGate m = .held) :
    envelopeUpdate target m =
      { m with
        gain :=
          if m.gain < target then min target (m.gain + m.settings.attack) else max target (m.gain - m.settings.decay)
        envelope := .held } := by
  rw [envelopeUpdate, state, gainMove]
  dsimp only
  split_ifs with below above
  · rfl
  · rfl
  · have here : max target (m.gain - m.settings.decay) = m.gain := by omega
    rw [here]

theorem envelopeUpdate_of_release (state : envelopeByGate m = .release) :
    envelopeUpdate target m =
      if m.gain ≤ m.settings.release then { m with gain := 0, envelope := .closed }
      else { m with gain := m.gain - m.settings.release, envelope := .release } := by
  rw [envelopeUpdate, state, gainMove]

end

/-- Settles O38: each row of the tables is the update under the row's condition. -/
theorem gateAndEnvelopeTables : Obligations.GateAndEnvelopeTables := by
  unfold Obligations.GateAndEnvelopeTables
  intro m target above
  refine ⟨fun closed loud => ?opens, fun closed quiet => ?staysClosed, fun opened loud => ?staysOpen,
    fun opened quiet within => ?holds, fun opened quiet past => ?closes, fun closed silent => ?silent,
    fun opened rising => ?attack, fun closed sounding => ?release, fun opened decay => ?decay, fun opened held => ?held⟩
  case opens => rw [gateUpdate_of_closed closed, if_pos loud]
  case staysClosed => rw [gateUpdate_of_closed closed, if_neg quiet]
  case staysOpen => rw [gateUpdate_of_opened opened, if_pos loud]
  case holds => rw [gateUpdate_of_opened opened, if_neg quiet, if_pos within]
  case closes => rw [gateUpdate_of_opened opened, if_neg quiet, if_neg (Nat.not_le.mpr past)]
  case silent => rw [envelopeUpdate_of_closed target (envelopeByGate_of_silent closed silent), ← silent]
  case attack => exact envelopeUpdate_of_attack target (envelopeByGate_of_rising opened rising)
  case release => exact envelopeUpdate_of_release target (envelopeByGate_of_closed closed sounding)
  case decay =>
    have state := envelopeByGate_of_risen opened (.inl decay)
    rw [envelopeUpdate_of_decay target (state.trans decay), ← decay]
  case held =>
    have state := envelopeByGate_of_risen opened (.inr held)
    rw [envelopeUpdate_of_held target (state.trans held), ← held]

/-! ### The peaks and gates of the block with the 64th frame in it (R145, R148, R149) -/

/-- The peak of a track over the block with this frame in it, in units of 2^-45 (R148). -/
def blockPeak (s : State) (conv : Vector Converted 16) (n : Fin 16) : Nat :=
  max s.mixer.tracks[n].peak (valueOf conv[n].word).natAbs

/-- A track of the mix with its gate updated from the peak of the block (R149). -/
def gatedTrack (s : State) (conv : Vector Converted 16) (n : Fin 16) : MixTrack :=
  gateUpdate { s.mixer.tracks[n] with peak := blockPeak s conv n }

/-- The state b has what the block end of s reads: the settings and partners of s, and the mix tracks of s with the peaks of
this frame in them. -/
structure AtBlockEnd (s : State) (conv : Vector Converted 16) (b : State) : Prop where
  enabled : mixEnabled b = mixEnabled s
  partner : ∀ n : Fin 16, b.front.tracks[n].partner = s.front.tracks[n].partner
  tracks : ∀ n : Fin 16, b.mixer.tracks[n] =
    if mixEnabled s n then { s.mixer.tracks[n] with peak := blockPeak s conv n } else s.mixer.tracks[n]

theorem gateAll_getElem (s : State) (n : Fin 16) :
    (gateAll s)[n] = if mixEnabled s n then gateUpdate s.mixer.tracks[n] else s.mixer.tracks[n] := by
  simp only [gateAll, Fin.getElem_fin, Vector.getElem_ofFn]

theorem raisePeaks_getElem (conv : Vector Converted 16) (s : State) (n : Fin 16) :
    (raisePeaks conv s).mixer.tracks[n] =
      if mixEnabled s n then { s.mixer.tracks[n] with peak := blockPeak s conv n } else s.mixer.tracks[n] := by
  simp only [raisePeaks, Fin.getElem_fin, Vector.getElem_ofFn, wordMag, wordUnits_eq_valueOf, blockPeak]

/-- A track is ducked when its partner is a track of the mix whose gate is open and whose peak is the greater (R150). -/
theorem isDucked_iff (s : State) (gated : Vector MixTrack 16) (n : Fin 16) :
    isDucked s gated n = true ↔
      ∃ p : Fin 16, s.front.tracks[n].partner = some (p.val + 1) ∧ mixEnabled s p = true ∧ gated[p].gate = .opened ∧
        gated[n].peak < gated[p].peak := by
  have number (p : Fin 16) : s.front.tracks[n].partner = some (p.val + 1) ↔
      s.front.tracks[n].partner.bind trackIndex = some p := by
    simp only [Option.bind_eq_some_iff, trackIndex_eq_some_iff, exists_eq_right]
  simp only [number]
  unfold isDucked
  cases s.front.tracks[n].partner.bind trackIndex with
  | none => simp
  | some p => simp [and_assoc]

theorem atBlockEnd_of_raised {s u b : State} {conv : Vector Converted 16} (front : b.front = u.front)
    (raised : b.mixer.tracks = (raisePeaks conv u).mixer.tracks) (enabled : mixEnabled u = mixEnabled s)
    (partner : ∀ n : Fin 16, u.front.tracks[n].partner = s.front.tracks[n].partner)
    (tracks : u.mixer.tracks = s.mixer.tracks) : AtBlockEnd s conv b := by
  refine ⟨?enabled, by rwa [front], fun n => ?tracks⟩
  case enabled => exact (mixEnabled_of_settings fun _ => by rw [front]; exact ⟨rfl, rfl⟩).trans enabled
  case tracks => rw [raised, raisePeaks_getElem, enabled, blockPeak, tracks, blockPeak]

namespace AtBlockEnd

variable {s b : State} {conv : Vector Converted 16} (reads : AtBlockEnd s conv b) {n : Fin 16}

include reads

theorem gated (on : mixEnabled s n = true) : (gateAll b)[n] = gatedTrack s conv n := by
  rw [gateAll_getElem, reads.enabled, if_pos on, reads.tracks, if_pos on, gatedTrack]

theorem ducked_iff (on : mixEnabled s n = true) :
    isDucked b (gateAll b) n = true ↔
      ∃ p : Fin 16, s.front.tracks[n].partner = some (p.val + 1) ∧ mixEnabled s p = true ∧
        (gatedTrack s conv p).gate = .opened ∧ blockPeak s conv n < blockPeak s conv p := by
  rw [isDucked_iff, reads.partner, reads.enabled, reads.gated on]
  refine exists_congr fun p => and_congr_right fun _ => and_congr_right fun partnerOn => ?_
  rw [reads.gated partnerOn, gatedTrack, gatedTrack, gateUpdate_peak, gateUpdate_peak]

/-- The target level is the duck of a ducked track and else its sustain (R150). -/
theorem target (on : mixEnabled s n = true) {ducked : Prop} [Decidable ducked]
    (ducks : isDucked b (gateAll b) n = true ↔ ducked) :
    targetLevel b (gateAll b) n =
      if ducked then s.mixer.tracks[n].settings.duck else s.mixer.tracks[n].settings.sustain := by
  simp only [targetLevel, ducks, reads.gated on, gatedTrack, gateUpdate_settings]

theorem unmixed (off : ¬mixEnabled s n = true) : (blockEndUpdate b).mixer.tracks[n] = s.mixer.tracks[n] := by
  rw [blockEndUpdate_tracks, gateAll_getElem, reads.enabled, if_neg off, if_neg off, reads.tracks, if_neg off]

theorem updated (on : mixEnabled s n = true) :
    (blockEndUpdate b).mixer.tracks[n] =
      { envelopeUpdate (targetLevel b (gateAll b) n) (gatedTrack s conv n) with peak := 0 } := by
  rw [blockEndUpdate_tracks, reads.enabled, if_pos on, reads.gated on]

end AtBlockEnd

/-! ### The 64th frame of a block (R144, R145) -/

/-- The last frame of a block makes the block end with the block frame count returned to 0. -/
theorem countBlockFrame_of_last {s : State} (last : s.mixer.blockCount = 63) :
    ∃ b, countBlockFrame s = blockEndUpdate b ∧ b.front = s.front ∧ b.mixer.tracks = s.mixer.tracks ∧
      b.mixer.blockCount = 0 := by
  rw [countBlockFrame, if_neg (by rw [last]; decide)]
  exact ⟨_, rfl, rfl, rfl, rfl⟩

@[simp] theorem blockEndUpdate_blockCount (s : State) : (blockEndUpdate s).mixer.blockCount = s.mixer.blockCount := rfl

/-- A frame's conversion leaves the partner of a track. -/
theorem convertTrack_partner (mode : Rounding) (u : Track) (r : Reading) :
    (convertTrack mode u r).track.partner = u.partner := by
  unfold convertTrack
  split
  · rfl
  · rfl
  · split <;> rfl
  · rfl

theorem mixClip_mix (s : State) :
    (mixClip s).mixer.tracks = s.mixer.tracks ∧ (mixClip s).mixer.blockCount = s.mixer.blockCount := by
  simp only [mixClip, offerClip_frame, and_self]

theorem blockEndDue_of_last {s : State} (run : s.inRun = true) (on : mixIsEnabled s = true)
    (last : s.mixer.blockCount = 63) : blockEndDue s = true := by
  rw [blockEndDue, run, on, last]
  rfl

section

variable (f : FrameIn) (s : State)

/-- The state in which the peaks are raised: the frame converted, and a clip of its mix counted and offered. -/
def clippedFrame : State := if mixClips f s then mixClip (convertedFrame f s) else convertedFrame f s

theorem clippedFrame_tracks : (clippedFrame f s).front.tracks = (convertedFrame f s).front.tracks := by
  unfold clippedFrame
  split
  · exact mixClip_tracks _
  · rfl

theorem clippedFrame_mix :
    (clippedFrame f s).mixer.tracks = s.mixer.tracks ∧ (clippedFrame f s).mixer.blockCount = s.mixer.blockCount := by
  obtain ⟨-, -, mixer⟩ := convertedFrame_frame f s
  unfold clippedFrame
  split
  · rw [← mixer]
    exact mixClip_mix _
  · rw [mixer]
    exact ⟨rfl, rfl⟩

theorem clippedFrame_enabled : mixEnabled (clippedFrame f s) = mixEnabled s := by
  rw [← (convertedFrame_mix f s).1]
  exact mixEnabled_of_settings fun n => by rw [clippedFrame_tracks]; exact ⟨rfl, rfl⟩

theorem clippedFrame_partner (n : Fin 16) :
    (clippedFrame f s).front.tracks[n].partner = s.front.tracks[n].partner := by
  rw [clippedFrame_tracks, convertedFrame, convertFrame_tracks, convertAll_getElem, convertTrack_partner]

theorem mixedFrame_of_enabled (on : mixIsEnabled s = true) :
    (mixedFrame f s).mixer.tracks = (countBlockFrame (raisePeaks (convertAll s f) (clippedFrame f s))).mixer.tracks ∧
      (mixedFrame f s).mixer.blockCount =
        (countBlockFrame (raisePeaks (convertAll s f) (clippedFrame f s))).mixer.blockCount := by
  have mixed : mixIsEnabled (convertedFrame f s) = true := (mixIsEnabled_convertedFrame f s).trans on
  rw [mixedFrame, mixFrame, if_pos mixed, stage3_convertedFrame, clippedFrame, mixClips, on, Bool.true_and]
  exact ⟨rfl, rfl⟩

/-- The last frame of a block makes the block end over a state that differs from s, in what the block end reads, by the peaks
alone. -/
theorem mixedFrame_of_last (on : mixIsEnabled s = true) (last : s.mixer.blockCount = 63) :
    ∃ b, AtBlockEnd s (convertAll s f) b ∧ (mixedFrame f s).mixer.tracks = (blockEndUpdate b).mixer.tracks ∧
      (mixedFrame f s).mixer.blockCount = 0 := by
  obtain ⟨tracks, count⟩ := clippedFrame_mix f s
  obtain ⟨mixed, counted⟩ := mixedFrame_of_enabled f s on
  obtain ⟨b, ended, front, raised, returned⟩ :=
    countBlockFrame_of_last (s := raisePeaks (convertAll s f) (clippedFrame f s)) (count.trans last)
  rw [ended] at mixed counted
  refine ⟨b, ?reads, mixed, by rw [counted, blockEndUpdate_blockCount, returned]⟩
  exact atBlockEnd_of_raised (front.trans (raisePeaks_front _ _)) raised (clippedFrame_enabled f s)
    (clippedFrame_partner f s) tracks

end

/-- Settles O37: at the 64th frame the arrival is the mix with its block end, and the block end reads of s what no other part
of the arrival touches, with this frame's peaks. -/
theorem blockEndUpdatesGatesAndGains : Obligations.BlockEndUpdatesGatesAndGains := by
  unfold Obligations.BlockEndUpdatesGatesAndGains
  intro f s phase on last conv peak gated target
  have run := inRun_of_run phase
  obtain ⟨-, mixer, -⟩ := arriveFrame_blocks f run
  obtain ⟨b, reads, tracks, count⟩ := mixedFrame_of_last f s on last
  obtain ⟨-, -, -, output⟩ := mixedFrame_blocks f s
  rw [if_pos on] at output
  refine ⟨arriveFrame f s, next_of_due (blockEndDue_of_last run on last) f s, rfl, ?count, ?output, fun n => ?track⟩
  case count => rw [mixer, count]
  case output => rw [mixer, output]
  case track =>
    rw [mixer, tracks]
    by_cases mixed : mixEnabled s n = true
    · rw [if_pos mixed, reads.updated mixed, reads.target mixed (reads.ducked_iff mixed)]
      rfl
    · rw [if_neg mixed, reads.unmixed mixed]

end Sys2Proof.Proofs
end

section
/-! PROOFS. The media writer's layer: what a decision puts in flight, what a completion makes of cursor and space state, what a
re-issue and the end of an event leave of the writer (R157, R158, R164, R165, R168, R171, R174). -/

namespace Sys2Proof.Proofs

open Sys2Proof Sys2Proof.Machine Sys2Proof.Safety

/-! ### Space and content (R158) -/

theorem spaceAllows_iff (s : State) (x : Content) :
    spaceAllows s x = true ↔
      s.writer.space = some .ample ∨ s.writer.space = some .nearFull ∨
        (s.writer.space = some .full ∧ ∀ i, isAudioOf i x = false) := by
  unfold spaceAllows
  cases s.writer.space with
  | none => simp
  | some space =>
    cases space <;> cases x <;> simp [isAudioOf]

theorem spaceOf_of_left {n : Nat} (left : 64 < n) : spaceOf n = .ample ∨ spaceOf n = .nearFull := by
  unfold spaceOf Config.fullBlocks Config.nearFullBlocks
  split_ifs
  · omega
  · omega
  · exact .inr rfl
  · exact .inl rfl

theorem spaceOf_of_reserve {n : Nat} (some_left : 0 < n) (reserve : n ≤ 64) : spaceOf n = .full := by
  rw [spaceOf, if_neg (by omega), Config.fullBlocks, if_pos reserve]

theorem spaceOf_zero : spaceOf 0 = .exhausted := rfl

theorem spaceOf_eq_exhausted_iff (n : Nat) : spaceOf n = .exhausted ↔ n = 0 := by
  unfold spaceOf
  split_ifs with none_left
  all_goals simp [none_left]

theorem cardFull_iff (s : State) : cardFull s = true ↔ s.writer.space = some .full ∨ s.writer.space = some .exhausted := by
  unfold cardFull
  cases s.writer.space with
  | none => simp
  | some space => cases space <;> simp

/-! ### What a decision puts in flight (R158, R164, R165) -/

/-- A first write of this content at this address (R164). -/
def firstWrite (addr : Nat) (x : Content) : Write :=
  { addr := addr, content := x, attempt := .first, stale := false, ofRetryCommand := false }

theorem urgentRequest_not_audio {s : State} {i : Fin 3} : urgentRequest s ≠ some (.audio i) := by
  unfold urgentRequest
  split
  · nofun
  · split_ifs <;> nofun

/-- A choice needs a space state other than EXHAUSTED, and on a FULL card it is the urgent request (R158). -/
theorem choose_space {s : State} {r : Request} (chosen : choose s = some r) :
    s.writer.space = some .ample ∨ s.writer.space = some .nearFull ∨
      (s.writer.space = some .full ∧ urgentRequest s = some r) := by
  unfold choose at chosen
  cases space : s.writer.space with
  | none => rw [space] at chosen; cases chosen
  | some x =>
    rw [space] at chosen
    cases x with
    | ample => exact .inl rfl
    | nearFull => exact .inr (.inl rfl)
    | full => exact .inr (.inr ⟨rfl, chosen⟩)
    | exhausted => cases chosen

/-- An issued request leaves the writer, or puts its content in flight as a first write at the cursor; the content is an audio
block for the request of one alone. -/
theorem issueRequest_flight (r : Request) (s : State) :
    (issueRequest r s).writer = s.writer ∨
      ∃ x, (issueRequest r s).writer = { s.writer with inFlight := some (firstWrite (s.writer.cursor.getD 0) x) } ∧
        ((∀ i, r ≠ .audio i) → ∀ i, isAudioOf i x = false) := by
  cases r with
  | notes => exact .inr ⟨_, rfl, fun _ _ => rfl⟩
  | fault => exact .inr ⟨_, rfl, fun _ _ => rfl⟩
  | index i =>
    unfold issueRequest
    dsimp only
    split
    · exact .inl rfl
    · exact .inr ⟨_, rfl, fun _ _ => rfl⟩
  | audio i =>
    unfold issueRequest
    dsimp only
    split
    · exact .inl rfl
    · split
      · exact .inl rfl
      · exact .inr ⟨_, rfl, fun other => absurd rfl (other i)⟩

theorem mayIssue_iff (s : State) :
    mayIssue s = true ↔
      s.port.phase = .run ∧ s.writer.capture = .normal ∧ s.writer.inFlight = none ∧ ∃ c, s.writer.cursor = some c := by
  simp only [mayIssue, Bool.and_eq_true, inRun_iff, beq_iff_eq, Option.isNone_iff_eq_none, Option.isSome_iff_exists, and_assoc]

/-- A decision leaves the writer as it is, or puts in flight, at the cursor of a free writer in NORMAL, a first write of a content
that the space state allows (R158, R164). -/
theorem makeDecision_flight (s : State) :
    (makeDecision s).writer = s.writer ∨
      ∃ c x, s.port.phase = .run ∧ s.writer.capture = .normal ∧ s.writer.inFlight = none ∧ s.writer.cursor = some c ∧
        spaceAllows s x = true ∧ (makeDecision s).writer = { s.writer with inFlight := some (firstWrite c x) } := by
  rcases makeDecision_cases s with same | ⟨r, may, chosen, issued⟩
  · exact .inl (by rw [same])
  · rw [issued]
    rcases issueRequest_flight r s with same | ⟨x, flight, other⟩
    · exact .inl same
    · obtain ⟨run, normal, free, c, cursor⟩ := (mayIssue_iff s).mp may
      rw [cursor, Option.getD_some] at flight
      refine .inr ⟨c, x, run, normal, free, cursor, (spaceAllows_iff s x).mpr ?_, flight⟩
      rcases choose_space chosen with ample | nearFull | ⟨full, urgent⟩
      · exact .inl ample
      · exact .inr (.inl nearFull)
      · exact .inr (.inr ⟨full, other fun i audio => urgentRequest_not_audio (audio ▸ urgent)⟩)

/-! ### Cursor and space state (R157, R158) -/

theorem remaining_of_card {s : State} {a b c : Nat} (range : s.writer.range = some (a, b)) (cursor : s.writer.cursor = some c) :
    remaining s = some (b + 1 - c) := by
  simp only [remaining, range, cursor]

/-- Of the writer a new space state changes that state alone. -/
theorem setSpace_writer {s : State} {n : Nat} (left : remaining s = some n) :
    (setSpace s).writer = { s.writer with space := some (spaceOf n) } := by
  unfold setSpace
  rw [left]
  dsimp only
  split
  · rfl
  · split
    · rfl
    · simp only [forcedStop_frame, raise_writer]
    · rfl

theorem advanceCursor_writer {s : State} {a b c : Nat} (range : s.writer.range = some (a, b))
    (cursor : s.writer.cursor = some c) :
    (advanceCursor s).writer = { s.writer with cursor := some (c + 1), space := some (spaceOf (b - c)) } := by
  have left : remaining { s with writer := { s.writer with cursor := some (c + 1) } } = some (b - c) := by
    rw [← Nat.add_sub_add_right b 1 c]
    exact remaining_of_card range rfl
  rw [advanceCursor, cursor]
  exact setSpace_writer left

/-! ### A re-issue (R168, R174, R175) -/

theorem reissue_of_allowed {x : Content} {s : State} (allowed : spaceAllows s x = true) :
    reissue x s = issueWrite x .retry false { s with writer := { s.writer with held := none } } := by
  unfold reissue
  exact if_pos allowed

theorem reissue_of_audio {x : Content} {s : State} (refused : spaceAllows s x = false) {i : Fin 3}
    (audio : isAudioOf i x = true) : reissue x s = { s with writer := { s.writer with held := none } } := by
  unfold reissue
  rw [refused]
  cases x with
  | audio => rfl
  | index => cases audio
  | notes => cases audio
  | fault => cases audio

theorem reissue_of_other {x : Content} {s : State} (refused : spaceAllows s x = false)
    (other : ∀ i, isAudioOf i x = false) : reissue x s = { s with writer := { s.writer with held := some x } } := by
  unfold reissue
  rw [refused]
  cases x with
  | audio slot => cases (other slot).symm.trans (beq_self_eq_true slot)
  | index => rfl
  | notes => rfl
  | fault => rfl

end Sys2Proof.Proofs
end

section
/-! PROOFS. What each command does to the media writer: the commands sorted by what they make of writer and requests (R157 to R171,
R176 to R178, R183). -/

namespace Sys2Proof.Proofs

open Sys2Proof Sys2Proof.Machine Sys2Proof.Safety

/-! ### States in which the arbiter chooses alike (R159, R161 to R165) -/

theorem wordCount_of_settings {s t : State}
    (same : ∀ i : Fin 16, t.front.tracks[i].kind = s.front.tracks[i].kind ∧
      t.front.tracks[i].mixEnable = s.front.tracks[i].mixEnable) : wordCount t = wordCount s := by
  have enabled : enabledTracks t = enabledTracks s := by
    unfold enabledTracks
    exact List.filter_congr fun i _ => by rw [(same i).1]
  rw [wordCount, wordCount, enabled, mixIsEnabled, mixIsEnabled, mixEnabled_of_settings same]

/-- States that agree on all that requests are read from, the counter in its newest position and its sample rate. -/
theorem sameRequests_of_blocks {s t : State} (phase : t.port.phase = s.port.phase) (newest : t.counter.newest = s.counter.newest)
    (rate : t.counter.sampleRate = s.counter.sampleRate) (front : t.front = s.front) (ring : t.ring = s.ring)
    (takes : t.takes = s.takes) (store : t.store = s.store) (writer : t.writer = s.writer) : SameRequests s t :=
  ⟨phase, writer, by rw [takes], by rw [takes], by rw [takes], by rw [store], by rw [ring], newest, rate,
    wordCount_of_front front⟩

theorem sameRequests_respond (c : ResponseCode) (data : List Byte) (s : State) : SameRequests s (respond c data s) :=
  sameRequests_of_blocks rfl rfl rfl rfl rfl rfl rfl rfl

theorem sameRequests_refl (s : State) : SameRequests s s := sameRequests_of_blocks rfl rfl rfl rfl rfl rfl rfl rfl

theorem sameRequests_trans {s t u : State} (first : SameRequests s t) (second : SameRequests t u) : SameRequests s u :=
  ⟨second.phase.trans first.phase, second.writer.trans first.writer, second.slots.trans first.slots,
    second.serial.trans first.serial, second.postRoll.trans first.postRoll, second.notes.trans first.notes,
    second.frames.trans first.frames, second.newest.trans first.newest, second.rate.trans first.rate,
    second.words.trans first.words⟩

/-- Where the arbiter chooses alike in the same phase with the same writer, no request is left to issue where none was. -/
theorem stands_of_choose {s t : State} (phase : t.port.phase = s.port.phase) (writer : t.writer = s.writer)
    (choice : choose t = choose s) (stands : makeDecision s = s) : makeDecision t = t := by
  rw [makeDecision_eq_self_iff] at stands ⊢
  rw [choice, show mayIssue t = mayIssue s by simp only [mayIssue, State.inRun, phase, writer]]
  exact stands

/-- Flags of a take are nothing to the arbiter. -/
theorem choose_setSlot_flags {s : State} {i : Fin 3} {u : Take} (holds : s.takes.slots[i] = some u) (flags : TakeFlags) :
    choose (setSlot i (some { u with flags := flags }) s) = choose s := by
  generalize changed : setSlot i (some { u with flags := flags }) s = t
  have slot (j : Fin 3) : t.takes.slots[j] = s.takes.slots[j] ∨
      (i = j ∧ s.takes.slots[j] = some u ∧ t.takes.slots[j] = some { u with flags := flags }) := by
    rw [← changed, setSlot_slots]
    split
    case isTrue here => exact .inr ⟨here, here ▸ holds, rfl⟩
    case isFalse => exact .inl rfl
  have age (v : Take) : startAge t v = startAge s v := by rw [← changed]; rfl
  have earliest (p : Fin 3 → Take → Bool) (blind : ∀ j, p j { u with flags := flags } = p j u) :
      earliestSlot p t = earliestSlot p s := by
    have same (j : Fin 3) : candidate p t j = candidate p s j := by
      have ages : startAge t = startAge s := funext age
      rw [candidate, candidate, ages]
      rcases slot j with stands | ⟨-, held, held'⟩
      · rw [stands]
      · rw [held, held', Option.filter_some, Option.filter_some, blind]
        split <;> rfl
    rw [earliestSlot, bestSlot_eq, earliestSlot, bestSlot_eq, same, same, same]
  have count : protectedCount t = protectedCount s := by
    have needs (j : Fin 3) (p : Nat) :
        slotNeeds s.day s.takes.postRoll t.takes.slots[j] p = slotNeeds s.day s.takes.postRoll s.takes.slots[j] p := by
      rcases slot j with stands | ⟨-, held, held'⟩
      · rw [stands]
      · rw [held, held']
        rfl
    have isProtected_eq : isProtected t = isProtected s := by
      funext p
      have h0 := needs 0 p
      have h1 := needs 1 p
      have h2 := needs 2 p
      rw [← changed] at h0 h1 h2 ⊢
      exact congrArg₂ Bool.or (congrArg₂ Bool.or h0 h1) h2
    rw [protectedCount, protectedCount, isProtected_eq, ← changed]
    rfl
  have urgent : urgentRequest t = urgentRequest s := by
    have index := earliest (fun _ v => hasIndexRequest s.day v) fun _ => rfl
    rw [urgentRequest, urgentRequest, ← index, ← changed]
    rfl
  have bulk : bulkRequest t = bulkRequest s := by
    have audio := earliest (fun _ v => (readyBlock s v).isSome) fun _ => rfl
    rw [bulkRequest, bulkRequest, ← audio, ← changed]
    rfl
  have space : t.writer.space = s.writer.space := by rw [← changed]; rfl
  rw [choose, choose, space, count, urgent, bulk]

/-- Without a ready audio block the arbiter chooses the urgent request in every space state that allows one (R158, R165). -/
theorem choose_of_no_bulk {s : State} (noBulk : bulkRequest s = none) :
    choose s = if s.writer.space = none ∨ s.writer.space = some .exhausted then none else urgentRequest s := by
  unfold choose
  rw [noBulk]
  split
  case h_1 unset => rw [if_pos (.inl unset)]
  case h_2 exhausted => rw [if_pos (.inr exhausted)]
  case h_3 full => rw [full, if_neg (by simp)]
  case h_4 space notExhausted _ set =>
    have allowed : ¬(some space = none ∨ some space = some Space.exhausted) := by simpa using notExhausted
    rw [set, if_neg allowed]
    split
    · cases urgentRequest s <;> rfl
    · rfl

/-- Without a take the arbiter has the note request and the fault request to choose from. -/
theorem choose_of_no_take {s t : State} (empty : ∀ i : Fin 3, s.takes.slots[i] = none)
    (empty' : ∀ i : Fin 3, t.takes.slots[i] = none) (store : t.store = s.store) (writer : t.writer = s.writer) :
    choose t = choose s := by
  have noSlot {x : State} (p : Fin 3 → Take → Bool) (noTake : ∀ i : Fin 3, x.takes.slots[i] = none) :
      earliestSlot p x = none :=
    bestSlot_eq_none fun i u holds => nomatch (noTake i).symm.trans holds
  have noBulk {x : State} (noTake : ∀ i : Fin 3, x.takes.slots[i] = none) : bulkRequest x = none := by
    rw [bulkRequest, noSlot _ noTake]
    rfl
  have urgent : urgentRequest t = urgentRequest s := by
    have notes : hasNoteRequest t = hasNoteRequest s := by rw [hasNoteRequest, store, hasNoteRequest]
    have fault : hasFaultRequest t = hasFaultRequest s := by rw [hasFaultRequest, writer, hasFaultRequest]
    rw [urgentRequest, urgentRequest, noSlot _ empty', noSlot _ empty, notes, fault]
  rw [choose_of_no_bulk (noBulk empty'), choose_of_no_bulk (noBulk empty), urgent, writer]

/-! ### The commands by what they make of the writer -/

/-- What a command makes of the media writer and of what its decision reads. -/
inductive WriterEvent (i : Instr) (s t : State) : Prop
  | aside (phase : t.port.phase = s.port.phase) (writer : t.writer = s.writer)
      (stands : s.port.phase = .run → makeDecision s = s → makeDecision t = t)
  | ended {before after : State} (phase : after.port.phase = s.port.phase) (writer : after.writer = s.writer)
      (same : SameRequests (finish before after) t)
  | restarted (strap : Fin 8) (row : i = .powerOn strap ∨ i = .reset strap) (reset : t = restart strap s)
  | completed {w : Write} (row : i = .successfulCompletion) (flight : s.writer.inFlight = some w)
      (done : t = finish s (completeOk w s))
  | failed {w : Write} (row : i = .failedCompletion) (flight : s.writer.inFlight = some w)
      (done : t = finish s (completeFailed w s))
  | decided (done : t = makeDecision s)
  | retried (run : s.port.phase = .run) (left : s.writer.space ≠ some .exhausted)
      (same : SameRequests (issueWrite (.fault s.writer.skipped s.writer.unlisted) .first true s) t)
  | abandoned (same : SameRequests (finish s (restartAll s)) t)
  | configured (setup : s.port.phase = .setup) (phase : t.port.phase = .setup)
      (writer : t.writer = { s.writer with range := t.writer.range })
  | committed (setup : s.port.phase = .setup) (ready : commitReady s = true) (same : SameRequests (enterRun s) t)

theorem aside_of_same {i : Instr} {s t : State} (same : SameRequests s t) : WriterEvent i s t :=
  .aside same.phase same.writer fun _ stands => same.stands stands

theorem aside_of_setup {i : Instr} {s t : State} (setup : s.port.phase = .setup) (phase : t.port.phase = s.port.phase)
    (writer : t.writer = s.writer) : WriterEvent i s t :=
  .aside phase writer fun run _ => nomatch setup.symm.trans run

theorem phase_cases (s : State) : s.port.phase = .setup ∨ s.port.phase = .run := by
  cases s.port.phase
  · exact .inl rfl
  · exact .inr rfl

section

variable {i : Instr} (s : State)

theorem writerEvent_arriveFrame (f : FrameIn) : WriterEvent i s (arriveFrame f s) := by
  rcases phase_cases s with setup | run
  · rw [arriveFrame_of_not_inRun f (inRun_of_setup setup)]
    apply aside_of_setup setup
    all_goals simp only [sendMix_port, sendMix_writer, stampFrame_frame]
  · rw [arriveFrame, if_pos (inRun_of_run run)]
    refine .ended (after := runFrame f (stampFrame s)) ?_ ?_ (sameRequests_refl _)
    all_goals simp only [runFrame_frame, stampFrame_frame]

theorem writerEvent_lineIdle {s u : State} (port : u.port = s.port) (same : SameRequests s u) :
    WriterEvent i s (lineIdle u) := by
  unfold lineIdle
  split
  · refine .ended ?_ ?_ (sameRequests_refl _)
    · simp only [endReception_frame, becomeIdle_frame, port]
    · simp only [endReception_frame, becomeIdle_frame, same.writer]
  · exact aside_of_same same

theorem writerEvent_receiveFrame (kind : Byte) (f : HeardFrame) : WriterEvent i s (receiveFrame kind f s) := by
  unfold receiveFrame
  split
  · refine writerEvent_lineIdle ?_ ?_
    · simp only [hearFrame_frame]
    · apply sameRequests_of_blocks <;> simp only [hearFrame_frame]
  · exact aside_of_same (sameRequests_refl s)

/-- A request taken ends as an event does; one answered ALREADY or REFUSED brings the writer nothing. -/
theorem writerEvent_endRequest {s t : State} {r : ResponseCode × State} (phase : r.2.port.phase = s.port.phase)
    (writer : r.2.writer = s.writer) (refused : r.1 ≠ .ok → SameRequests s r.2) (same : SameRequests (endRequest s r) t) :
    WriterEvent i s t := by
  unfold endRequest at same
  split at same
  case isTrue => exact .ended phase writer same
  case isFalse other => exact aside_of_same (sameRequests_trans (refused other) same)

theorem sameRequests_localStart (v : RingView) (src : Source) {s : State} (refused : (localStart v src s).1 ≠ .ok) :
    SameRequests s (localStart v src s).2 := by
  have unasked (k : Notice) : SameRequests s (raise k s) := sameRequests_of_blocks rfl rfl rfl rfl rfl rfl rfl rfl
  unfold localStart at refused ⊢
  split
  · split
    · exact unasked _
    · simp_all
  · split
    · exact unasked _
    · split <;> simp_all
  · exact sameRequests_refl s
  · exact sameRequests_refl s

theorem sameRequests_localStop {s : State} (refused : (localStop s).1 ≠ .ok) : SameRequests s (localStop s).2 := by
  unfold localStop at refused ⊢
  split
  · split <;> simp_all
  · simp_all
  · exact sameRequests_refl s
  · exact sameRequests_refl s

theorem writerEvent_start {s t : State} (v : RingView) (src : Source)
    (same : SameRequests (endRequest s (localStart v src s)) t) : WriterEvent i s t :=
  writerEvent_endRequest (by simp only [localStart_frame]) (by simp only [localStart_frame])
    (sameRequests_localStart v src) same

theorem writerEvent_stop {s t : State} (same : SameRequests (endRequest s (localStop s)) t) : WriterEvent i s t :=
  writerEvent_endRequest (by simp only [localStop_frame]) (by simp only [localStop_frame]) sameRequests_localStop same

theorem writerEvent_recordKey : WriterEvent i s (recordKey s) := by
  unfold recordKey
  split
  · split
    · exact writerEvent_start _ _ (sameRequests_refl _)
    · exact writerEvent_start _ _ (sameRequests_refl _)
    · exact writerEvent_stop (sameRequests_refl _)
    · exact writerEvent_stop (sameRequests_refl _)
  · exact aside_of_same (sameRequests_refl s)

theorem writerEvent_addNote (a : NoteArgs) : WriterEvent i s (addNote a s) := by
  unfold addNote
  split
  case h_1 n _ =>
    refine .ended (before := s) (after := storeLocal n s) ?_ ?_ (sameRequests_respond _ _ _)
    all_goals simp only [storeLocal_frame]
  case h_2 => exact aside_of_same (sameRequests_respond _ _ s)

theorem writerEvent_mediaRetry {s : State} (run : s.port.phase = .run) (u : Unit) : WriterEvent i s (mediaRetry u s) := by
  unfold mediaRetry
  split_ifs with _ _ exhausted
  · exact aside_of_same (sameRequests_respond _ _ s)
  · exact aside_of_same (sameRequests_respond _ _ s)
  · exact .retried run exhausted (sameRequests_respond _ _ _)
  · exact aside_of_same (sameRequests_respond _ _ s)

theorem writerEvent_commit {s : State} (setup : s.port.phase = .setup) (u : Unit) : WriterEvent i s (commit u s) := by
  unfold commit
  split
  case isTrue ready => exact .committed setup ready (sameRequests_respond _ _ _)
  case isFalse => exact aside_of_same (sameRequests_respond _ _ s)

theorem writerEvent_configureMedia {s : State} (setup : s.port.phase = .setup) (a : Nat × Nat) :
    WriterEvent i s (configureMedia a s) := by
  unfold configureMedia
  split
  · exact .configured setup setup rfl
  · exact aside_of_same (sameRequests_respond _ _ s)

/-- A peer's absence may mark the open take ORIGIN LOST, and asks nothing of the writer (R121). -/
theorem writerEvent_peerAbsent (p : Fin 8) : WriterEvent i s (peerAbsent p s) := by
  unfold peerAbsent
  split
  case isFalse => exact aside_of_same (sameRequests_refl s)
  case isTrue =>
    dsimp only
    generalize changed : raise .peerChange _ = u
    have same : SameRequests s u := by subst changed; exact sameRequests_of_blocks rfl rfl rfl rfl rfl rfl rfl rfl
    by_cases own : (openTake u).map Take.origin = some p.val
    · obtain ⟨v, isOpenTake, origin⟩ := Option.map_eq_some_iff.mp own
      cases isOpenSlot : openSlot u with
      | none => simp [openTake, isOpenSlot] at isOpenTake
      | some j =>
        obtain ⟨x, holds, -⟩ := openSlot_holds isOpenSlot
        rw [openTake_of_slot isOpenSlot holds] at isOpenTake
        cases isOpenTake
        rw [loseOrigin_of_origin isOpenSlot holds origin]
        refine .aside same.phase same.writer fun _ stands => ?_
        refine stands_of_choose (s := u) rfl rfl ?_ (same.stands stands)
        exact (SameRequests.choose_eq (sameRequests_of_blocks rfl rfl rfl rfl rfl rfl rfl rfl)).trans
          (choose_setSlot_flags holds _)
    · rw [loseOrigin_of_other own]
      exact aside_of_same same

/-- JAM TIMECODE empties the ring only while no take needs it (R36, R37). -/
theorem writerEvent_jamTimecode (a : Nat × Nat × Nat × Nat) : WriterEvent i s (jamTimecode a s) := by
  unfold jamTimecode
  dsimp only
  split_ifs with inRange busy
  · exact aside_of_same (sameRequests_respond _ _ s)
  · refine .aside rfl rfl fun run stands => ?_
    have free : ¬captureInHand s = true := fun inHand => busy (by rw [inRun_of_run run, inHand]; rfl)
    have empty (j : Fin 3) : s.takes.slots[j] = none := by
      by_contra held
      exact free ((captureInHand_iff s).mpr (.inl ⟨j, held⟩))
    exact stands_of_choose (s := s) rfl rfl (choose_of_no_take empty empty rfl rfl) stands
  · exact aside_of_same (sameRequests_respond _ _ s)

/-! ### Commands that ask nothing of the writer -/

theorem sameRequests_clockLost :
    SameRequests s
      (if s.counter.clock = .running then
        raise .clockLost
          { advanceTime (s.counter.lossTimer.getD s.time + Config.lossTime) s with
            counter := { s.counter with clock := .lost, lossTimer := none } }
      else s) := by
  split <;> exact sameRequests_of_blocks rfl rfl rfl rfl rfl rfl rfl rfl

theorem sameRequests_referencePulse : SameRequests s (referencePulse s) := by
  unfold referencePulse
  dsimp only
  split_ifs <;> exact sameRequests_of_blocks rfl rfl rfl rfl rfl rfl rfl rfl

/-- A trim is no part of the word count (R4, R11). -/
theorem sameRequests_setTrim (a : Nat × Nat) : SameRequests s (setTrim a s) := by
  unfold setTrim
  split
  case h_1 n _ =>
    refine ⟨rfl, rfl, rfl, rfl, rfl, rfl, rfl, rfl, rfl, wordCount_of_settings fun j => ?_⟩
    by_cases here : n = j
    · subst here
      simp
    · have apart : n.val ≠ j.val := fun same => here (Fin.ext same)
      simp [apart]
  case h_2 => exact sameRequests_respond _ _ s

theorem sameRequests_setGate (a : Nat × GateSettings) : SameRequests s (setGate a s) := by
  unfold setGate
  split <;> exact sameRequests_of_blocks rfl rfl rfl rfl rfl rfl rfl rfl

theorem sameRequests_announceChange (before : State) : SameRequests s (announceChange before s) := by
  apply sameRequests_of_blocks <;> simp only [announceChange_frame]

theorem sameRequests_setScene (name : Text) : SameRequests s (setScene name s) := by
  refine sameRequests_trans ?_ (sameRequests_announceChange (respond .ok [] _) s)
  exact ⟨rfl, rfl, rfl, rfl, rfl, rfl, rfl, rfl, rfl, rfl⟩

theorem sameRequests_setNextTake (n : Nat) : SameRequests s (setNextTake n s) := by
  refine sameRequests_trans ?_ (sameRequests_announceChange (respond .ok [] _) s)
  exact ⟨rfl, rfl, rfl, rfl, rfl, rfl, rfl, rfl, rfl, rfl⟩

theorem sameRequests_setCue (a : Nat × Nat) : SameRequests s (setCue a s) := by
  unfold setCue
  split
  · split_ifs <;> exact sameRequests_of_blocks rfl rfl rfl rfl rfl rfl rfl rfl
  · exact sameRequests_respond _ _ s

theorem sameRequests_cancelCue (u : Unit) : SameRequests s (cancelCue u s) := by
  unfold cancelCue
  split <;> exact sameRequests_of_blocks rfl rfl rfl rfl rfl rfl rfl rfl

theorem sameRequests_clearClip (u : Unit) : SameRequests s (clearClip u s) := by
  unfold clearClip
  split <;> exact ⟨rfl, rfl, rfl, rfl, rfl, rfl, rfl, rfl, rfl, rfl⟩

theorem sameRequests_answerRead (data : Option (List Byte)) : SameRequests s (answerRead data s) := by
  unfold answerRead
  split <;> exact sameRequests_respond _ _ s

theorem sameRequests_responseRead :
    SameRequests s { s with port := { s.port with output := responseBytes s.port.response } } :=
  sameRequests_of_blocks rfl rfl rfl rfl rfl rfl rfl rfl

theorem sameRequests_setNoticeMask (v : Nat) : SameRequests s (setNoticeMask v s) := by
  unfold setNoticeMask
  split <;> exact sameRequests_of_blocks rfl rfl rfl rfl rfl rfl rfl rfl

theorem sameRequests_ackNotices (v : Nat) : SameRequests s (ackNotices v s) := by
  unfold ackNotices
  split <;> exact sameRequests_of_blocks rfl rfl rfl rfl rfl rfl rfl rfl

theorem sameRequests_lineBusy (b : Byte) : SameRequests s (lineBusy b s) := by
  apply sameRequests_of_blocks <;> simp only [lineBusy_frame]

theorem sameRequests_deferralExpiry : SameRequests s (deferralExpiry s) := by
  apply sameRequests_of_blocks <;> simp only [deferralExpiry_frame]

theorem sameRequests_successfulSend : SameRequests s (successfulSend s) := by
  apply sameRequests_of_blocks <;> simp only [successfulSend_frame]

theorem sameRequests_collision : SameRequests s (collision s) := by
  apply sameRequests_of_blocks <;> simp only [collision_frame]

theorem sameRequests_announceTimerExpiry : SameRequests s (announceTimerExpiry s) := by
  apply sameRequests_of_blocks <;> simp only [announceTimerExpiry_frame]

/-- A configuration command of SETUP leaves phase and writer. -/
theorem writerEvent_configureClock {s : State} (setup : s.port.phase = .setup) (a : ClockArgs) :
    WriterEvent i s (configureClock a s) := by
  refine aside_of_setup setup ?_ (by simp only [configureClock_frame])
  unfold configureClock
  split
  · split <;> rfl
  · rfl

end

/-! ### Every command (R177, R178) -/

theorem writerEvent_hostCommand {i : Instr} {α : Type} {p : TakenIn} {operands : Option α} {act : α → State → State}
    {s : State} (taken : ∀ a, takenNow p s.port.phase = true → WriterEvent i s (act a s)) :
    WriterEvent i s (hostCommand p operands act s) := by
  unfold hostCommand
  split
  case isTrue phase =>
    split
    case h_1 a => exact taken a phase
    case h_2 => exact aside_of_same (sameRequests_respond _ _ s)
  case isFalse => exact aside_of_same (sameRequests_respond _ _ s)

theorem exec_writerEvent {i : Instr} {s t : State} (executed : exec i s = .next t) : WriterEvent i s t := by
  have next {u : State} (event : WriterEvent i s u)
      (answered : Host.Outcome.next u = (.next t : Host.Outcome State Fault Refusal)) : WriterEvent i s t :=
    Host.Outcome.next.inj answered ▸ event
  have quiet {u : State} (same : SameRequests s u)
      (answered : Host.Outcome.next u = (.next t : Host.Outcome State Fault Refusal)) : WriterEvent i s t :=
    next (aside_of_same same) answered
  have either {c : Prop} [Decidable c] {u : State} (event : WriterEvent i s u)
      (answered : Host.Outcome.next (if c then u else s) = (.next t : Host.Outcome State Fault Refusal)) :
      WriterEvent i s t := by
    refine next ?_ answered
    split
    · exact event
    · exact aside_of_same (sameRequests_refl s)
  have host {α : Type} {p : TakenIn} {operands : Option α} {act : α → State → State}
      (taken : ∀ a, takenNow p s.port.phase = true → WriterEvent i s (act a s))
      (answered : Host.Outcome.next (hostCommand p operands act s) = (.next t : Host.Outcome State Fault Refusal)) :
      WriterEvent i s t :=
    next (writerEvent_hostCommand taken) answered
  have hostQuiet {α : Type} {p : TakenIn} {operands : Option α} {act : α → State → State}
      (same : ∀ a, SameRequests s (act a s))
      (answered : Host.Outcome.next (hostCommand p operands act s) = (.next t : Host.Outcome State Fault Refusal)) :
      WriterEvent i s t :=
    host (fun a _ => aside_of_same (same a)) answered
  cases i with
  | powerOn strap => exact next (.restarted strap (.inl rfl) rfl) executed
  | reset strap => exact next (.restarted strap (.inr rfl) rfl) executed
  | frameArrival f => exact next (writerEvent_arriveFrame s f) executed
  | returnToHigh track f => exact either (writerEvent_arriveFrame s f) executed
  | cueFire f => exact either (writerEvent_arriveFrame s f) executed
  | awaitedStop f => exact either (writerEvent_arriveFrame s f) executed
  | postRollComplete f => exact either (writerEvent_arriveFrame s f) executed
  | halfDayStop f => exact either (writerEvent_arriveFrame s f) executed
  | blockEnd f => exact either (writerEvent_arriveFrame s f) executed
  | pendingStartPromotion =>
    refine either (.ended (before := s) (after := promote .afterFrame s) ?_ ?_ (sameRequests_refl _)) executed
    all_goals simp only [promote_frame]
  | clockLost => exact quiet (sameRequests_clockLost s) executed
  | referencePulse => exact quiet (sameRequests_referencePulse s) executed
  | recordKey => exact next (writerEvent_recordKey s) executed
  | successfulCompletion =>
    refine next ?_ executed
    unfold successfulCompletion
    split
    · exact aside_of_same (sameRequests_refl s)
    case h_2 flight => exact .completed rfl flight rfl
  | failedCompletion =>
    refine next ?_ executed
    unfold failedCompletion
    split
    · exact aside_of_same (sameRequests_refl s)
    case h_2 flight => exact .failed rfl flight rfl
  | writeIssue => exact next (.decided rfl) executed
  | lineIdle => exact next (writerEvent_lineIdle rfl (sameRequests_refl s)) executed
  | deferralExpiry => exact quiet (sameRequests_deferralExpiry s) executed
  | successfulSend => exact quiet (sameRequests_successfulSend s) executed
  | collision => exact quiet (sameRequests_collision s) executed
  | announceTimerExpiry => exact quiet (sameRequests_announceTimerExpiry s) executed
  | peerAbsent p => exact next (writerEvent_peerAbsent s p) executed
  | statusFrame f => exact next (writerEvent_receiveFrame s _ f) executed
  | noteFrame f => exact next (writerEvent_receiveFrame s _ f) executed
  | noteRequestFrame f => exact next (writerEvent_receiveFrame s _ f) executed
  | noteGoneFrame f => exact next (writerEvent_receiveFrame s _ f) executed
  | configureClock args =>
    exact host (fun a taken => writerEvent_configureClock (setup_of_takenNow taken) a) executed
  | configureTrack args =>
    exact host (fun a taken => aside_of_setup (setup_of_takenNow taken) (alike_configureTrack a s).phase
      (by simp only [configureTrack_frame])) executed
  | configureCapture args =>
    exact host (fun a taken => aside_of_setup (setup_of_takenNow taken) (alike_configureCapture a s).phase
      (by simp only [configureCapture_frame])) executed
  | configureMedia args => exact host (fun a taken => writerEvent_configureMedia (setup_of_takenNow taken) a) executed
  | setRunNumber args =>
    exact host (fun n taken => aside_of_setup (setup_of_takenNow taken) (alike_setRunNumber n s).phase
      (by simp only [setRunNumber_frame])) executed
  | commit args => exact host (fun u taken => writerEvent_commit (setup_of_takenNow taken) u) executed
  | setTrim args => exact hostQuiet (sameRequests_setTrim s) executed
  | setGate args => exact hostQuiet (sameRequests_setGate s) executed
  | setScene args => exact hostQuiet (sameRequests_setScene s) executed
  | setNextTake args => exact hostQuiet (sameRequests_setNextTake s) executed
  | jamTimecode args => exact host (fun a _ => writerEvent_jamTimecode s a) executed
  | start args => exact host (fun _ _ => writerEvent_start _ _ (sameRequests_respond _ _ _)) executed
  | stop args => exact host (fun _ _ => writerEvent_stop (sameRequests_respond _ _ _)) executed
  | addNote args => exact host (fun a _ => writerEvent_addNote s a) executed
  | setCue args => exact hostQuiet (sameRequests_setCue s) executed
  | cancelCue args => exact hostQuiet (sameRequests_cancelCue s) executed
  | clearClip args => exact hostQuiet (sameRequests_clearClip s) executed
  | mediaRetry args =>
    exact host (fun u taken => writerEvent_mediaRetry ((inRun_iff s).mp (inRun_of_takenNow taken)) u) executed
  | captureRestart args => exact host (fun _ _ => .abandoned (sameRequests_respond _ _ _)) executed
  | readStatus args => exact hostQuiet (fun _ => sameRequests_answerRead s _) executed
  | readSlot args => exact hostQuiet (fun _ => sameRequests_answerRead s _) executed
  | readPeer args => exact hostQuiet (fun _ => sameRequests_answerRead s _) executed
  | readNote args => exact hostQuiet (fun _ => sameRequests_answerRead s _) executed
  | readClip args => exact hostQuiet (fun _ => sameRequests_answerRead s _) executed
  | readNotices args => exact hostQuiet (fun _ => sameRequests_answerRead s _) executed
  | setNoticeMask args => exact hostQuiet (sameRequests_setNoticeMask s) executed
  | ackNotices args => exact hostQuiet (sameRequests_ackNotices s) executed
  | unknownCommand code args => exact either (aside_of_same (sameRequests_respond _ _ s)) executed
  | responseRead => exact quiet (sameRequests_responseRead s) executed
  | lineBusy b => exact quiet (sameRequests_lineBusy s b) executed
  | selectionReleased received => exact quiet (sameRequests_refl s) executed

end Sys2Proof.Proofs
end

section
/-! PROOFS. Cursor, space state and the write in flight: what keeps them in step with the card range, and the completion, which alone
moves the cursor (R157, R158, R163, R164). -/

namespace Sys2Proof.Proofs

open Sys2Proof Sys2Proof.Machine Sys2Proof.Safety

/-! ### What keeps the card in step -/

/-- From s to t the card stands, and a write in flight was so before, at the same address, or has been issued at the cursor in RUN
with a block left. -/
structure KeepsCard (s t : State) : Prop where
  phase : t.port.phase = s.port.phase
  range : t.writer.range = s.writer.range
  cursor : t.writer.cursor = s.writer.cursor
  space : t.writer.space = s.writer.space
  flight : ∀ w, t.writer.inFlight = some w →
    (∃ v, s.writer.inFlight = some v ∧ v.addr = w.addr) ∨
      (s.port.phase = .run ∧ s.writer.cursor = some w.addr ∧ s.writer.space ≠ some .exhausted)
  skipped : s.writer.skipped.length ≤ Config.maxSkipped → t.writer.skipped.length ≤ Config.maxSkipped

theorem keepsCard_of_writer {s t : State} (phase : t.port.phase = s.port.phase) (writer : t.writer = s.writer) :
    KeepsCard s t := by
  refine ⟨phase, by rw [writer], by rw [writer], by rw [writer], fun w flight => .inl ⟨w, ?_, rfl⟩, by rw [writer]; exact id⟩
  rw [← writer]
  exact flight

theorem KeepsCard.trans {s t u : State} (first : KeepsCard s t) (second : KeepsCard t u) : KeepsCard s u where
  phase := second.phase.trans first.phase
  range := second.range.trans first.range
  cursor := second.cursor.trans first.cursor
  space := second.space.trans first.space
  flight w flight := by
    rcases second.flight w flight with ⟨v, flight, addr⟩ | ⟨run, cursor, left⟩
    · rw [← addr]
      exact first.flight v flight
    · exact .inr ⟨first.phase ▸ run, first.cursor ▸ cursor, first.space ▸ left⟩
  skipped := second.skipped ∘ first.skipped

/-- In RUN a cursor with a block left stands on a block of the range. -/
theorem cursor_le_of_cardSound {s : State} (sound : CardSound s) (run : s.port.phase = .run) {c : Nat}
    (cursor : s.writer.cursor = some c) (left : s.writer.space ≠ some .exhausted) :
    ∃ first last, s.writer.range = some (first, last) ∧ c ≤ last := by
  obtain ⟨first, last, c', range, cursor', -, -, space⟩ := sound.run run
  cases cursor.symm.trans cursor'
  rw [space, Ne, Option.some.injEq, spaceOf_eq_exhausted_iff] at left
  exact ⟨first, last, range, by omega⟩

theorem KeepsCard.sound {s t : State} (kept : KeepsCard s t) (sound : CardSound s) : CardSound t where
  run run := by
    rw [kept.range, kept.cursor, kept.space]
    exact sound.run (kept.phase ▸ run)
  flight w flight := by
    rw [kept.range, kept.cursor]
    rcases kept.flight w flight with ⟨v, flight, addr⟩ | ⟨run, cursor, left⟩
    · rw [← addr]
      exact sound.flight v flight
    · exact ⟨cursor, cursor_le_of_cardSound sound run cursor left⟩
  setup setup := by
    obtain ⟨free, cursor⟩ := sound.setup (kept.phase ▸ setup)
    refine ⟨Option.eq_none_iff_forall_ne_some.mpr fun w flight => ?_, kept.cursor.trans cursor⟩
    rcases kept.flight w flight with ⟨v, flight, -⟩ | ⟨-, cursor', -⟩
    · cases free.symm.trans flight
    · cases cursor.symm.trans cursor'
  skipped := kept.skipped sound.skipped

/-! ### The end of an event, and a re-issue (R160, R164, R168) -/

theorem keepsCard_issueWrite (x : Content) (attempt : Attempt) (ofRetry : Bool) {s : State} (run : s.port.phase = .run)
    {c : Nat} (cursor : s.writer.cursor = some c) (left : s.writer.space ≠ some .exhausted) :
    KeepsCard s (issueWrite x attempt ofRetry s) where
  phase := rfl
  range := rfl
  cursor := rfl
  space := rfl
  flight w flight := by
    cases flight
    exact .inr ⟨run, by rw [cursor]; rfl, left⟩
  skipped := id

theorem not_exhausted_of_spaceAllows {s : State} {x : Content} (allowed : spaceAllows s x = true) :
    s.writer.space ≠ some .exhausted := by
  rcases (spaceAllows_iff s x).mp allowed with space | space | ⟨space, -⟩ <;> rw [space] <;> nofun

theorem keepsCard_held {s t : State} {held : Option Content} (phase : t.port.phase = s.port.phase)
    (writer : t.writer = { s.writer with held := held }) : KeepsCard s t := by
  refine ⟨phase, by rw [writer], by rw [writer], by rw [writer], fun w flight => .inl ⟨w, ?_, rfl⟩, by rw [writer]; exact id⟩
  rw [writer] at flight
  exact flight

theorem keepsCard_makeDecision (s : State) : KeepsCard s (makeDecision s) := by
  have phase : (makeDecision s).port.phase = s.port.phase := by simp only [makeDecision_frame]
  rcases makeDecision_flight s with same | ⟨c, x, run, -, -, cursor, allowed, issued⟩
  · exact keepsCard_of_writer phase same
  · refine ⟨phase, by rw [issued], by rw [issued], by rw [issued], fun w flight => .inr ⟨run, ?_, ?_⟩, by rw [issued]; exact id⟩
    · rw [issued] at flight
      cases flight
      exact cursor
    · exact not_exhausted_of_spaceAllows allowed

theorem keepsCard_finish (before after : State) : KeepsCard after (finish before after) := by
  obtain ⟨held, settled⟩ := settle_writer after
  refine KeepsCard.trans (keepsCard_held (t := announceChange before (settle after)) (held := held) ?_ ?_)
    (keepsCard_makeDecision _)
  · simp only [announceChange_frame, settle_frame]
  · simp only [announceChange_frame, settled]

theorem keepsCard_reissue (x : Content) {s : State} (run : s.port.phase = .run) {c : Nat}
    (cursor : s.writer.cursor = some c) : KeepsCard s (reissue x s) := by
  cases allowed : spaceAllows s x with
  | true =>
    rw [reissue_of_allowed allowed]
    exact (keepsCard_held (s := s) (t := { s with writer := { s.writer with held := none } }) rfl rfl).trans
      (keepsCard_issueWrite x .retry false run cursor (not_exhausted_of_spaceAllows allowed))
  | false =>
    by_cases audio : ∃ i, isAudioOf i x = true
    · obtain ⟨i, audio⟩ := audio
      rw [reissue_of_audio allowed audio]
      exact keepsCard_held rfl rfl
    · rw [reissue_of_other allowed fun i => Bool.eq_false_iff.mpr fun own => audio ⟨i, own⟩]
      exact keepsCard_held rfl rfl

/-! ### A completion (R157, R163, R167, R168) -/

/-- A completion moves the cursor of a sound card past the block of the write that was in flight. -/
theorem cardSound_advanceCursor {s u : State} {w : Write} (sound : CardSound s) (flight : s.writer.inFlight = some w)
    (phase : u.port.phase = s.port.phase) (range : u.writer.range = s.writer.range)
    (cursor : u.writer.cursor = s.writer.cursor) (free : u.writer.inFlight = none)
    (skipped : u.writer.skipped.length ≤ Config.maxSkipped) :
    CardSound (advanceCursor u) ∧ (advanceCursor u).port.phase = .run ∧
      (advanceCursor u).writer.cursor = some (w.addr + 1) := by
  have inRun : s.port.phase = .run := by
    rcases phase_cases s with setup | run
    · cases (sound.setup setup).1.symm.trans flight
    · exact run
  obtain ⟨atCursor, first, last, card, within⟩ := sound.flight w flight
  obtain ⟨first', last', c, card', cursor', after, -, -⟩ := sound.run inRun
  cases card.symm.trans card'
  cases atCursor.symm.trans cursor'
  have advanced := advanceCursor_writer (range.trans card) (cursor.trans atCursor)
  have running : (advanceCursor u).port.phase = .run := by simp only [advanceCursor_frame, phase, inRun]
  refine ⟨⟨fun _ => ⟨first, last, w.addr + 1, ?_, ?_, by omega, by omega, ?_⟩, fun v flying => ?_,
    fun setup => (nomatch setup.symm.trans running), ?_⟩, running, ?_⟩
  · rw [advanced]; exact range.trans card
  · rw [advanced]
  · rw [advanced, Nat.add_sub_add_right]
  · rw [advanced] at flying
    cases free.symm.trans flying
  · rw [advanced]; exact skipped
  · rw [advanced]

theorem keepsCard_contentWritten (addr : Nat) (x : Content) (s : State) : KeepsCard s (contentWritten addr x s) := by
  have phase : (contentWritten addr x s).port.phase = s.port.phase := by simp only [contentWritten_frame]
  cases x with
  | audio => exact keepsCard_of_writer phase (by simp only [contentWritten, modifySlot_frame])
  | index => exact keepsCard_of_writer phase (by simp only [contentWritten, promote_frame, raise_writer, setSlot_writer])
  | notes => exact keepsCard_of_writer phase rfl
  | fault =>
    exact ⟨rfl, rfl, rfl, rfl, fun w flight => .inl ⟨w, flight, rfl⟩, fun bound => (List.length_filter_le _ _).trans bound⟩

theorem keepsCard_retrySucceeded {s : State} (run : s.port.phase = .run) {c : Nat} (cursor : s.writer.cursor = some c) :
    KeepsCard s (retrySucceeded s) := by
  have normal : KeepsCard s { s with writer := { s.writer with capture := .normal, held := none } } :=
    ⟨rfl, rfl, rfl, rfl, fun w flight => .inl ⟨w, flight, rfl⟩, id⟩
  unfold retrySucceeded
  dsimp only
  split
  · exact normal
  · exact normal
  · exact normal.trans (keepsCard_reissue _ run cursor)

theorem keepsCard_failedOutcome (w : Write) {s : State} (run : s.port.phase = .run) {c : Nat}
    (cursor : s.writer.cursor = some c) : KeepsCard s (failedOutcome w s) := by
  unfold failedOutcome
  split
  · exact ⟨rfl, rfl, rfl, rfl, fun w flight => .inl ⟨w, flight, rfl⟩, id⟩
  · split
    · exact keepsCard_reissue _ run cursor
    · exact ⟨rfl, rfl, rfl, rfl, fun w flight => .inl ⟨w, flight, rfl⟩, id⟩

/-- After a completion the card is sound, and the cursor one past the address of the write. -/
def CompletedSound (w : Write) (t : State) : Prop := CardSound t ∧ t.writer.cursor = some (w.addr + 1)

theorem completedSound_of_keepsCard {s t : State} {w : Write} (sound : CardSound s) (cursor : s.writer.cursor = some (w.addr + 1))
    (kept : KeepsCard s t) : CompletedSound w t :=
  ⟨kept.sound sound, kept.cursor.trans cursor⟩

theorem completedSound_ok {s : State} {w : Write} (sound : CardSound s) (flight : s.writer.inFlight = some w) :
    CompletedSound w (finish s (completeOk w s)) := by
  obtain ⟨advanced, run, cursor⟩ := cardSound_advanceCursor (u := clearFlight s) sound flight rfl rfl rfl rfl sound.skipped
  refine completedSound_of_keepsCard advanced cursor (KeepsCard.trans ?_ (keepsCard_finish s _))
  unfold completeOk
  dsimp only
  split
  · exact keepsCard_of_writer rfl rfl
  · have written := keepsCard_contentWritten w.addr w.content (advanceCursor (clearFlight s))
    split
    · exact written.trans (keepsCard_retrySucceeded (written.phase.trans run) (written.cursor.trans cursor))
    · exact written

theorem listFailure_writer (addr : Nat) (s : State) :
    ∃ skipped unlisted, (listFailure addr s).writer =
        { s.writer with skipped := skipped, unlisted := unlisted, failed := min 65535 (s.writer.failed + 1) } ∧
      (s.writer.skipped.length < 16 → skipped = s.writer.skipped ++ [addr] ∧ unlisted = s.writer.unlisted) ∧
      (16 ≤ s.writer.skipped.length → skipped = s.writer.skipped ∧ unlisted = min 65535 (s.writer.unlisted + 1)) := by
  unfold listFailure Config.maxSkipped
  split
  case isTrue room => exact ⟨_, _, rfl, fun _ => ⟨rfl, rfl⟩, fun full => absurd room (not_lt.mpr full)⟩
  case isFalse full => exact ⟨_, _, rfl, fun room => absurd room full, fun _ => ⟨rfl, rfl⟩⟩

theorem completedSound_failed {s : State} {w : Write} (sound : CardSound s) (flight : s.writer.inFlight = some w) :
    CompletedSound w (finish s (completeFailed w s)) := by
  obtain ⟨skipped, unlisted, listed, room, full⟩ := listFailure_writer w.addr (clearFlight s)
  have bound : skipped.length ≤ Config.maxSkipped := by
    have before : (clearFlight s).writer.skipped.length ≤ 16 := sound.skipped
    rcases Nat.lt_or_ge (clearFlight s).writer.skipped.length 16 with below | reached
    · rw [(room below).1, List.length_append]
      exact below
    · rw [(full reached).1]
      exact before
  obtain ⟨advanced, run, cursor⟩ := cardSound_advanceCursor (u := listFailure w.addr (clearFlight s)) sound flight
    (by simp only [listFailure_frame]; rfl) (by rw [listed]; rfl) (by rw [listed]; rfl) (by rw [listed]; rfl)
    (by rw [listed]; exact bound)
  refine completedSound_of_keepsCard advanced cursor (KeepsCard.trans ?_ (keepsCard_finish s _))
  unfold completeFailed
  dsimp only
  split
  · exact keepsCard_of_writer rfl rfl
  · exact keepsCard_failedOutcome w run cursor

/-! ### COMMIT, CAPTURE RESTART and a reset (R173, R180, R188) -/

theorem cardSound_restart (strap : Fin 8) (s : State) : CardSound (restart strap s) := by
  have phase : (restart strap s).port.phase = .setup := rfl
  have free : (restart strap s).writer.inFlight = none := rfl
  exact ⟨fun run => (nomatch phase.symm.trans run), fun w flight => (nomatch free.symm.trans flight),
    fun _ => ⟨free, rfl⟩, Nat.zero_le _⟩

theorem enterRun_card {s : State} {first last : Nat} (range : s.writer.range = some (first, last)) :
    (enterRun s).port.phase = .run ∧
      (enterRun s).writer = { s.writer with cursor := some first, space := some (spaceOf (last + 1 - first)) } := by
  unfold enterRun
  generalize entered : ({ s with port := _, writer := _, link := _ } : State) = u
  have phase : u.port.phase = .run := by rw [← entered]
  have writer : u.writer = { s.writer with cursor := some first } := by rw [← entered, range]; rfl
  have space := setSpace_writer (remaining_of_card (s := u) (by rw [writer]; exact range) (by rw [writer]))
  simp only [requestStatus_frame, setSpace_frame, phase, space, writer, and_self]

/-- COMMIT sets the cursor to the first block of a range of at least 128 (R180). -/
theorem cardSound_enterRun {s : State} (sound : CardSound s) (setup : s.port.phase = .setup) (ready : commitReady s = true) :
    CardSound (enterRun s) := by
  obtain ⟨free, -⟩ := sound.setup setup
  cases range : s.writer.range with
  | none => rw [commitReady, range] at ready; cases ready
  | some card =>
    obtain ⟨first, last⟩ := card
    obtain ⟨run, writer⟩ := enterRun_card range
    have blocks : 128 ≤ last + 1 - first := by
      rw [commitReady, range] at ready
      exact of_decide_eq_true (Bool.and_eq_true_iff.mp ready).1
    refine ⟨fun _ => ⟨first, last, first, ?_, ?_, le_refl _, by omega, ?_⟩, fun w flight => ?_,
      fun setup => (nomatch setup.symm.trans run), ?_⟩
    · rw [writer]; exact range
    · rw [writer]
    · rw [writer]
    · rw [writer] at flight
      cases free.symm.trans flight
    · rw [writer]; exact sound.skipped

theorem keepsCard_restartAll (s : State) : KeepsCard s (restartAll s) := by
  have writer : (restartAll s).writer = (restartWriter s).writer := by
    have before : (restartMix (emptyRing (restartTakes s))).writer = s.writer := by
      simp only [restartMix_writer, emptyRing_writer, restartTakes_frame]
    change (restartWriter (restartMix (emptyRing (restartTakes s)))).writer = _
    simp only [restartWriter, before]
  refine ⟨by simp only [restartAll_frame], by rw [writer]; rfl, by rw [writer]; rfl, by rw [writer]; rfl, fun w flight => ?_,
    fun _ => by rw [writer]; exact Nat.zero_le _⟩
  rw [writer] at flight
  obtain ⟨v, flying, stale⟩ := Option.map_eq_some_iff.mp flight
  exact .inl ⟨v, flying, by rw [← stale]⟩

/-! ### Every step -/

/-- After the command the card is sound, and the cursor where it was, unless the command is a reset, or a completion, which moves it
past the block of the write that was in flight. -/
structure CardFollows (i : Instr) (s t : State) : Prop where
  sound : CardSound t
  cursor : ∀ c, s.writer.cursor = some c →
    (∃ strap, i = .powerOn strap ∨ i = .reset strap) ∨ t.writer.cursor = some c ∨
      (t.writer.cursor = some (c + 1) ∧ (i = .successfulCompletion ∨ i = .failedCompletion) ∧
        ∃ w, s.writer.inFlight = some w ∧ w.addr = c)

theorem exec_card {i : Instr} {s t : State} (sound : CardSound s) (executed : exec i s = .next t) :
    CardFollows i s t := by
  have kept {u : State} (kept : KeepsCard s u) (same : SameRequests u t) : CardFollows i s t :=
    have both := kept.trans (keepsCard_of_writer same.phase same.writer)
    ⟨both.sound sound, fun _ cursor => .inr (.inl (both.cursor.trans cursor))⟩
  have completed {w : Write} (row : i = .successfulCompletion ∨ i = .failedCompletion)
      (flight : s.writer.inFlight = some w) (done : CompletedSound w t) : CardFollows i s t := by
    refine ⟨done.1, fun c cursor => ?_⟩
    cases (sound.flight w flight).1.symm.trans cursor
    exact .inr (.inr ⟨done.2, row, w, flight, rfl⟩)
  cases exec_writerEvent executed with
  | aside phase writer _ => exact kept (keepsCard_of_writer phase writer) (sameRequests_refl t)
  | ended phase writer same => exact kept ((keepsCard_of_writer phase writer).trans (keepsCard_finish _ _)) same
  | restarted strap row reset => exact ⟨reset ▸ cardSound_restart strap s, fun _ _ => .inl ⟨strap, row⟩⟩
  | completed row flight done => exact completed (.inl row) flight (done ▸ completedSound_ok sound flight)
  | failed row flight done => exact completed (.inr row) flight (done ▸ completedSound_failed sound flight)
  | decided done => exact kept (done ▸ keepsCard_makeDecision s) (sameRequests_refl t)
  | retried run left same =>
    obtain ⟨_, _, c, -, cursor, -⟩ := sound.run run
    exact kept (keepsCard_issueWrite _ _ _ run cursor left) same
  | abandoned same => exact kept ((keepsCard_restartAll s).trans (keepsCard_finish _ _)) same
  | configured setup phase writer =>
    obtain ⟨free, unset⟩ := sound.setup setup
    refine ⟨⟨fun run => (nomatch phase.symm.trans run), fun w flight => ?_, fun _ => ⟨?_, ?_⟩, ?_⟩,
      fun c cursor => (nomatch unset.symm.trans cursor)⟩
    · rw [writer] at flight
      cases free.symm.trans flight
    · rw [writer]; exact free
    · rw [writer]; exact unset
    · rw [writer]; exact sound.skipped
  | committed setup ready same =>
    refine ⟨(keepsCard_of_writer same.phase same.writer).sound (cardSound_enterRun sound setup ready), fun c cursor => ?_⟩
    cases (sound.setup setup).2.symm.trans cursor

/-- Settles O60: events that end otherwise leave cursor and space state, and issue at the cursor alone; a completion takes the
write out of flight and moves the cursor past its block. -/
theorem cursorNeverGoesBack : Obligations.CursorNeverGoesBack := by
  unfold Obligations.CursorNeverGoesBack
  refine ⟨fun s t sound stepped => ?kept, fun i s t c sound executed => (exec_card sound executed).cursor c⟩
  unfold Machine.step at stepped
  split at stepped
  case h_1 =>
    cases stepped
    refine (keepsCard_of_writer ?_ ?_).sound sound
    all_goals simp only [tick_frame]
  case h_2 i rest _ =>
    exact (exec_card ((keepsCard_of_writer (s := s) (t := { s with pending := rest }) rfl rfl).sound sound) stepped).sound

end Sys2Proof.Proofs
end

section
/-! PROOFS. The arbiter: the requests of index records, notes, faults and audio blocks, the choice among them, and the write that a
decision issues (R158, R161 to R165); MEDIA RETRY's fault record (R171). -/

namespace Sys2Proof.Proofs

open Sys2Proof Sys2Proof.Machine Sys2Proof.Safety

/-! ### MEDIA RETRY (R171) -/

theorem exec_mediaRetry {s : State} (run : s.port.phase = .run) : exec (.mediaRetry []) s = .next (mediaRetry () s) :=
  congrArg Host.Outcome.next (hostCommand_runOnly run)

/-- Settles O26, by capture state, write in flight and space state. -/
theorem mediaRetryIssuesAFaultRecord : Obligations.MediaRetryIssuesAFaultRecord := by
  unfold Obligations.MediaRetryIssuesAFaultRecord
  intro s run
  have executed {u : State} (answer : mediaRetry () s = u) : exec (.mediaRetry []) s = .next u :=
    (exec_mediaRetry run).trans (congrArg _ answer)
  refine ⟨fun other => executed (if_neg other), fun fault => ⟨fun w flight => executed ?busy,
    fun free exhausted => executed ?refused, fun c free left cursor => executed ?issued⟩⟩
  case busy => rw [mediaRetry, if_pos fault, flight]; rfl
  case refused => rw [mediaRetry, if_pos fault, free, if_neg (by decide), if_pos exhausted]; rfl
  case issued => rw [mediaRetry, if_pos fault, free, if_neg (by decide), if_neg left, issueWrite, cursor]; rfl

/-! ### The slot preferred by age (R165) -/

/-- The slot whose age is better than that of every other that meets the test. -/
theorem bestSlot_of_best {better : Nat → Nat → Bool} {p : Fin 3 → Take → Bool} {s : State} {i : Fin 3} {u : Take}
    (holds : s.takes.slots[i] = some u) (meets : p i u = true)
    (best : ∀ j v, j ≠ i → s.takes.slots[j] = some v → p j v = true →
      better (startAge s u) (startAge s v) = true ∧ better (startAge s v) (startAge s u) = false) :
    bestSlot better p s = some i := by
  have own := candidate_of_meets holds meets
  have rival (j : Fin 3) (other : j ≠ i) : ∀ b ∈ candidate p s j,
      better (startAge s u) b = true ∧ better b (startAge s u) = false := by
    intro b age
    obtain ⟨v, held, meets, rfl⟩ := candidate_eq_some age
    exact best j v other held meets
  have wins (x : Option (Fin 3 × Nat)) (beaten : ∀ y ∈ x, better (startAge s u) y.2 = true) :
      preferred better x i (candidate p s i) = some (i, startAge s u) := by
    rw [own]
    cases x with
    | none => rfl
    | some y => exact if_pos (beaten y rfl)
  have stays (j : Fin 3) (other : j ≠ i) :
      preferred better (some (i, startAge s u)) j (candidate p s j) = some (i, startAge s u) := by
    cases age : candidate p s j with
    | none => rfl
    | some b => exact if_neg (Bool.eq_false_iff.mp (rival j other b age).2)
  have beaten (j : Fin 3) (other : j ≠ i) (x : Option (Fin 3 × Nat)) (before : ∀ y ∈ x, better (startAge s u) y.2 = true) :
      ∀ y ∈ preferred better x j (candidate p s j), better (startAge s u) y.2 = true := by
    cases age : candidate p s j with
    | none => exact before
    | some b =>
      cases x with
      | none => exact fun y same => Option.mem_some_iff.mp same ▸ (rival j other b age).1
      | some x =>
        intro y chosen
        change y ∈ (if better b x.2 then some (j, b) else some x) at chosen
        split at chosen
        · exact Option.mem_some_iff.mp chosen ▸ (rival j other b age).1
        · exact before y chosen
  have start : ∀ y ∈ (none : Option (Fin 3 × Nat)), better (startAge s u) y.2 = true := nofun
  rw [bestSlot_eq]
  match i, wins, stays, beaten with
  | 0, wins, stays, _ => rw [wins none start, stays 1 (by decide), stays 2 (by decide)]; rfl
  | 1, wins, stays, beaten => rw [wins _ (beaten 0 (by decide) none start), stays 2 (by decide)]; rfl
  | 2, wins, _, beaten => rw [wins _ (beaten 1 (by decide) _ (beaten 0 (by decide) none start))]; rfl

/-- The slot started earliest, when one started before every other that meets the test. -/
theorem earliestSlot_of_earliest {p : Fin 3 → Take → Bool} {s : State} {i : Fin 3} {u : Take}
    (holds : s.takes.slots[i] = some u) (meets : p i u = true)
    (earliest : ∀ j v, j ≠ i → s.takes.slots[j] = some v → p j v = true → startAge s v < startAge s u) :
    earliestSlot p s = some i :=
  bestSlot_of_best holds meets fun j v other held rival =>
    have older := earliest j v other held rival
    ⟨decide_eq_true older, decide_eq_false (Nat.lt_asymm older)⟩

/-! ### The requests (R159, R161 to R163) -/

theorem hasIndexRequest_iff (D : Nat) (u : Take) :
    hasIndexRequest D u = true ↔ u.phase = .closing ∧ u.indexIssued = false ∧ ∃ z, u.z = some z ∧ u.next = (z + 1) % D := by
  refine ⟨hasIndexRequest_spec, ?_⟩
  rintro ⟨closing, unissued, z, stop, past⟩
  rw [hasIndexRequest, closing, unissued, stop]
  exact beq_iff_eq.mpr past

theorem hasNoteRequest_iff (s : State) : hasNoteRequest s = true ↔ ∃ x ∈ s.store.notes, x.state = .pending := by
  simp only [hasNoteRequest, List.any_eq_true, beq_iff_eq]

theorem hasFaultRequest_iff (s : State) : hasFaultRequest s = true ↔ s.writer.skipped ≠ [] ∨ 0 < s.writer.unlisted := by
  simp only [hasFaultRequest, Bool.or_eq_true, Bool.not_eq_true', List.isEmpty_eq_false_iff, decide_eq_true_eq, ne_eq]

section

variable {s : State}

theorem urgentRequest_of_index {i : Fin 3} (index : earliestSlot (fun _ v => hasIndexRequest s.day v) s = some i) :
    urgentRequest s = some (.index i) := by
  rw [urgentRequest, index]

variable (noIndex : earliestSlot (fun _ v => hasIndexRequest s.day v) s = none)

include noIndex

theorem urgentRequest_of_notes (notes : hasNoteRequest s = true) : urgentRequest s = some .notes := by
  rw [urgentRequest, noIndex]
  exact if_pos notes

theorem urgentRequest_of_fault (noNotes : ¬hasNoteRequest s = true) (fault : hasFaultRequest s = true) :
    urgentRequest s = some .fault := by
  rw [urgentRequest, noIndex]
  exact (if_neg noNotes).trans (if_pos fault)

theorem urgentRequest_of_none (noNotes : ¬hasNoteRequest s = true) (noFault : ¬hasFaultRequest s = true) :
    urgentRequest s = none := by
  rw [urgentRequest, noIndex]
  exact (if_neg noNotes).trans (if_neg noFault)

end

/-! ### The choice (R158, R165) -/

section

variable {s : State}

theorem choose_of_full (full : s.writer.space = some .full) : choose s = urgentRequest s := by
  unfold choose
  rw [full]

/-- The order of the two kinds of request by the protected count (R165). -/
theorem choose_of_room (room : s.writer.space = some .ample ∨ s.writer.space = some .nearFull) :
    choose s =
      if protectedCount s < 786432 then (urgentRequest s).or (bulkRequest s) else (bulkRequest s).or (urgentRequest s) := by
  have backlog : Config.protectedThreshold = 786432 := rfl
  unfold choose
  rw [← backlog]
  rcases room with space | space
  all_goals
    rw [space]
    dsimp only
    split
    · cases urgentRequest s <;> rfl
    · cases bulkRequest s <;> rfl

theorem choose_urgent {r : Request} (urgent : urgentRequest s = some r)
    (space : s.writer.space = some .ample ∨ s.writer.space = some .nearFull ∨ s.writer.space = some .full)
    (first : (s.writer.space = some .full ∨ protectedCount s < 786432) ∨ bulkRequest s = none) : choose s = some r := by
  by_cases full : s.writer.space = some .full
  · rw [choose_of_full full, urgent]
  · have room : s.writer.space = some .ample ∨ s.writer.space = some .nearFull := by tauto
    rw [choose_of_room room, urgent]
    split
    case isTrue => rfl
    case isFalse backlog =>
      rw [(first.resolve_left fun early => early.elim full backlog), Option.none_or]

theorem choose_bulk {r : Request} (bulk : bulkRequest s = some r)
    (room : s.writer.space = some .ample ∨ s.writer.space = some .nearFull)
    (first : 786432 ≤ protectedCount s ∨ urgentRequest s = none) : choose s = some r := by
  rw [choose_of_room room, bulk]
  split
  case isTrue early => rw [first.resolve_left (not_le.mpr early), Option.none_or]
  case isFalse => rfl

theorem choose_nothing (noUrgent : urgentRequest s = none) (noBulk : bulkRequest s = none ∨ s.writer.space = some .full) :
    choose s = none := by
  rcases noBulk with noBulk | full
  · rw [choose_of_no_bulk noBulk, noUrgent, ite_self]
  · rw [choose_of_full full, noUrgent]

end

/-! ### The notes of a block (R130, R162) -/

theorem markWriting_of_no_pending (n : Nat) {l : List StoredNote} (none_pending : ∀ x ∈ l, x.state ≠ .pending) :
    markWriting n l = l := by
  induction l generalizing n with
  | nil => cases n <;> rfl
  | cons x rest ih =>
    cases n with
    | zero => rfl
    | succ n =>
      rw [markWriting, if_neg (none_pending x List.mem_cons_self),
        ih _ fun y member => none_pending y (List.mem_cons_of_mem x member)]

/-- The PENDING notes up to the n-th of them become WRITING, or all of them where there are fewer. -/
theorem markWriting_append {n : Nat} {older newer : List StoredNote}
    (split_ : older.countP (fun x => x.state == .pending) = n ∨
      (older.countP (fun x => x.state == .pending) < n ∧ ∀ x ∈ newer, x.state ≠ .pending)) :
    markWriting n (older ++ newer) =
      (older.map fun x => if x.state = .pending then { x with state := .writing } else x) ++ newer := by
  induction older generalizing n with
  | nil =>
    rcases split_ with none_left | ⟨-, none_pending⟩
    · cases none_left
      cases newer <;> rfl
    · exact markWriting_of_no_pending n none_pending
  | cons x rest ih =>
    by_cases pending : x.state = .pending
    · rw [List.countP_cons_of_pos (by rw [pending]; rfl)] at split_
      cases n with
      | zero => omega
      | succ n =>
        have rest_split := split_.imp Nat.succ.inj (And.imp_left Nat.lt_of_succ_lt_succ)
        rw [List.cons_append, markWriting, if_pos pending, List.map_cons, if_pos pending, ih rest_split]
        rfl
    · rw [List.countP_cons_of_neg (by simpa using pending)] at split_
      rw [List.map_cons, if_neg pending]
      cases n with
      | zero =>
        have none_left : rest.countP (fun x => x.state == .pending) = 0 := by omega
        have below := ih (.inl none_left)
        rw [List.cons_append, List.cons_append, ← below]
        cases rest ++ newer <;> rfl
      | succ n => rw [List.cons_append, markWriting, if_neg pending, ih split_]; rfl

theorem take_filter_pending {n : Nat} {older newer : List StoredNote}
    (split_ : older.countP (fun x => x.state == .pending) = n ∨
      (older.countP (fun x => x.state == .pending) < n ∧ ∀ x ∈ newer, x.state ≠ .pending)) :
    ((older ++ newer).filter fun x => x.state == .pending).take n = older.filter fun x => x.state == .pending := by
  rw [List.filter_append]
  rw [List.countP_eq_length_filter] at split_
  rcases split_ with full | ⟨fewer, none_pending⟩
  · exact List.take_left' full
  · have none_newer : (newer.filter fun x => x.state == .pending) = [] :=
      List.filter_eq_nil_iff.mpr fun x member => by simpa using none_pending x member
    rw [none_newer, List.append_nil, List.take_of_length_le fewer.le]

/-! ### The decision (R164) -/

theorem exec_writeIssue_of_stands {s : State} (stands : mayIssue s = false ∨ choose s = none) :
    exec .writeIssue s = .next s :=
  congrArg Host.Outcome.next (makeDecision_eq_self_iff.mpr stands)

theorem exec_writeIssue_of_choose {s : State} {r : Request} {c : Nat} (run : s.port.phase = .run)
    (normal : s.writer.capture = .normal) (free : s.writer.inFlight = none) (cursor : s.writer.cursor = some c)
    (chosen : choose s = some r) : exec .writeIssue s = .next (issueRequest r s) :=
  congrArg Host.Outcome.next
    (makeDecision_of_choose ((mayIssue_iff s).mpr ⟨run, normal, free, c, cursor⟩) chosen)

theorem issueWrite_first {s : State} {c : Nat} (cursor : s.writer.cursor = some c) (x : Content) :
    issueWrite x .first false s = { s with writer := { s.writer with inFlight := some (firstWrite c x) } } := by
  rw [issueWrite, cursor]
  rfl

theorem mayIssue_eq_false {s : State}
    (forbids : s.port.phase = .setup ∨ s.writer.capture ≠ .normal ∨ s.writer.inFlight ≠ none ∨ s.writer.cursor = none) :
    mayIssue s = false := by
  refine Bool.eq_false_iff.mpr fun may => ?_
  obtain ⟨run, normal, free, c, cursor⟩ := (mayIssue_iff s).mp may
  rcases forbids with setup | abnormal | busy | unset
  · cases setup.symm.trans run
  · exact abnormal normal
  · exact busy free
  · cases unset.symm.trans cursor

/-! ### No command leaves a request behind (R164) -/

/-- In RUN a command leaves no request that may be issued where none stood before it. -/
theorem exec_stands {i : Instr} {s t : State} (run : s.port.phase = .run) (stands : makeDecision s = s)
    (executed : exec i s = .next t) : makeDecision t = t := by
  cases exec_writerEvent executed with
  | aside _ _ keeps => exact keeps run stands
  | ended _ _ same => exact same.stands (makeDecision_finish _ _)
  | restarted strap _ reset => exact reset ▸ makeDecision_eq_self_iff.mpr (.inl (mayIssue_eq_false (.inl rfl)))
  | completed _ _ done => exact done ▸ makeDecision_finish _ _
  | failed _ _ done => exact done ▸ makeDecision_finish _ _
  | decided done => exact done ▸ makeDecision_idem s
  | retried _ _ same =>
    refine same.stands (makeDecision_eq_self_iff.mpr (.inl (mayIssue_eq_false (.inr (.inr (.inl ?_))))))
    exact Option.some_ne_none _
  | abandoned same => exact same.stands (makeDecision_finish _ _)
  | configured setup => cases setup.symm.trans run
  | committed setup => cases setup.symm.trans run

/-- The arrival of a frame in RUN leaves none, whatever stood before it. -/
theorem arriveFrame_stands (f : FrameIn) {s : State} (run : s.port.phase = .run) :
    makeDecision (arriveFrame f s) = arriveFrame f s := by
  rw [arriveFrame, if_pos (inRun_of_run run)]
  exact makeDecision_finish _ _

/-- Settles O41: requests and ages name the urgent and the bulk request, space state and protected count order the two, and what is
issued is read off the chosen request. -/
theorem writeIssueFollowsTheArbiter : Obligations.WriteIssueFollowsTheArbiter := by
  unfold Obligations.WriteIssueFollowsTheArbiter
  refine ⟨fun i s t run stood executed => ?stands, ?decision⟩
  case stands =>
    refine congrArg Host.Outcome.next ?_
    rcases stood with stands | ⟨f, rfl⟩
    · exact exec_stands run (Host.Outcome.next.inj stands) executed
    · exact Host.Outcome.next.inj executed ▸ arriveFrame_stands f run
  case decision =>
    intro s closesNow indexRequest audioRequest noteRequest faultRequest first urgentFirst issued
    have asksIndex (u : Take) : closesNow u ↔ hasIndexRequest s.day u = true := (hasIndexRequest_iff s.day u).symm
    have index_none (none_asks : ∀ i, ¬indexRequest i) :
        earliestSlot (fun _ v => hasIndexRequest s.day v) s = none :=
      bestSlot_eq_none fun i u holds => Bool.eq_false_iff.mpr fun asks => none_asks i ⟨u, holds, (asksIndex u).mpr asks⟩
    have bulk_none (none_asks : ∀ i, ¬audioRequest i) : bulkRequest s = none := by
      rw [bulkRequest, earliestSlot,
        bestSlot_eq_none fun i u holds => Bool.eq_false_iff.mpr fun ready => none_asks i ⟨u, holds, ready⟩]
      rfl
    have noNotes (none_pending : ¬noteRequest) : ¬hasNoteRequest s = true := fun asks =>
      none_pending ((hasNoteRequest_iff s).mp asks)
    have noFault (none_listed : ¬faultRequest) : ¬hasFaultRequest s = true := fun asks =>
      none_listed ((hasFaultRequest_iff s).mp asks)
    refine ⟨fun forbids => ?forbidden, fun noIndex noNote noneListed noAudio => ?nothing, fun c run normal free cursor space =>
      ⟨fun order => ⟨fun i u earliest => ?index, fun noIndex asks older newer notes split_ => ?notes,
        fun noIndex noNote listed => ?fault⟩, fun notFull order i u frames earliest ready => ?audio⟩⟩
    case forbidden =>
      refine exec_writeIssue_of_stands ?_
      rcases forbids with setup | abnormal | busy | unset | noSpace | exhausted
      · exact .inl (mayIssue_eq_false (.inl setup))
      · exact .inl (mayIssue_eq_false (.inr (.inl abnormal)))
      · exact .inl (mayIssue_eq_false (.inr (.inr (.inl busy))))
      · exact .inl (mayIssue_eq_false (.inr (.inr (.inr unset))))
      · exact .inr (by rw [choose, noSpace])
      · exact .inr (by rw [choose, exhausted])
    case nothing =>
      have noUrgent := urgentRequest_of_none (index_none noIndex) (noNotes noNote) (noFault noneListed)
      exact exec_writeIssue_of_stands (.inr (choose_nothing noUrgent (noAudio.imp_left bulk_none)))
    case index =>
      obtain ⟨holds, ⟨v, held, asks⟩, before⟩ := earliest
      cases holds.symm.trans held
      have slot : earliestSlot (fun _ v => hasIndexRequest s.day v) s = some i :=
        earliestSlot_of_earliest holds ((asksIndex u).mp asks) fun j v other held rival =>
          before j v other ⟨v, held, (asksIndex v).mpr rival⟩ held
      have chosen := choose_urgent (urgentRequest_of_index slot) space (order.imp_right bulk_none)
      rw [exec_writeIssue_of_choose run normal free cursor chosen]
      simp only [issueRequest, holds]
      exact congrArg Host.Outcome.next (issueWrite_first (by exact cursor) _)
    case notes =>
      have urgent := urgentRequest_of_notes (index_none noIndex) ((hasNoteRequest_iff s).mpr asks)
      have chosen := choose_urgent urgent space (order.imp_right bulk_none)
      have marked := markWriting_append (n := Config.notesPerBlock) split_
      have taken := take_filter_pending (n := Config.notesPerBlock) split_
      rw [exec_writeIssue_of_choose run normal free cursor chosen, issueRequest, notesForBlock, notes, taken, marked]
      exact congrArg Host.Outcome.next (issueWrite_first (by exact cursor) _)
    case fault =>
      have urgent := urgentRequest_of_fault (index_none noIndex) (noNotes noNote) ((hasFaultRequest_iff s).mpr listed)
      have chosen := choose_urgent urgent space (order.imp_right bulk_none)
      rw [exec_writeIssue_of_choose run normal free cursor chosen]
      exact congrArg Host.Outcome.next (issueWrite_first cursor _)
    case audio =>
      obtain ⟨holds, -, before⟩ := earliest
      have slot : earliestSlot (fun _ v => (readyBlock s v).isSome) s = some i :=
        earliestSlot_of_earliest holds (by rw [ready]; rfl) fun j v other held rival => before j v other ⟨v, held, rival⟩ held
      have bulk : bulkRequest s = some (.audio i) := by rw [bulkRequest, slot]; rfl
      have room : s.writer.space = some .ample ∨ s.writer.space = some .nearFull := by tauto
      have chosen := choose_bulk bulk room
        (order.imp_right fun ⟨noIndex, noNote, noneListed⟩ =>
          urgentRequest_of_none (index_none noIndex) (noNotes noNote) (noFault noneListed))
      rw [exec_writeIssue_of_choose run normal free cursor chosen]
      simp only [issueRequest, holds, ready]
      exact congrArg Host.Outcome.next (issueWrite_first cursor _)

end Sys2Proof.Proofs
end

section
/-! PROOFS. Audio blocks and gap reports: the run of held frames that a block or a report takes, when one is ready or due, and what
the accounts of an event make of a take (R4, R76, R159, R160). -/

namespace Sys2Proof.Proofs

open Sys2Proof Sys2Proof.Machine Sys2Proof.Safety

/-! ### Frames at consecutive positions -/

/-- The frames stand at consecutive positions from p. -/
def Consecutive (D p : Nat) (l : List RingFrame) : Prop := ∀ (k : Nat) (f : RingFrame), l[k]? = some f → f.pos = (p + k) % D

/-- Only the last of the frames can stand at Z. -/
def UpToStop (z : Option Nat) (l : List RingFrame) : Prop :=
  ∀ y, z = some y → ∀ (k : Nat) (f : RingFrame), l[k]? = some f → f.pos = y → k + 1 = l.length

/-- A run of this length from p reaches Z. -/
def ReachesStop (D : Nat) (z : Option Nat) (p length : Nat) : Prop := ∃ y, z = some y ∧ 0 < length ∧ (p + (length - 1)) % D = y

section

variable {D p : Nat} {z : Option Nat} {f : RingFrame} {rest : List RingFrame}

theorem mod_succ_add (D p k : Nat) : ((p + 1) % D + k) % D = (p + (k + 1)) % D := by
  rw [Nat.mod_add_mod, Nat.add_right_comm, Nat.add_assoc]

theorem consecutive_nil : Consecutive D p [] := nofun

theorem consecutive_cons (inDay : p < D) : Consecutive D p (f :: rest) ↔ f.pos = p ∧ Consecutive D ((p + 1) % D) rest := by
  constructor
  · intro run
    refine ⟨(run 0 f rfl).trans (Nat.mod_eq_of_lt inDay), fun k g held => ?_⟩
    rw [mod_succ_add]
    exact run (k + 1) g held
  · rintro ⟨here, run⟩ k g held
    cases k with
    | zero => cases held; exact here.trans (Nat.mod_eq_of_lt inDay).symm
    | succ k => rw [← mod_succ_add]; exact run k g held

theorem upToStop_cons : UpToStop z (f :: rest) ↔ (z = some f.pos → rest = []) ∧ UpToStop z rest := by
  constructor
  · intro stop
    refine ⟨fun here => ?_, fun y hz k g held at_y => ?_⟩
    · have last := stop f.pos here 0 f rfl rfl
      exact List.eq_nil_of_length_eq_zero (Nat.succ.inj last).symm
    · exact Nat.succ.inj (stop y hz (k + 1) g held at_y)
  · rintro ⟨here, stop⟩ y hz k g held at_y
    cases k with
    | zero =>
      cases held
      rw [here (hz.trans (congrArg some at_y.symm))]
      rfl
    | succ k => exact congrArg Nat.succ (stop y hz k g held at_y)

theorem reachesStop_succ {n : Nat} (some_left : 0 < n) :
    ReachesStop D z ((p + 1) % D) n ↔ ReachesStop D z p (n + 1) := by
  have shift : ((p + 1) % D + (n - 1)) % D = (p + (n + 1 - 1)) % D := by
    rw [mod_succ_add]
    congr 2
    omega
  unfold ReachesStop
  rw [shift]
  simp only [some_left, Nat.succ_pos]

end

/-! ### The run of a block (R159) -/

/-- What takeRun takes of the frames from p: consecutive ones, no more than n and none after Z; short of n and of Z it names the
position that it misses. -/
structure TakenRun (D : Nat) (z : Option Nat) (n p : Nat) (l : List RingFrame) (r : List RingFrame × Option Nat) : Prop where
  members : ∀ f ∈ r.1, f ∈ l
  length : r.1.length ≤ n
  consecutive : Consecutive D p r.1
  stop : UpToStop z r.1
  whole : r.2 = none → r.1.length = n ∨ ReachesStop D z p r.1.length
  missing : ∀ q, r.2 = some q → q = (p + r.1.length) % D

theorem takeRun_taken {D : Nat} {z : Option Nat} {n p : Nat} (inDay : p < D) (l : List RingFrame) :
    TakenRun D z n p l (takeRun D z n p l) := by
  have day : 0 < D := Nat.zero_lt_of_lt inDay
  have nothing {n : Nat} {l : List RingFrame} : TakenRun D z n p l ([], some p) :=
    ⟨nofun, Nat.zero_le n, consecutive_nil, nofun, nofun, fun q h => by cases h; exact (Nat.mod_eq_of_lt inDay).symm⟩
  induction n generalizing p l with
  | zero => exact ⟨nofun, le_refl 0, nofun, nofun, fun _ => .inl rfl, nofun⟩
  | succ n ih =>
    cases l with
    | nil => exact nothing
    | cons f rest =>
      rw [takeRun]
      split_ifs with here atStop
      · refine ⟨fun g member => ?_, Nat.succ_pos n, ?_, ?_, fun _ => .inr ⟨p, atStop, Nat.one_pos, Nat.mod_eq_of_lt inDay⟩, nofun⟩
        · exact List.mem_singleton.mp member ▸ List.mem_cons_self
        · exact (consecutive_cons inDay).mpr ⟨here, consecutive_nil⟩
        · exact upToStop_cons.mpr ⟨fun _ => rfl, nofun⟩
      · have next := ih (p := posAdd D p 1) (Nat.mod_lt _ day) rest fun {n l} =>
          ⟨nofun, Nat.zero_le n, consecutive_nil, nofun, nofun, fun q h => by
            cases h; exact (Nat.mod_mod _ _).symm⟩
        generalize takeRun D z n (posAdd D p 1) rest = r at next ⊢
        obtain ⟨members, length, run, stop, whole, missing⟩ := next
        refine ⟨fun g member => ?_, Nat.succ_le_succ length, (consecutive_cons inDay).mpr ⟨here, run⟩,
          upToStop_cons.mpr ⟨fun atStop' => absurd (here ▸ atStop') atStop, stop⟩, fun ended => ?_, fun q h => ?_⟩
        · rcases List.mem_cons.mp member with same | later
          · exact same ▸ List.mem_cons_self
          · exact List.mem_cons_of_mem f (members g later)
        · rcases whole ended with full | reaches
          · exact .inl (congrArg Nat.succ full)
          · obtain ⟨y, hz, some_taken, last⟩ := reaches
            exact .inr ((reachesStop_succ some_taken).mp ⟨y, hz, some_taken, last⟩)
        · exact (missing q h).trans (mod_succ_add D p _)
      · exact nothing

section

variable {D p n : Nat} {z : Option Nat} {run : List RingFrame} (inDay : p < D) (consecutive : Consecutive D p run)
  (newer : List RingFrame)

include inDay consecutive

/-- A run of n frames, or one that reaches Z, is taken whole. -/
theorem takeRun_of_whole (some_held : run ≠ []) (stop : UpToStop z run)
    (whole : run.length = n ∨ (run.length < n ∧ ReachesStop D z p run.length)) :
    takeRun D z n p (run ++ newer) = (run, none) := by
  have day : 0 < D := Nat.zero_lt_of_lt inDay
  induction run generalizing n p with
  | nil => exact absurd rfl some_held
  | cons f rest ih =>
    obtain ⟨here, later⟩ := (consecutive_cons inDay).mp consecutive
    obtain ⟨last, stop⟩ := upToStop_cons.mp stop
    rw [List.length_cons] at whole
    cases n with
    | zero => omega
    | succ n =>
      rw [List.cons_append, takeRun, if_pos here]
      by_cases atStop : z = some p
      · rw [if_pos atStop, last (here.symm ▸ atStop)]
      · rw [if_neg atStop]
        by_cases alone : rest = []
        · cases alone
          rcases whole with full | ⟨-, y, hz, -, reaches⟩
          · cases full
            rfl
          · rw [List.length_nil, Nat.zero_add, Nat.sub_self, Nat.add_zero, Nat.mod_eq_of_lt inDay] at reaches
            exact absurd (hz.trans (congrArg some reaches.symm)) atStop
        · have shifted : rest.length = n ∨ (rest.length < n ∧ ReachesStop D z (posAdd D p 1) rest.length) :=
            whole.imp Nat.succ.inj fun ⟨short, reaches⟩ =>
              ⟨Nat.lt_of_succ_lt_succ short, (reachesStop_succ (List.length_pos_iff.mpr alone)).mpr reaches⟩
          have taken := ih (p := posAdd D p 1) (Nat.mod_lt _ day) later alone stop shifted
          dsimp only
          rw [taken]

/-- A run short of n frames and of Z is taken up to the position that is missing. -/
theorem takeRun_of_short (short : run.length < n) (beforeStop : ∀ f ∈ run, z ≠ some f.pos)
    (missing : ∀ f, newer.head? = some f → f.pos ≠ (p + run.length) % D) :
    takeRun D z n p (run ++ newer) = (run, some ((p + run.length) % D)) := by
  have day : 0 < D := Nat.zero_lt_of_lt inDay
  induction run generalizing n p with
  | nil =>
    cases n with
    | zero => cases short
    | succ n =>
      have here : (p + ([] : List RingFrame).length) % D = p := Nat.mod_eq_of_lt inDay
      rw [here] at missing ⊢
      cases newer with
      | nil => rfl
      | cons g rest => rw [List.nil_append, takeRun, if_neg (missing g rfl)]
  | cons f rest ih =>
    obtain ⟨here, later⟩ := (consecutive_cons inDay).mp consecutive
    cases n with
    | zero => cases short
    | succ n =>
      have notStop : z ≠ some p := here ▸ beforeStop f List.mem_cons_self
      rw [List.length_cons, ← mod_succ_add] at missing ⊢
      have taken := ih (p := posAdd D p 1) (Nat.mod_lt _ day) later (Nat.lt_of_succ_lt_succ short)
        (fun g member => beforeStop g (List.mem_cons_of_mem f member)) missing
      rw [List.cons_append, takeRun, if_pos here, if_neg notStop]
      dsimp only
      rw [taken]
      rfl

end

/-- The held frames from a position on begin with the run that stands there. -/
theorem framesFrom_of_run {D p : Nat} {older run newer : List RingFrame} (inDay : p < D) (some_held : run ≠ [])
    (before : ∀ g ∈ older, g.pos ≠ p) (consecutive : Consecutive D p run) :
    framesFrom p (older ++ run ++ newer) = run ++ newer := by
  cases run with
  | nil => exact absurd rfl some_held
  | cons f rest =>
    have here := ((consecutive_cons inDay).mp consecutive).1
    rw [framesFrom, List.append_assoc, List.dropWhile_append_of_pos fun g member => bne_iff_ne.mpr (before g member)]
    exact List.dropWhile_cons_of_neg (by simp [here])

theorem framesFrom_of_unheld {p : Nat} {frames : List RingFrame} (unheld : ∀ g ∈ frames, g.pos ≠ p) : framesFrom p frames = [] :=
  List.dropWhile_eq_nil_iff.mpr fun g member => bne_iff_ne.mpr (unheld g member)

/-! ### The ready block (R159) -/

section

variable {s : State} {u : Take}

theorem readyBlock_of_past {z : Nat} (stop : u.z = some z) (past : u.next = (z + 1) % s.day) : readyBlock s u = none := by
  unfold readyBlock
  rw [stop]
  exact if_pos (beq_iff_eq.mpr past)

/-- Before the end of a take the ready block is the run taken, unless that is empty or ends at a position still to come. -/
theorem readyBlock_of_taken {r : List RingFrame × Option Nat} (notPast : ∀ z, u.z = some z → u.next ≠ (z + 1) % s.day)
    (taken : takeRun s.day u.z (blockCapacity s) u.next (framesFrom u.next s.ring.frames) = r) :
    readyBlock s u =
      if r.1 = [] ∨ ∃ q, r.2 = some q ∧ isLater s.day q s.counter.newest = true then none else some r.1 := by
  have of_run (frames : List RingFrame) (missing : Option Nat) :
      (match frames, missing with
        | [], _ => none
        | frames, none => some frames
        | frames, some p => if isLater s.day p s.counter.newest then none else some frames) =
      if frames = [] ∨ ∃ q, missing = some q ∧ isLater s.day q s.counter.newest = true then none else some frames := by
    cases frames with
    | nil => rfl
    | cons f rest => cases missing <;> simp
  unfold readyBlock
  dsimp only
  rw [taken]
  cases stop : u.z with
  | none => exact of_run r.1 r.2
  | some z =>
    have before : ¬(u.next == posAdd s.day z 1) = true := fun past => notPast z stop (beq_iff_eq.mp past)
    exact (if_neg before).trans (of_run r.1 r.2)

theorem readyBlock_of_unheld (unheld : ∀ g ∈ s.ring.frames, g.pos ≠ u.next) : readyBlock s u = none := by
  by_cases past : ∃ z, u.z = some z ∧ u.next = (z + 1) % s.day
  · obtain ⟨z, stop, past⟩ := past
    exact readyBlock_of_past stop past
  · have nothing : (takeRun s.day u.z (blockCapacity s) u.next []).1 = [] := by cases blockCapacity s <;> rfl
    rw [readyBlock_of_taken (fun z stop here => past ⟨z, stop, here⟩) (by rw [framesFrom_of_unheld unheld]), if_pos (.inl nothing)]

/-- A ready block is a run taken, not empty, that ends at no position still to come. -/
theorem readyBlock_eq_some {frames : List RingFrame} (inDay : u.next < s.day) (ready : readyBlock s u = some frames) :
    frames ≠ [] ∧ ∃ missing, TakenRun s.day u.z (blockCapacity s) u.next (framesFrom u.next s.ring.frames) (frames, missing) ∧
      ∀ q, missing = some q → isLater s.day q s.counter.newest = false := by
  have notPast : ∀ z, u.z = some z → u.next ≠ (z + 1) % s.day := fun z stop past => by
    cases (readyBlock_of_past stop past).symm.trans ready
  have taken := takeRun_taken (z := u.z) (n := blockCapacity s) inDay (framesFrom u.next s.ring.frames)
  rw [readyBlock_of_taken notPast rfl] at ready
  split at ready
  · cases ready
  case isFalse goes =>
    generalize takeRun s.day u.z (blockCapacity s) u.next (framesFrom u.next s.ring.frames) = r at taken ready goes
    obtain ⟨frames', missing⟩ := r
    cases ready
    obtain ⟨some_held, arrived⟩ := not_or.mp goes
    exact ⟨some_held, missing, taken, fun q h => Bool.eq_false_iff.mpr fun later => arrived ⟨q, h, later⟩⟩

end

theorem wordCount_eq (s : State) :
    wordCount s =
      ((List.finRange 16).countP fun n => s.front.tracks[n].kind != .off) + (if mixIsEnabled s then 1 else 0) := by
  rw [wordCount, enabledTracks, List.countP_eq_length_filter]

end Sys2Proof.Proofs
end

section
/-! PROOFS. Gap reports: when one is due and what the accounts of an event make of a take (R76, R160). -/

namespace Sys2Proof.Proofs

open Sys2Proof Sys2Proof.Machine Sys2Proof.Safety

/-! ### The held frames in a row -/

theorem heldRun_append {D p : Nat} (inDay : p < D) {run : List RingFrame} (newer : List RingFrame)
    (consecutive : Consecutive D p run) :
    heldRun D p (run ++ newer) = run.length + heldRun D ((p + run.length) % D) newer := by
  induction run generalizing p with
  | nil =>
    have here : (p + ([] : List RingFrame).length) % D = p := Nat.mod_eq_of_lt inDay
    rw [here, List.nil_append, List.length_nil, Nat.zero_add]
  | cons f rest ih =>
    obtain ⟨here, later⟩ := (consecutive_cons inDay).mp consecutive
    have rest_run := ih (p := posAdd D p 1) (Nat.mod_lt _ (Nat.zero_lt_of_lt inDay)) later
    rw [List.cons_append, heldRun, if_pos here, rest_run, List.length_cons, Nat.add_right_comm, posAdd, mod_succ_add]

theorem heldRun_of_missing {D p : Nat} {frames : List RingFrame} (missing : ∀ f, frames.head? = some f → f.pos ≠ p) :
    heldRun D p frames = 0 := by
  cases frames with
  | nil => rfl
  | cons f rest => exact if_neg (missing f rfl)

/-! ### When a report is due (R47, R160) -/

section

variable {s : State} {i : Fin 3} {u : Take} (holds : s.takes.slots[i] = some u)

theorem heldAt_of_unheld {s : State} {p : Nat} (unheld : ¬∃ f ∈ s.ring.frames, f.pos = p) : heldAt s p = none :=
  List.find?_eq_none.mpr fun f member here => unheld ⟨f, member, beq_iff_eq.mp here⟩

theorem ringAnswer_of_held {s : State} {p : Nat} (held : ∃ f ∈ s.ring.frames, f.pos = p) : ∃ o, ringAnswer s p = .held o := by
  obtain ⟨g, member, position⟩ := held
  have found : (heldAt s p).isSome = true := List.find?_isSome.mpr ⟨g, member, beq_iff_eq.mpr position⟩
  obtain ⟨o, at_next⟩ := Option.isSome_iff_exists.mp found
  exact ⟨o, by rw [ringAnswer, at_next]⟩

include holds

theorem dueReport_of_notArrived (unheld : ¬∃ f ∈ s.ring.frames, f.pos = u.next)
    (ahead : isLater s.day u.next s.counter.newest = true) : dueReport s i = none := by
  have answer : ringAnswer s u.next = .notArrived := by rw [ringAnswer, heldAt_of_unheld unheld]; exact if_pos ahead
  simp only [dueReport, holds, answer]

/-- Of held frames a report is due on a FULL card alone, and not while an audio block of the slot is in flight. -/
theorem dueReport_of_frames (held : ∃ f ∈ s.ring.frames, f.pos = u.next) :
    dueReport s i =
      if (cardFull s && !audioInFlight s i) = true then
        if upToEnd s.day u (heldRun s.day u.next (framesFrom u.next s.ring.frames)) = 0 then none
        else some (false, upToEnd s.day u (heldRun s.day u.next (framesFrom u.next s.ring.frames)))
      else none := by
  obtain ⟨o, answer⟩ := ringAnswer_of_held held
  simp only [dueReport, holds, answer]

/-- A report of holes ends where the lookup from the next-to-write position does. -/
theorem dueReport_of_holes (unheld : ¬∃ f ∈ s.ring.frames, f.pos = u.next)
    (arrived : isLater s.day u.next s.counter.newest = false) :
    dueReport s i =
      if audioOutstanding s i = true then none
      else if upToEnd s.day u (countAfter s.day u.next (headOf .afterFrame s u.next).2) = 0 then none
      else some (true, upToEnd s.day u (countAfter s.day u.next (headOf .afterFrame s u.next).2)) := by
  have answer : ringAnswer s u.next = .gone ∨ ringAnswer s u.next = .hole := by
    rw [ringAnswer, heldAt_of_unheld unheld]
    dsimp only
    rw [arrived, if_neg Bool.false_ne_true]
    split
    · exact .inl rfl
    · split
      · exact .inl rfl
      · exact .inr rfl
  rcases answer with gone | hole
  · cases look : lookup .afterFrame s u.next <;> simp only [dueReport, holds, gone, headOf, look]
  · cases look : lookup .afterFrame s u.next <;> simp only [dueReport, holds, hole, headOf, look]

end

/-! ### What the reports of an event make of a take (R76) -/

theorem gapReport_eq (D : Nat) (holes : Bool) (n : Nat) (u : Take) :
    gapReport D holes n u =
      { insertRun D u.next
          (if holes = false then n else if isEarlier D u.next u.watch then min n (countAfter D u.next u.watch) else 0) u with
        g := u.g + n, next := (u.next + n) % D } := by
  cases holes with
  | false => rfl
  | true => rfl

/-- Take v is u with its next-to-write position and its G count m positions on, and what that puts in the gap list. -/
def AdvancedBy (D m : Nat) (u v : Take) : Prop :=
  ∃ gaps merged, v = { u with next := (u.next + m) % D, g := u.g + m, gaps := gaps, gapsMerged := merged }

theorem AdvancedBy.refl {D : Nat} {u : Take} (inDay : u.next < D) : AdvancedBy D 0 u u :=
  ⟨u.gaps, u.gapsMerged, by rw [Nat.add_zero, Nat.mod_eq_of_lt inDay]; rfl⟩

theorem AdvancedBy.trans {D m n : Nat} {u v w : Take} (first : AdvancedBy D m u v) (second : AdvancedBy D n v w) :
    AdvancedBy D (m + n) u w := by
  obtain ⟨_, _, rfl⟩ := first
  obtain ⟨gaps, merged, rfl⟩ := second
  exact ⟨gaps, merged, by simp only [Nat.mod_add_mod, Nat.add_assoc]⟩

theorem advancedBy_gapReport (D : Nat) (holes : Bool) (n : Nat) (u : Take) : AdvancedBy D n u (gapReport D holes n u) := by
  rw [gapReport_eq]
  generalize (if holes = false then n else _) = count
  obtain ⟨gaps, merged, inserted⟩ := insertRun_eq D u.next count u
  exact ⟨gaps, merged, by rw [inserted]⟩

theorem accountSlot_slot {s : State} {i : Fin 3} {u : Take} (fuel : Nat) (holds : s.takes.slots[i] = some u) (inDay : u.next < s.day) :
    ∃ v m, (accountSlot i fuel s).takes.slots[i] = some v ∧ AdvancedBy s.day m u v := by
  induction fuel generalizing s u with
  | zero => exact ⟨u, 0, holds, .refl inDay⟩
  | succ fuel ih =>
    rw [accountSlot]
    cases dueReport s i with
    | none => exact ⟨u, 0, holds, .refl inDay⟩
    | some report =>
      obtain ⟨holes, n⟩ := report
      have reported : (modifySlot i (gapReport s.day holes n) s).takes.slots[i] = some (gapReport s.day holes n u) := by
        rw [modifySlot_slots, if_pos rfl, holds]; rfl
      have day : (modifySlot i (gapReport s.day holes n) s).day = s.day := by simp only [State.day, modifySlot_frame]
      have moved : (gapReport s.day holes n u).next < s.day := Nat.mod_lt _ (Nat.zero_lt_of_lt inDay)
      obtain ⟨v, m, held, advanced⟩ := ih reported (day.symm ▸ moved)
      rw [day] at advanced
      exact ⟨v, n + m, held, (advancedBy_gapReport _ _ _ _).trans advanced⟩

/-- The report that is due for a slot is made before any other of that slot. -/
theorem accountSlot_slot_of_due {s : State} {i : Fin 3} {u : Take} {holes : Bool} {n : Nat} (fuel : Nat)
    (holds : s.takes.slots[i] = some u) (inDay : u.next < s.day) (due : dueReport s i = some (holes, n)) :
    ∃ v m, (accountSlot i (fuel + 1) s).takes.slots[i] = some v ∧ n ≤ m ∧ AdvancedBy s.day m u v := by
  have reported : (modifySlot i (gapReport s.day holes n) s).takes.slots[i] = some (gapReport s.day holes n u) := by
    rw [modifySlot_slots, if_pos rfl, holds]; rfl
  have day : (modifySlot i (gapReport s.day holes n) s).day = s.day := by simp only [State.day, modifySlot_frame]
  have moved : (gapReport s.day holes n u).next < s.day := Nat.mod_lt _ (Nat.zero_lt_of_lt inDay)
  obtain ⟨v, m, held, advanced⟩ := accountSlot_slot fuel reported (day.symm ▸ moved)
  rw [day] at advanced
  rw [accountSlot, due]
  exact ⟨v, n + m, held, Nat.le_add_right n m, (advancedBy_gapReport _ _ _ _).trans advanced⟩

/-- The reports due for a slot depend on its take, the ring, the newest position and the writer alone. -/
theorem dueReport_congr {s t : State} {i : Fin 3} (slot : t.takes.slots[i] = s.takes.slots[i]) (ring : t.ring = s.ring)
    (counter : t.counter = s.counter) (writer : t.writer = s.writer) : dueReport t i = dueReport s i := by
  have day : t.day = s.day := by rw [State.day, counter]; rfl
  have answer (p : Nat) : ringAnswer t p = ringAnswer s p := by simp only [ringAnswer, heldAt, ring, counter, day]
  have full : cardFull t = cardFull s := cardFull_of_writer writer
  have flight : audioInFlight t i = audioInFlight s i := by rw [audioInFlight, writer]; rfl
  have outstanding : audioOutstanding t i = audioOutstanding s i := by rw [audioOutstanding, flight, writer]; rfl
  have look (p : Nat) : lookup .afterFrame t p = lookup .afterFrame s p := by
    simp only [lookup, firstUnseen, fromUpToNewest, ring, counter, day]
  simp only [dueReport, slot, answer, full, flight, outstanding, look, ring, day]

end Sys2Proof.Proofs
end

section
/-! PROOFS. The accounts of an event slot by slot, and what a gap report covers (O42). -/

namespace Sys2Proof.Proofs

open Sys2Proof Sys2Proof.Machine Sys2Proof.Safety

/-! ### The accounts of each slot stand for themselves (R160) -/

theorem accountSlot_slot_congr {s t : State} {i : Fin 3} (fuel : Nat) (slot : t.takes.slots[i] = s.takes.slots[i])
    (ring : t.ring = s.ring) (counter : t.counter = s.counter) (writer : t.writer = s.writer) :
    (accountSlot i fuel t).takes.slots[i] = (accountSlot i fuel s).takes.slots[i] := by
  induction fuel generalizing s t with
  | zero => exact slot
  | succ fuel ih =>
    rw [accountSlot, accountSlot, dueReport_congr slot ring counter writer]
    cases dueReport s i with
    | none => exact slot
    | some report =>
      have day : t.day = s.day := by rw [State.day, counter]; rfl
      apply ih
      · rw [modifySlot_slots, modifySlot_slots, slot, day]
      all_goals simp only [modifySlot_frame, ring, counter, writer]

theorem accountAll_slot (s : State) (i : Fin 3) :
    (accountAll s).takes.slots[i] = (accountSlot i (accountFuel s) s).takes.slots[i] := by
  rw [accountAll]
  generalize accountFuel s = fuel
  match i with
  | 0 => rw [accountSlot_slot_of_ne (by decide), accountSlot_slot_of_ne (by decide)]
  | 1 =>
    rw [accountSlot_slot_of_ne (by decide)]
    apply accountSlot_slot_congr fuel (accountSlot_slot_of_ne (by decide) fuel s) <;> simp only [accountSlot_frame]
  | 2 =>
    have others := (accountSlot_slot_of_ne (i := 2) (j := 1) (by decide) fuel _).trans
      (accountSlot_slot_of_ne (j := 0) (by decide) fuel s)
    apply accountSlot_slot_congr fuel others <;> simp only [accountSlot_frame]

theorem accountAll_slot_of_due {s : State} {i : Fin 3} {u : Take} {holes : Bool} {n : Nat} (holds : s.takes.slots[i] = some u)
    (inDay : u.next < s.day) (due : dueReport s i = some (holes, n)) :
    ∃ v m, (accountAll s).takes.slots[i] = some v ∧ n ≤ m ∧ AdvancedBy s.day m u v := by
  rw [accountAll_slot]
  exact accountSlot_slot_of_due _ holds inDay due

theorem accountSlot_of_none {s : State} {i : Fin 3} (fuel : Nat) (none_due : dueReport s i = none) : accountSlot i fuel s = s := by
  cases fuel with
  | zero => rfl
  | succ fuel => rw [accountSlot, none_due]

theorem accountAll_of_none {s : State} (none_due : ∀ j, dueReport s j = none) : accountAll s = s := by
  rw [accountAll, accountSlot_of_none _ (none_due 0), accountSlot_of_none _ (none_due 1), accountSlot_of_none _ (none_due 2)]

/-! ### How far a report runs (R47, R48, R160) -/

section

variable {s : State} {u : Take} (inDay : u.next < s.day)

include inDay

theorem place_eq (q : Nat) : (q + (s.day - u.next)) % s.day = posSub s.day q u.next := by
  rw [posSub, Nat.mod_eq_of_lt inDay]

variable (arrived : isLater s.day u.next s.counter.newest = false)

include arrived

/-- Holes before a held frame in reach run up to that frame. -/
theorem holes_to_frame {older newer : List RingFrame} {f : RingFrame} (frames : s.ring.frames = older ++ f :: newer)
    (before : ∀ g ∈ older, fromUpToNewest s u.next g.pos = false) (reach : fromUpToNewest s u.next f.pos = true) :
    countAfter s.day u.next (headOf .afterFrame s u.next).2 = posSub s.day f.pos u.next := by
  have day : 0 < s.day := Nat.zero_lt_of_lt inDay
  have found : s.ring.frames.find? (fun g => fromUpToNewest s u.next g.pos) = some f :=
    List.find?_eq_some_iff_append.mpr ⟨reach, older, newer, frames, fun g member => by rw [before g member]; rfl⟩
  have half := place_of_not_later day arrived
  have close : posSub s.day f.pos u.next ≤ posSub s.day s.counter.newest u.next := of_decide_eq_true reach
  rw [headOf_of_held arrived .afterFrame found]
  show countAfter s.day u.next f.pos = _
  exact countAfter_of_place day (by omega)

/-- Holes with no held frame in reach run up to the newest position. -/
theorem holes_to_newest (none_held : ∀ g ∈ s.ring.frames, fromUpToNewest s u.next g.pos = false) :
    countAfter s.day u.next (headOf .afterFrame s u.next).2 = posSub s.day s.counter.newest u.next + 1 := by
  have missing : s.ring.frames.find? (fun g => fromUpToNewest s u.next g.pos) = none :=
    List.find?_eq_none.mpr fun g member => Bool.eq_false_iff.mp (none_held g member)
  obtain ⟨place, half⟩ := place_firstUnseen arrived .afterFrame
  rw [headOf_of_none arrived .afterFrame missing]
  exact (countAfter_of_place (Nat.zero_lt_of_lt inDay) half).trans place

end

/-- A run of held frames, with no frame at the position after it, is counted whole. -/
theorem heldRun_of_run {D p : Nat} (inDay : p < D) {older run newer : List RingFrame} (some_held : run ≠ [])
    (before : ∀ g ∈ older, g.pos ≠ p) (consecutive : Consecutive D p run)
    (missing : ∀ f, newer.head? = some f → f.pos ≠ (p + run.length) % D) :
    heldRun D p (framesFrom p (older ++ run ++ newer)) = run.length := by
  rw [framesFrom_of_run inDay some_held before consecutive, heldRun_append inDay newer consecutive, heldRun_of_missing missing,
    Nat.add_zero]

/-- The first frame of a run of held frames stands at its first position. -/
theorem held_of_run {D p : Nat} (inDay : p < D) {older run newer frames : List RingFrame} (split : frames = older ++ run ++ newer)
    (some_held : run ≠ []) (consecutive : Consecutive D p run) : ∃ f ∈ frames, f.pos = p := by
  cases run with
  | nil => exact absurd rfl some_held
  | cons f rest =>
    refine ⟨f, ?_, ((consecutive_cons inDay).mp consecutive).1⟩
    rw [split]
    exact List.mem_append_left newer (List.mem_append_right older List.mem_cons_self)

/-! ### A run that makes a ready block (R159) -/

section

variable {s : State} {u : Take} {older run newer : List RingFrame} (inDay : u.next < s.day)
  (frames : s.ring.frames = older ++ run ++ newer) (some_held : run ≠ [])
  (notPast : ∀ z, u.z = some z → u.next ≠ (z + 1) % s.day) (before : ∀ g ∈ older, g.pos ≠ u.next)
  (consecutive : Consecutive s.day u.next run) (stop : UpToStop u.z run)

include inDay frames some_held notPast before consecutive stop

theorem readyBlock_of_whole
    (whole : run.length = blockCapacity s ∨
      (run.length < blockCapacity s ∧ ∃ z, u.z = some z ∧ (u.next + (run.length - 1)) % s.day = z)) :
    readyBlock s u = some run := by
  have taken : takeRun s.day u.z (blockCapacity s) u.next (framesFrom u.next s.ring.frames) = (run, none) := by
    rw [frames, framesFrom_of_run inDay some_held before consecutive]
    exact takeRun_of_whole inDay consecutive newer some_held stop
      (whole.imp_right fun ⟨short, z, hz, last⟩ => ⟨short, z, hz, List.length_pos_iff.mpr some_held, last⟩)
  rw [readyBlock_of_taken notPast taken]
  simp [some_held]

theorem readyBlock_of_short (short : run.length < blockCapacity s)
    (notEnd : ¬∃ z, u.z = some z ∧ (u.next + (run.length - 1)) % s.day = z)
    (missing : ∀ f, newer.head? = some f → f.pos ≠ (u.next + run.length) % s.day) :
    readyBlock s u =
      if isLater s.day ((u.next + run.length) % s.day) s.counter.newest = true then none else some run := by
  have beforeStop : ∀ f ∈ run, u.z ≠ some f.pos := fun f member hz => by
    obtain ⟨k, at_k⟩ := List.mem_iff_getElem?.mp member
    have last := stop f.pos hz k f at_k rfl
    refine notEnd ⟨f.pos, hz, ?_⟩
    rw [← last]
    exact (consecutive k f at_k).symm
  have taken : takeRun s.day u.z (blockCapacity s) u.next (framesFrom u.next s.ring.frames) =
      (run, some ((u.next + run.length) % s.day)) := by
    rw [frames, framesFrom_of_run inDay some_held before consecutive]
    exact takeRun_of_short inDay consecutive newer short beforeStop missing
  rw [readyBlock_of_taken notPast taken]
  simp [some_held]

end

/-- Settles O42: a block and a report of held frames take the run of consecutive held frames, a report of holes runs where the
lookup leads, and each report advances its take by its length. -/
theorem blocksAndGapReportsFollowTheRing : Obligations.BlocksAndGapReportsFollowTheRing := by
  refine ⟨fun s u frames inDay ready => ?_, wordCount_eq,
    fun s u inDay => ⟨fun z => readyBlock_of_past, readyBlock_of_unheld, ?_⟩, fun s i u holds inDay => ?_⟩
  · obtain ⟨some_held, missing, taken, arrived⟩ := readyBlock_eq_some inDay ready
    refine ⟨List.length_pos_iff.mpr some_held, taken.length, fun f member => List.dropWhile_subset _ (taken.members f member),
      taken.consecutive, taken.stop, fun short => ?_⟩
    cases missing with
    | none =>
      rcases taken.whole rfl with full | ⟨z, stop, -, last⟩
      · exact absurd full short.ne
      · exact .inl ⟨z, stop, last⟩
    | some q => exact .inr (taken.missing q rfl ▸ arrived q rfl)
  · intro older run newer frames some_held notPast before consecutive stop
    exact ⟨readyBlock_of_whole inDay frames some_held notPast before consecutive stop,
      readyBlock_of_short inDay frames some_held notPast before consecutive stop⟩
  · intro held offset inReach cut due
    have cut_eq (n : Nat) : upToEnd s.day u n = cut n := by
      show _ = (match u.z with | none => n | some z => min n (countTo s.day u.next z))
      rw [upToEnd]
      cases u.z <;> rfl
    have reach_iff (g : RingFrame) : inReach g ↔ fromUpToNewest s u.next g.pos = true := by
      show offset g.pos ≤ offset s.counter.newest ↔ _
      rw [fromUpToNewest, decide_eq_true_iff, ← place_eq inDay, ← place_eq inDay]
    refine ⟨dueReport_of_notArrived holds, fun here busy => ?_, fun unheld busy => ?_, fun unheld arrived free => ⟨?_, ?_⟩, ?_,
      fun holes n reported => ?_, fun holes n => gapReport_eq _ _ _ _, accountAll_of_none⟩
    · rw [dueReport_of_frames holds here]
      rcases busy with room | flight
      · rw [room]; rfl
      · rw [flight, Bool.not_true, Bool.and_false]; rfl
    · cases ahead : isLater s.day u.next s.counter.newest with
      | true => exact dueReport_of_notArrived holds unheld ahead
      | false => rw [dueReport_of_holes holds unheld ahead, if_pos busy]
    · intro older newer f frames before reach
      have run := holes_to_frame inDay arrived frames
        (fun g member => Bool.eq_false_iff.mpr fun h => before g member ((reach_iff g).mpr h)) ((reach_iff f).mp reach)
      show dueReport s i = _
      rw [dueReport_of_holes holds unheld arrived, free, if_neg Bool.false_ne_true, run, ← place_eq inDay, cut_eq]
    · intro none_held
      have run := holes_to_newest inDay arrived fun g member =>
        Bool.eq_false_iff.mpr fun h => none_held g member ((reach_iff g).mpr h)
      show dueReport s i = _
      rw [dueReport_of_holes holds unheld arrived, free, if_neg Bool.false_ne_true, run, ← place_eq inDay, cut_eq]
    · intro full free older run newer frames some_held before consecutive missing
      have counted := heldRun_of_run inDay some_held before consecutive missing
      show dueReport s i = _
      rw [dueReport_of_frames holds (held_of_run inDay frames some_held consecutive), full, free, Bool.not_false,
        Bool.and_self, if_pos rfl, frames, counted, cut_eq]
    · obtain ⟨v, m, held', enough, gaps, merged, rfl⟩ := accountAll_slot_of_due holds inDay reported
      exact ⟨_, m, held', enough, rfl, rfl, rfl, rfl, rfl, rfl, rfl, rfl⟩

end Sys2Proof.Proofs
end

section
/-! PROOFS. The end of an event in the writer, and the cursor that advances at a completion, with what entering NEAR FULL and FULL
brings to the takes (R79, R157, R158, R164, R174). -/

namespace Sys2Proof.Proofs

open Sys2Proof Sys2Proof.Machine Sys2Proof.Safety

/-! ### The writer at the end of an event (R164, R174) -/

/-- Of the writer a dropped block changes the held content alone. -/
theorem dropHeldAudio_writer (s : State) : ∃ held, (dropHeldAudio s).writer = { s.writer with held := held } := by
  unfold dropHeldAudio
  repeat' split
  all_goals exact ⟨_, rfl⟩

theorem dropHeldAudio_held_of_room {s : State} (room : cardFull s = false) : (dropHeldAudio s).writer.held = s.writer.held := by
  unfold dropHeldAudio
  split
  · rw [room]; rfl
  · rfl

theorem dropHeldAudio_held_of_other {s : State} (other : ∀ x i, s.writer.held = some x → isAudioOf i x = false) :
    (dropHeldAudio s).writer.held = s.writer.held := by
  unfold dropHeldAudio
  split
  case h_1 slot _ _ _ _ _ held => cases (other _ slot held).symm.trans (beq_self_eq_true slot)
  case h_2 => rfl

theorem dropHeldAudio_held_of_audio {s : State} {x : Content} {i : Fin 3} (full : cardFull s = true)
    (held : s.writer.held = some x) (audio : isAudioOf i x = true) : (dropHeldAudio s).writer.held = none := by
  cases x with
  | audio => unfold dropHeldAudio; rw [held]; dsimp only; rw [if_pos full]
  | index => cases audio
  | notes => cases audio
  | fault => cases audio

theorem settle_writer_of_run {s : State} (run : s.port.phase = .run) : (settle s).writer = (dropHeldAudio s).writer := by
  rw [settle, if_pos (inRun_of_run run)]
  simp only [accountAll_frame]

/-- In RUN the end of an event drops held content where it must, and decides: nothing, or a first write of a content that the space
state allows, at the cursor of a free writer in NORMAL. -/
theorem finish_flight (before : State) {after : State} (run : after.port.phase = .run) :
    (finish before after).writer = (dropHeldAudio after).writer ∨
      ∃ c x, after.writer.capture = .normal ∧ after.writer.inFlight = none ∧ spaceAllows after x = true ∧
        (finish before after).writer = { (dropHeldAudio after).writer with inFlight := some (firstWrite c x) } := by
  have decided := makeDecision_flight (announceChange before (settle after))
  simp only [announceChange_frame, settle_writer_of_run run] at decided
  obtain ⟨held, dropped⟩ := dropHeldAudio_writer after
  rcases decided with same | ⟨c, x, -, normal, free, -, allowed, flight⟩
  · exact .inl same
  · rw [dropped] at normal free
    refine .inr ⟨c, x, normal, free, ?_, flight⟩
    have space : (announceChange before (settle after)).writer.space = after.writer.space := by
      simp only [announceChange_frame, settle_writer_of_run run, dropped]
    rw [spaceAllows_iff, space, ← spaceAllows_iff] at allowed
    exact allowed

section

variable (before : State) {after : State} (run : after.port.phase = .run)

include run

theorem finish_writer_fields :
    ∃ held flight, (finish before after).writer = { after.writer with held := held, inFlight := flight } := by
  obtain ⟨held, dropped⟩ := dropHeldAudio_writer after
  rcases finish_flight before run with same | ⟨c, x, -, -, -, flight⟩
  · exact ⟨held, after.writer.inFlight, same.trans dropped⟩
  · exact ⟨held, some (firstWrite c x), by rw [flight, dropped]⟩

theorem finish_held : (finish before after).writer.held = (dropHeldAudio after).writer.held := by
  rcases finish_flight before run with same | ⟨c, x, -, -, -, flight⟩
  · rw [same]
  · rw [flight]

theorem finish_inFlight_of_busy {y : Write} (busy : after.writer.inFlight = some y) :
    (finish before after).writer.inFlight = some y := by
  rcases finish_flight before run with same | ⟨-, -, -, free, -⟩
  · obtain ⟨held, dropped⟩ := dropHeldAudio_writer after
    rw [same, dropped]
    exact busy
  · cases busy.symm.trans free

theorem finish_inFlight_of_idle (free : after.writer.inFlight = none)
    (idle : after.writer.capture ≠ .normal ∨ after.writer.space = some .exhausted) :
    (finish before after).writer.inFlight = none := by
  rcases finish_flight before run with same | ⟨c, x, normal, -, allowed, -⟩
  · obtain ⟨held, dropped⟩ := dropHeldAudio_writer after
    rw [same, dropped]
    exact free
  · rcases idle with unable | exhausted
    · exact absurd normal unable
    · exact absurd exhausted (not_exhausted_of_spaceAllows allowed)

/-- On a FULL card a decision of a free writer issues a first write of no audio block. -/
theorem finish_inFlight_of_full (free : after.writer.inFlight = none) (full : cardFull after = true) :
    ∀ y, (finish before after).writer.inFlight = some y → y.attempt = .first ∧ ∀ i, isAudioOf i y.content = false := by
  intro y flight
  rcases finish_flight before run with same | ⟨c, x, -, -, allowed, issued⟩
  · obtain ⟨held, dropped⟩ := dropHeldAudio_writer after
    rw [same, dropped] at flight
    cases free.symm.trans flight
  · rw [issued] at flight
    cases flight
    refine ⟨rfl, fun i => ?_⟩
    rcases (spaceAllows_iff after x).mp allowed with ample | nearFull | ⟨-, other⟩
    · rw [cardFull, ample] at full; cases full
    · rw [cardFull, nearFull] at full; cases full
    · exact other i

end

/-- With a write in flight the end of an event leaves the notes. -/
theorem finish_store_of_busy (before : State) {after : State} {y : Write} (busy : after.writer.inFlight = some y) :
    (finish before after).store = after.store := by
  have held : (announceChange before (settle after)).writer.inFlight = some y := by
    obtain ⟨held, settled⟩ := settle_writer after
    simp only [announceChange_frame, settled, busy]
  rcases makeDecision_cases (announceChange before (settle after)) with same | ⟨r, may, -, -⟩
  · rw [finish, same]
    simp only [announceChange_frame, settle_frame]
  · obtain ⟨-, -, free, -⟩ := (mayIssue_iff _).mp may
    cases held.symm.trans free

/-! ### The forced stop of the open take (R79) -/

/-- The open take as the forced stop leaves it. -/
def stoppedTake (s : State) (u : Take) : Take :=
  if u.phase = .rolling then
    { u with
      phase := .closing, e := some s.counter.newest, z := some s.counter.newest, postRoll := 0
      flags := { u.flags with forcedStop := true } }
  else
    { u with
      phase := .closing, z := some s.counter.newest, postRoll := countAfter s.day (u.e.getD u.sr) s.counter.newest
      flags := { u.flags with forcedStop := true } }

theorem forcedStop_of_open {s : State} {i : Fin 3} {u : Take} (isOpenSlot : openSlot s = some i) (holds : s.takes.slots[i] = some u) :
    forcedStop s = dropPending (closeSlot i (stoppedTake s u) s) := by
  unfold forcedStop stoppedTake
  rw [isOpenSlot]
  dsimp only
  rw [holds]
  dsimp only
  split_ifs <;> rfl

theorem forcedStop_of_none {s : State} (noOpen : openSlot s = none) : forcedStop s = dropPending s := by
  unfold forcedStop
  rw [noOpen]
  rfl

theorem forcedStop_pendingStart (s : State) : (forcedStop s).takes.pendingStart = none := by
  unfold forcedStop
  rfl

/-- What a forced stop can change of a take, and nothing of one in CLOSING. -/
def StoppedFrom (u v : Take) : Prop :=
  v = u ∨ (u.phase ≠ .closing ∧
    ∃ phase e z postRoll flags, v = { u with phase := phase, e := e, z := z, postRoll := postRoll, flags := flags })

theorem stoppedFrom_stoppedTake (s : State) {u : Take} (notClosing : u.phase ≠ .closing) : StoppedFrom u (stoppedTake s u) := by
  refine .inr ⟨notClosing, ?_⟩
  unfold stoppedTake
  split
  · exact ⟨_, _, _, _, _, rfl⟩
  · exact ⟨_, u.e, _, _, _, rfl⟩

/-- The take of a slot after a forced stop is the former one, or it is the open take stopped. -/
theorem forcedStop_slot {s : State} {i : Fin 3} {u : Take} (holds : s.takes.slots[i] = some u) :
    ∃ v, (forcedStop s).takes.slots[i] = some v ∧ StoppedFrom u v := by
  cases isOpenSlot : openSlot s with
  | none => exact ⟨u, by rw [forcedStop_of_none isOpenSlot]; exact holds, .inl rfl⟩
  | some j =>
    obtain ⟨x, open_holds, notClosing⟩ := openSlot_holds isOpenSlot
    rw [forcedStop_of_open isOpenSlot open_holds]
    by_cases here : j = i
    · subst here
      cases holds.symm.trans open_holds
      refine ⟨{ stoppedTake s u with phase := .closing }, (closeSlot_slots j j _ s).trans (if_pos rfl), ?_⟩
      have closed : { stoppedTake s u with phase := .closing } = stoppedTake s u := by
        unfold stoppedTake
        split <;> rfl
      rw [closed]
      exact stoppedFrom_stoppedTake s notClosing
    · exact ⟨u, ((closeSlot_slots j i _ s).trans (if_neg here)).trans holds, .inl rfl⟩

/-- A forced stop reads the take engine and the counter alone. -/
theorem forcedStop_takes_congr {s t : State} (takes : t.takes = s.takes) (counter : t.counter = s.counter) :
    (forcedStop t).takes = (forcedStop s).takes := by
  have isOpenSlot : openSlot t = openSlot s := openSlot_congr fun i => by rw [takes]
  cases found : openSlot s with
  | none => rw [forcedStop_of_none found, forcedStop_of_none (isOpenSlot.trans found)]; simp only [dropPending, takes]
  | some i =>
    obtain ⟨u, holds, -⟩ := openSlot_holds found
    have stopped : stoppedTake t u = stoppedTake s u := by simp only [stoppedTake, State.day, counter]
    rw [forcedStop_of_open found holds, forcedStop_of_open (isOpenSlot.trans found) (by rw [takes]; exact holds), stopped]
    simp only [dropPending, closeSlot, setSlot, takes]

end Sys2Proof.Proofs
end

section
/-! PROOFS. What a completion brings as the card nears its end: the notices, the forced stop and the accounts of the held frames
that will not be written (R79, R158, R160, R174). -/

namespace Sys2Proof.Proofs

open Sys2Proof Sys2Proof.Machine Sys2Proof.Safety

/-! ### The cursor's advance (R157, R158, R79) -/

/-- The station with its cursor here and this many blocks left, before what a new space state brings. -/
def cursorAt (c left : Nat) (s : State) : State :=
  { s with writer := { s.writer with cursor := some c, space := some (spaceOf left) } }

theorem isPending_forcedStop (k : Notice) (s : State) : isPending k (forcedStop s) = isPending k s :=
  isPending_of_notices (by simp only [forcedStop_frame])

section

variable {s : State} {a b c : Nat} (range : s.writer.range = some (a, b)) (cursor : s.writer.cursor = some c)

include range cursor

theorem advanceCursor_eq :
    advanceCursor s =
      if s.writer.space = some (spaceOf (b - c)) then cursorAt (c + 1) (b - c) s
      else
        match spaceOf (b - c) with
        | .nearFull => raise .nearFull (cursorAt (c + 1) (b - c) s)
        | .full => forcedStop (raise .full (cursorAt (c + 1) (b - c) s))
        | _ => cursorAt (c + 1) (b - c) s := by
  have left : remaining { s with writer := { s.writer with cursor := some (c + 1) } } = some (b - c) := by
    rw [← Nat.add_sub_add_right b 1 c]
    exact remaining_of_card range rfl
  rw [advanceCursor, cursor, setSpace, Option.map_some, left]
  rfl

/-- The advance sets cursor and space state, and besides raises NEAR FULL, or raises FULL and force-stops. -/
theorem advanceCursor_cases :
    advanceCursor s = cursorAt (c + 1) (b - c) s ∨ advanceCursor s = raise .nearFull (cursorAt (c + 1) (b - c) s) ∨
      (spaceOf (b - c) = .full ∧ advanceCursor s = forcedStop (raise .full (cursorAt (c + 1) (b - c) s))) := by
  rw [advanceCursor_eq range cursor]
  split
  · exact .inl rfl
  · cases space : spaceOf (b - c) with
    | ample => exact .inl rfl
    | nearFull => exact .inr (.inl rfl)
    | full => exact .inr (.inr ⟨rfl, rfl⟩)
    | exhausted => exact .inl rfl

theorem advanceCursor_to_nearFull (former : s.writer.space = some .ample) (above : 64 < b - c) (below : b - c ≤ 2048) :
    advanceCursor s = raise .nearFull (cursorAt (c + 1) (b - c) s) := by
  have space : spaceOf (b - c) = .nearFull := by
    unfold spaceOf
    rw [if_neg (Nat.ne_of_gt (Nat.zero_lt_of_lt above)), if_neg (Nat.not_le.mpr above : ¬b - c ≤ Config.fullBlocks)]
    exact if_pos below
  rw [advanceCursor_eq range cursor, space, former]
  rfl

theorem advanceCursor_to_full (former : s.writer.space = some .nearFull) (some_left : 0 < b - c) (reserve : b - c ≤ 64) :
    advanceCursor s = forcedStop (raise .full (cursorAt (c + 1) (b - c) s)) := by
  rw [advanceCursor_eq range cursor, spaceOf_of_reserve some_left reserve, former]
  rfl

/-- Above the reserve the advance leaves the takes. -/
theorem advanceCursor_takes_of_left (above : 64 < b - c) : (advanceCursor s).takes = s.takes := by
  rcases advanceCursor_cases range cursor with same | nearFull | ⟨full, -⟩
  · rw [same]; rfl
  · rw [nearFull]; rfl
  · rcases spaceOf_of_left above with ample | nearFull
    · cases full.symm.trans ample
    · cases full.symm.trans nearFull

theorem advanceCursor_slot {i : Fin 3} {u : Take} (holds : s.takes.slots[i] = some u) :
    ∃ v, (advanceCursor s).takes.slots[i] = some v ∧ StoppedFrom u v := by
  rcases advanceCursor_cases range cursor with same | nearFull | ⟨-, full⟩
  · exact ⟨u, by rw [same]; exact holds, .inl rfl⟩
  · exact ⟨u, by rw [nearFull]; exact holds, .inl rfl⟩
  · rw [full]
    exact forcedStop_slot (s := raise .full (cursorAt (c + 1) (b - c) s)) holds

/-- Of the notices the advance raises NEAR FULL and FULL alone. -/
theorem isPending_advanceCursor {k : Notice} (notNearFull : k ≠ .nearFull) (notFull : k ≠ .full) :
    isPending k (advanceCursor s) = isPending k s := by
  have raised (j : Notice) (other : k ≠ j) : isPending k (raise j (cursorAt (c + 1) (b - c) s)) = isPending k s := by
    rw [isPending_raise, decide_eq_false other, Bool.or_false]
    rfl
  rcases advanceCursor_cases range cursor with same | nearFull | ⟨-, full⟩
  · rw [same]; rfl
  · rw [nearFull]; exact raised _ notNearFull
  · rw [full, isPending_forcedStop]; exact raised _ notFull

end

theorem cardFull_of_space {s : State} {left : Nat} (space : s.writer.space = some (spaceOf left)) :
    cardFull s = true ↔ left ≤ 64 := by
  rw [cardFull, space]
  rcases Nat.lt_or_ge 64 left with above | reserve
  · rcases spaceOf_of_left above with ample | nearFull
    · rw [ample]; simp [above]
    · rw [nearFull]; simp [above]
  · rcases Nat.eq_zero_or_pos left with none_left | some_left
    · rw [none_left, spaceOf_zero]; simp
    · rw [spaceOf_of_reserve some_left reserve]; simp [reserve]

/-! ### The stopped take -/

section

variable (s : State) (u : Take)

/-- The forced stop sets the end of a take and its flag, and leaves what names the take. -/
theorem stoppedTake_fields :
    (stoppedTake s u).phase = .closing ∧ (stoppedTake s u).z = some s.counter.newest ∧
      (stoppedTake s u).flags = { u.flags with forcedStop := true } ∧ (stoppedTake s u).label = u.label ∧
      (stoppedTake s u).sr = u.sr ∧ (stoppedTake s u).serial = u.serial ∧ (stoppedTake s u).identity = u.identity := by
  unfold stoppedTake
  split
  · exact ⟨rfl, rfl, rfl, rfl, rfl, rfl, rfl⟩
  · exact ⟨rfl, rfl, rfl, rfl, rfl, rfl, rfl⟩

variable {s u}

theorem stoppedTake_of_rolling (rolling : u.phase = .rolling) :
    (stoppedTake s u).e = some s.counter.newest ∧ (stoppedTake s u).postRoll = 0 := by
  rw [stoppedTake, if_pos rolling]
  exact ⟨rfl, rfl⟩

theorem stoppedTake_of_post {e : Nat} (post : u.phase = .post) (stop : u.e = some e) :
    (stoppedTake s u).e = some e ∧ (stoppedTake s u).postRoll = countAfter s.day e s.counter.newest := by
  rw [stoppedTake, if_neg (by rw [post]; decide)]
  exact ⟨stop, by rw [stop]; rfl⟩

end

/-! ### From the cursor's advance to the end of the completion -/

/-- Take v is u with the report of a written block. -/
def WrittenFrom (u v : Take) : Prop :=
  ∃ next w blocks firstBlock tracks,
    v = { u with next := next, w := w, blocks := blocks, firstBlock := firstBlock, tracks := tracks }

/-- What a completion leaves as the cursor's advance left it, once this content has been written: the notices, what follows a
closed take, the takes but for the written one's report or removal, and on a full card no audio block in flight. -/
structure AfterAdvance (done : Option Content) (x t : State) : Prop where
  blocks : t.port = x.port ∧ t.counter = x.counter ∧ t.ring = x.ring
  notices : NoticesGrow x.notices t.notices
  engine : x.takes.pendingStart = none →
    t.takes.pendingStart = none ∧ t.takes.scene = x.takes.scene ∧ t.takes.nextTake = x.takes.nextTake ∧
      t.takes.closed = x.takes.closed
  written : ∀ (i : Fin 3) (u : Take), x.takes.slots[i] = some u → (∀ words r, done ≠ some (.index i words r)) →
    ∃ v, t.takes.slots[i] = some v ∧ WrittenFrom u v
  untouched : ∀ (i : Fin 3) (u : Take), x.takes.slots[i] = some u →
    (∀ y, done = some y → isAudioOf i y = false ∧ ∀ words r, y ≠ .index i words r) → t.takes.slots[i] = some u
  space : t.writer.space = x.writer.space
  flight : cardFull x = true → ∀ y, t.writer.inFlight = some y → ∀ i, isAudioOf i y.content = false

theorem WrittenFrom.refl (u : Take) : WrittenFrom u u := ⟨u.next, u.w, u.blocks, u.firstBlock, u.tracks, rfl⟩

theorem afterAdvance_refl (done : Option Content) {x : State} (free : x.writer.inFlight = none) : AfterAdvance done x x where
  blocks := ⟨rfl, rfl, rfl⟩
  notices := .refl _
  engine noStart := ⟨noStart, rfl, rfl, rfl⟩
  written _ u holds _ := ⟨u, holds, .refl u⟩
  untouched _ _ holds _ := holds
  space := rfl
  flight _ y busy := by cases free.symm.trans busy

/-- What changes no take and no space state, and issues no audio block on a full card, keeps what the advance left. -/
theorem AfterAdvance.of_takes {done : Option Content} {x t t' : State} (h : AfterAdvance done x t)
    (blocks : t'.port = t.port ∧ t'.counter = t.counter ∧ t'.ring = t.ring) (notices : NoticesGrow t.notices t'.notices)
    (takes : t'.takes = t.takes) (space : t'.writer.space = t.writer.space)
    (flight : cardFull t = true → ∀ y, t'.writer.inFlight = some y →
      t.writer.inFlight = some y ∨ ∀ i, isAudioOf i y.content = false) :
    AfterAdvance done x t' where
  blocks := by
    obtain ⟨port, counter, ring⟩ := blocks
    obtain ⟨port', counter', ring'⟩ := h.blocks
    exact ⟨port.trans port', counter.trans counter', ring.trans ring'⟩
  notices k pending := notices k (h.notices k pending)
  engine noStart := by rw [takes]; exact h.engine noStart
  written i u holds other := by rw [takes]; exact h.written i u holds other
  untouched i u holds other := by rw [takes]; exact h.untouched i u holds other
  space := space.trans h.space
  flight full y busy := by
    have same : cardFull t = true := by rw [cardFull, h.space]; exact full
    exact (flight same y busy).elim (h.flight full y) id

theorem afterAdvance_contentWritten (addr : Nat) (content : Content) {x : State} (free : x.writer.inFlight = none) :
    AfterAdvance (some content) x (contentWritten addr content x) := by
  obtain ⟨space, idle⟩ : (contentWritten addr content x).writer.space = x.writer.space ∧
      (contentWritten addr content x).writer.inFlight = none := by
    cases content <;> simp [contentWritten, clearListed, free]
  have blocks : (contentWritten addr content x).port = x.port ∧ (contentWritten addr content x).counter = x.counter ∧
      (contentWritten addr content x).ring = x.ring := by
    simp only [contentWritten_frame, and_self]
  have flight : cardFull x = true → ∀ y, (contentWritten addr content x).writer.inFlight = some y →
      ∀ i, isAudioOf i y.content = false := fun _ y busy => by cases idle.symm.trans busy
  cases content with
  | notes l =>
    exact (afterAdvance_refl _ free).of_takes blocks (.refl _) rfl space fun _ y busy => by cases idle.symm.trans busy
  | fault addrs n =>
    exact (afterAdvance_refl _ free).of_takes blocks (.refl _) rfl space fun _ y busy => by cases idle.symm.trans busy
  | audio j words serial first seq frames =>
    have takes := slotsAlone_modifySlot j (writtenReport x.day addr frames) x
    refine ⟨blocks, ?_, fun noStart => ?_, fun i u holds _ => ?_, fun i u holds other => ?_, space, flight⟩
    · rw [show (contentWritten addr (.audio j words serial first seq frames) x).notices = x.notices by
        simp only [contentWritten, modifySlot_frame]]
      exact .refl _
    · obtain ⟨slots, same⟩ := takes
      rw [contentWritten, same]
      exact ⟨noStart, rfl, rfl, rfl⟩
    · rw [contentWritten, modifySlot_slots, holds]
      split
      · exact ⟨_, rfl, _, _, _, _, _, rfl⟩
      · exact ⟨u, rfl, .refl u⟩
    · have apart : j ≠ i := fun same => by
        have answer := (other _ rfl).1
        rw [same] at answer
        cases answer.symm.trans (beq_self_eq_true i)
      rw [contentWritten, modifySlot_slots, if_neg apart, holds]
  | index j words r =>
    have kept (i : Fin 3) (u : Take) (holds : x.takes.slots[i] = some u) (apart : j ≠ i) :
        (contentWritten addr (.index j words r) x).takes.slots[i] = some u :=
      promote_slot_of_some (s := raise .takeClosed (setSlot j none x))
        ((setSlot_slots j i none x).trans ((if_neg apart).trans holds)) _
    refine ⟨blocks, ?_, fun noStart => ?_, fun i u holds other => ?_, fun i u holds other => ?_, space, flight⟩
    · exact noticesGrow_promote (s := raise .takeClosed (setSlot j none x)) (noticesGrow_raise (.refl _) .takeClosed) .afterFrame
    · rw [contentWritten, promote_of_no_pendingStart (s := raise .takeClosed (setSlot j none x)) _ noStart]
      exact ⟨noStart, rfl, rfl, rfl⟩
    · exact ⟨u, kept i u holds fun same => other words r (by rw [same]), .refl u⟩
    · exact kept i u holds fun same => (other _ rfl).2 words r (by rw [same])

/-- A re-issue issues no audio block on a full card. -/
theorem reissue_inFlight {content : Content} {s : State} {y : Write} (full : cardFull s = true)
    (busy : (reissue content s).writer.inFlight = some y) : s.writer.inFlight = some y ∨ ∀ i, isAudioOf i y.content = false := by
  cases allowed : spaceAllows s content with
  | true =>
    rw [reissue_of_allowed allowed] at busy
    cases busy
    refine .inr fun i => ?_
    rcases (spaceAllows_iff s content).mp allowed with ample | nearFull | ⟨-, other⟩
    · rw [cardFull, ample] at full; cases full
    · rw [cardFull, nearFull] at full; cases full
    · exact other i
  | false =>
    refine .inl ?_
    cases content with
    | audio slot => rwa [reissue_of_audio allowed (beq_self_eq_true slot)] at busy
    | index => rwa [reissue_of_other allowed fun _ => rfl] at busy
    | notes => rwa [reissue_of_other allowed fun _ => rfl] at busy
    | fault => rwa [reissue_of_other allowed fun _ => rfl] at busy

end Sys2Proof.Proofs
end

section
/-! PROOFS. The takes and notices at the end of a completion (SpaceTakesEffect; R79, R160, R167 to R171). -/

namespace Sys2Proof.Proofs

open Sys2Proof Sys2Proof.Machine Sys2Proof.Safety

/-! ### From the advance to the end, for each completion -/

section

variable {s : State} {a b c : Nat} (range : s.writer.range = some (a, b)) (cursor : s.writer.cursor = some c)

include range cursor

theorem advanceCursor_free (free : s.writer.inFlight = none) : (advanceCursor s).writer.inFlight = none := by
  rw [advanceCursor_writer range cursor]
  exact free

theorem cardFull_advanceCursor : cardFull (advanceCursor s) = true ↔ b - c ≤ 64 :=
  cardFull_of_space (congrArg Writer.space (advanceCursor_writer range cursor))

end

theorem AfterAdvance.reissue {done : Option Content} {x t : State} (h : AfterAdvance done x t) (content : Content) :
    AfterAdvance done x (reissue content t) := by
  have writer : (Machine.reissue content t).writer.space = t.writer.space := by
    unfold Machine.reissue
    split
    · rfl
    · split <;> rfl
  refine h.of_takes ?_ ?_ ?_ writer fun full y => reissue_inFlight full
  · simp only [reissue_frame, and_self]
  · rw [show (Machine.reissue content t).notices = t.notices by simp only [reissue_frame]]
    exact .refl _
  · simp only [reissue_frame]

theorem AfterAdvance.retrySucceeded {done : Option Content} {x t : State} (h : AfterAdvance done x t) :
    AfterAdvance done x (retrySucceeded t) := by
  have normal : AfterAdvance done x { t with writer := { t.writer with capture := .normal, held := none } } :=
    h.of_takes ⟨rfl, rfl, rfl⟩ (.refl _) rfl rfl fun _ _ busy => .inl busy
  unfold Machine.retrySucceeded
  dsimp only
  split
  · exact normal
  · exact normal
  · exact normal.reissue _

theorem afterAdvance_completeOk {s : State} {w : Write} {a b c : Nat} (range : s.writer.range = some (a, b))
    (cursor : s.writer.cursor = some c) :
    AfterAdvance (if w.stale = true then none else some w.content) (advanceCursor (clearFlight s)) (completeOk w s) := by
  have free := advanceCursor_free (s := clearFlight s) range cursor rfl
  unfold completeOk
  dsimp only
  split
  · exact afterAdvance_refl none free
  · have written := afterAdvance_contentWritten w.addr w.content free
    split
    · exact written.retrySucceeded
    · exact written

theorem afterAdvance_failedOutcome (w : Write) {x : State} (free : x.writer.inFlight = none) :
    AfterAdvance none x (failedOutcome w x) := by
  have here := afterAdvance_refl none free
  unfold failedOutcome
  split
  · exact here.of_takes ⟨rfl, rfl, rfl⟩ (noticesGrow_raise (.refl _) .mediaHalted) rfl rfl fun _ _ busy => .inl busy
  · split
    · exact here.reissue w.content
    · exact here.of_takes ⟨rfl, rfl, rfl⟩ (noticesGrow_raise (.refl _) .mediaFault) rfl rfl fun _ _ busy => .inl busy

/-- The station at a failed completion, once the failed address is listed and before the cursor advances. -/
def failureListed (w : Write) (s : State) : State := listFailure w.addr (clearFlight s)

theorem failureListed_writer (w : Write) (s : State) :
    ∃ skipped unlisted,
      (failureListed w s).writer =
        { s.writer with inFlight := none, skipped := skipped, unlisted := unlisted, failed := min 65535 (s.writer.failed + 1) } ∧
      (s.writer.skipped.length < 16 → skipped = s.writer.skipped ++ [w.addr] ∧ unlisted = s.writer.unlisted) ∧
      (16 ≤ s.writer.skipped.length → skipped = s.writer.skipped ∧ unlisted = min 65535 (s.writer.unlisted + 1)) :=
  listFailure_writer w.addr (clearFlight s)

theorem completeFailed_eq (w : Write) (s : State) :
    completeFailed w s =
      if w.stale = true then advanceCursor (failureListed w s) else failedOutcome w (advanceCursor (failureListed w s)) := rfl

theorem afterAdvance_completeFailed {s : State} {w : Write} {a b c : Nat} (range : s.writer.range = some (a, b))
    (cursor : s.writer.cursor = some c) : AfterAdvance none (advanceCursor (failureListed w s)) (completeFailed w s) := by
  obtain ⟨skipped, unlisted, writer, -⟩ := failureListed_writer w s
  have free := advanceCursor_free (s := failureListed w s) (by rw [writer]; exact range) (by rw [writer]; exact cursor)
    (by rw [writer])
  rw [completeFailed_eq]
  split
  · exact afterAdvance_refl none free
  · exact afterAdvance_failedOutcome w free

/-! ### The held frames that will not be written (R160, R174) -/

/-- On a full card the accounts of an event take the held frames from a take's next-to-write position, up to its Z. -/
theorem settle_slot_of_full {s : State} {i : Fin 3} {u : Take} {z : Nat} {older run newer : List RingFrame}
    (inRun : s.port.phase = .run) (full : cardFull s = true)
    (flight : ∀ y, s.writer.inFlight = some y → isAudioOf i y.content = false) (holds : s.takes.slots[i] = some u)
    (stop : u.z = some z) (inDay : u.next < s.day) (frames : s.ring.frames = older ++ run ++ newer)
    (before : ∀ g ∈ older, g.pos ≠ u.next) (consecutive : Consecutive s.day u.next run) :
    ∃ v m, (settle s).takes.slots[i] = some v ∧ min run.length (countTo s.day u.next z) ≤ m ∧ AdvancedBy s.day m u v := by
  obtain ⟨held, dropped⟩ := dropHeldAudio_writer s
  have day : (dropHeldAudio s).day = s.day := by simp only [State.day, dropHeldAudio_frame]
  have ring : (dropHeldAudio s).ring.frames = s.ring.frames := by simp only [dropHeldAudio_frame]
  have holds' : (dropHeldAudio s).takes.slots[i] = some u := by simp only [dropHeldAudio_frame]; exact holds
  have inDay' : u.next < (dropHeldAudio s).day := day ▸ inDay
  rw [settle, if_pos (inRun_of_run inRun)]
  have whole {n : Nat} (small : min run.length (countTo s.day u.next z) ≤ n)
      (due : n = 0 ∨ dueReport (dropHeldAudio s) i = some (false, n)) :
      ∃ v m, (accountAll (dropHeldAudio s)).takes.slots[i] = some v ∧ min run.length (countTo s.day u.next z) ≤ m ∧
        AdvancedBy s.day m u v := by
    rcases due with nothing | due
    · obtain ⟨v, m, at_i, advanced⟩ := accountSlot_slot (accountFuel (dropHeldAudio s)) holds' inDay'
      exact ⟨v, m, (accountAll_slot _ i).trans at_i, by omega, day ▸ advanced⟩
    · obtain ⟨v, m, at_i, enough, advanced⟩ := accountAll_slot_of_due holds' inDay' due
      exact ⟨v, m, at_i, small.trans enough, day ▸ advanced⟩
  by_cases some_held : run = []
  · exact whole (n := 0) (by rw [some_held]; exact Nat.min_le_left _ _) (.inl rfl)
  · have long : run.length ≤ heldRun s.day u.next (framesFrom u.next s.ring.frames) := by
      rw [frames, framesFrom_of_run inDay some_held before consecutive, heldRun_append inDay newer consecutive]
      exact Nat.le_add_right _ _
    have free : audioInFlight (dropHeldAudio s) i = false := by
      rw [audioInFlight, dropped]
      cases busy : s.writer.inFlight with
      | none => rfl
      | some y => exact Bool.and_eq_false_imp.mpr fun _ => flight y busy
    have full' : cardFull (dropHeldAudio s) = true := by rw [cardFull, dropped]; exact full
    have due := dueReport_of_frames holds' (ring.symm ▸ held_of_run inDay frames some_held consecutive)
    rw [full', free, Bool.not_false, Bool.and_self, if_pos rfl, day, ring] at due
    have cut : upToEnd (dropHeldAudio s).day u (heldRun s.day u.next (framesFrom u.next s.ring.frames)) =
        min (heldRun s.day u.next (framesFrom u.next s.ring.frames)) (countTo s.day u.next z) := by
      rw [upToEnd, stop, day]
    rw [day] at cut
    rw [cut] at due
    refine whole (min_le_min_right _ long) ?_
    split at due
    case isTrue nothing => exact .inl nothing
    case isFalse => exact .inr due

/-! ### What the end of the card brings (SpaceTakesEffect) -/

/-- What the forced stop of an open take makes of its slot and of what follows it. -/
theorem forcedStop_open {s : State} {i : Fin 3} {u : Take} (isOpenSlot : openSlot s = some i) (holds : s.takes.slots[i] = some u) :
    (forcedStop s).takes.slots[i] = some (stoppedTake s u) ∧ (forcedStop s).takes.scene = u.label.scene ∧
      (forcedStop s).takes.nextTake = nextNumber u.label.number ∧
      (forcedStop s).takes.closed = appendClosed u.identity s.takes.closed := by
  obtain ⟨closing, -, -, label, -, -, identity⟩ := stoppedTake_fields s u
  rw [forcedStop_of_open isOpenSlot holds]
  refine ⟨((closeSlot_slots i i _ s).trans (if_pos rfl)).trans ?_, congrArg Label.scene label,
    congrArg (fun l : Label => nextNumber l.number) label, congrArg (appendClosed · s.takes.closed) identity⟩
  rw [← closing]

/-- The station x is s with its write landed, before the cursor advances. -/
structure Landed (s x : State) (a b c : Nat) : Prop where
  range : x.writer.range = some (a, b)
  cursor : x.writer.cursor = some c
  space : x.writer.space = s.writer.space
  takes : x.takes = s.takes
  notices : x.notices = s.notices
  blocks : x.port = s.port ∧ x.counter = s.counter ∧ x.ring = s.ring

theorem landed_clearFlight {s : State} {a b c : Nat} (range : s.writer.range = some (a, b)) (cursor : s.writer.cursor = some c) :
    Landed s (clearFlight s) a b c :=
  ⟨range, cursor, rfl, rfl, rfl, rfl, rfl, rfl⟩

theorem landed_failureListed (w : Write) {s : State} {a b c : Nat} (range : s.writer.range = some (a, b))
    (cursor : s.writer.cursor = some c) : Landed s (failureListed w s) a b c := by
  obtain ⟨skipped, unlisted, writer, -⟩ := failureListed_writer w s
  refine ⟨by rw [writer]; exact range, by rw [writer]; exact cursor, by rw [writer], ?_, ?_, ?_⟩ <;>
    simp only [failureListed, listFailure_frame, clearFlight_takes, clearFlight_notices, clearFlight_port, clearFlight_counter,
      clearFlight_ring, and_self]

section

variable {s x t : State} {a b c : Nat} {done : Option Content} (landed : Landed s x a b c)
  (ends : AfterAdvance done (advanceCursor x) t)

include landed ends

theorem nearFull_of_advance (former : s.writer.space = some .ample) (above : 64 < b - c) (below : b - c ≤ 2048) :
    isPending .nearFull (finish s t) = true := by
  have raised : isPending .nearFull (advanceCursor x) = true := by
    rw [advanceCursor_to_nearFull landed.range landed.cursor (landed.space.trans former) above below]
    exact isPending_raise_self _ _
  exact (isPending_of_notices (finish_notices s t)).trans (ends.notices .nearFull raised)

variable (former : s.writer.space = some .nearFull) (some_left : 0 < b - c) (reserve : b - c ≤ 64)

include former some_left reserve

theorem full_of_advance : isPending .full (finish s t) = true ∧ (finish s t).takes.pendingStart = none := by
  have advanced := advanceCursor_to_full landed.range landed.cursor (landed.space.trans former) some_left reserve
  have raised : isPending .full (advanceCursor x) = true := by
    rw [advanced, isPending_forcedStop]
    exact isPending_raise_self _ _
  have noStart : (advanceCursor x).takes.pendingStart = none := by rw [advanced]; exact forcedStop_pendingStart _
  exact ⟨(isPending_of_notices (finish_notices s t)).trans (ends.notices .full raised),
    (slotsAlone_finish s t).pendingStart.trans (ends.engine noStart).1⟩

/-- Entering FULL closes the open take at the newest position. -/
theorem openTake_of_full {i : Fin 3} {u : Take} (isOpenSlot : openSlot s = some i) (holds : s.takes.slots[i] = some u)
    (notIndex : ∀ words r, done ≠ some (.index i words r)) :
    (∃ y v, WrittenFrom (stoppedTake s u) y ∧ Accounts y v ∧ (finish s t).takes.slots[i] = some v) ∧
      (finish s t).takes.scene = u.label.scene ∧ (finish s t).takes.nextTake = nextNumber u.label.number ∧
      (finish s t).takes.closed = appendClosed u.identity s.takes.closed := by
  have advanced := advanceCursor_to_full landed.range landed.cursor (landed.space.trans former) some_left reserve
  obtain ⟨-, counter, -⟩ := landed.blocks
  have stopped : (advanceCursor x).takes = (forcedStop s).takes := by
    rw [advanced]
    exact forcedStop_takes_congr landed.takes counter
  obtain ⟨slot, scene, nextTake, closed⟩ := forcedStop_open isOpenSlot holds
  have noStart : (advanceCursor x).takes.pendingStart = none := by rw [stopped]; exact forcedStop_pendingStart s
  obtain ⟨-, scene', nextTake', closed'⟩ := ends.engine noStart
  obtain ⟨y, written, from_stopped⟩ := ends.written i (stoppedTake s u) (by rw [stopped]; exact slot) notIndex
  obtain ⟨v, at_i, accounts⟩ := (holdsAccounted_of_eq written).finish s
  rw [stopped] at scene' nextTake' closed'
  have alone := slotsAlone_finish s t
  exact ⟨⟨y, v, from_stopped, accounts, at_i⟩, alone.scene.trans (scene'.trans scene),
    alone.nextTake.trans (nextTake'.trans nextTake), alone.closed.trans (closed'.trans closed)⟩

end

section

variable {s x t : State} {a b c : Nat} {done : Option Content} (inRun : s.port.phase = .run) (landed : Landed s x a b c)
  (ends : AfterAdvance done (advanceCursor x) t)

include inRun landed ends

/-- On a full card the frames that a CLOSING take still has in the ring are accounted. -/
theorem accounted_of_advance (reserve : b - c ≤ 64) {i : Fin 3} {u : Take} {z : Nat} {older run newer : List RingFrame}
    (holds : s.takes.slots[i] = some u) (closing : u.phase = .closing) (stop : u.z = some z) (inDay : u.next < s.day)
    (other : ∀ y, done = some y → isAudioOf i y = false ∧ ∀ words r, y ≠ .index i words r)
    (frames : s.ring.frames = older ++ run ++ newer) (before : ∀ g ∈ older, g.pos ≠ u.next)
    (consecutive : Consecutive s.day u.next run) :
    ∃ v m, (finish s t).takes.slots[i] = some v ∧ min run.length (countTo s.day u.next z) ≤ m ∧ v.g = u.g + m ∧
      v.next = (u.next + m) % s.day ∧ v.w = u.w := by
  have advanced : (advanceCursor x).takes.slots[i] = some u := by
    obtain ⟨v, at_i, same | ⟨notClosing, -⟩⟩ :=
      advanceCursor_slot landed.range landed.cursor (show x.takes.slots[i] = some u by rw [landed.takes]; exact holds)
    · rw [at_i, same]
    · exact absurd closing notClosing
  obtain ⟨samePort, sameCounter, sameRing⟩ : t.port = s.port ∧ t.counter = s.counter ∧ t.ring = s.ring := by
    obtain ⟨port, counter, ring⟩ := ends.blocks
    obtain ⟨port', counter', ring'⟩ := landed.blocks
    simp only [advanceCursor_frame] at port counter ring
    exact ⟨port.trans port', counter.trans counter', ring.trans ring'⟩
  have day : t.day = s.day := by rw [State.day, sameCounter]; rfl
  have fullAfter := (cardFull_advanceCursor landed.range landed.cursor).mpr reserve
  have full : cardFull t = true := by rw [cardFull, ends.space]; exact fullAfter
  obtain ⟨v, m, at_i, enough, gaps, merged, rfl⟩ :=
    settle_slot_of_full (by rw [samePort]; exact inRun) full (fun y busy => ends.flight fullAfter y busy i)
      (ends.untouched i u advanced other) stop (day ▸ inDay) (by rw [sameRing]; exact frames) before (day ▸ consecutive)
  obtain ⟨issued, decided⟩ := makeDecision_slot (s := announceChange s (settle t)) ((announceChange_takes s _).symm ▸ at_i)
  exact ⟨_, m, decided, day ▸ enough, rfl, congrArg ((u.next + m) % ·) day, rfl⟩

theorem spaceTakesEffect_finish : SpaceTakesEffect s (finish s t) (b - c) done where
  nearFull former above below := nearFull_of_advance landed ends former above below
  full former some_left reserve := by
    obtain ⟨raised, noStart⟩ := full_of_advance landed ends former some_left reserve
    refine ⟨raised, noStart, fun i u isOpenSlot holds notIndex => ?_⟩
    obtain ⟨⟨y, v, written, accounts, at_i⟩, scene, nextTake, closed⟩ :=
      openTake_of_full landed ends former some_left reserve isOpenSlot holds notIndex
    obtain ⟨closing, z, flags, label, sr, serial, -⟩ := stoppedTake_fields s u
    obtain ⟨_, _, _, _, _, rfl⟩ := written
    obtain ⟨_, _, _, _, _, rfl⟩ := accounts
    exact ⟨_, at_i, closing, z, flags, label, sr, serial, stoppedTake_of_rolling,
      fun e => stoppedTake_of_post, scene, nextTake, closed⟩
  accounted reserve i u z older frames newer holds closing stop inDay other split before consecutive :=
    accounted_of_advance inRun landed ends reserve holds closing stop inDay other split before consecutive

end

end Sys2Proof.Proofs
end

section
/-! PROOFS. A failed completion: the listing, the re-issue of its content and its outcome by attempt (R168, R169, R171, R174,
R175). -/

namespace Sys2Proof.Proofs

open Sys2Proof Sys2Proof.Machine Sys2Proof.Safety

/-! ### Completions in the writer -/

theorem exec_successfulCompletion_of_free {s : State} (free : s.writer.inFlight = none) : exec .successfulCompletion s = .next s := by
  show Host.Outcome.next (successfulCompletion s) = .next s
  rw [successfulCompletion, free]

theorem exec_failedCompletion_of_free {s : State} (free : s.writer.inFlight = none) : exec .failedCompletion s = .next s := by
  show Host.Outcome.next (failedCompletion s) = .next s
  rw [failedCompletion, free]

theorem exec_successfulCompletion {s : State} {w : Write} (flight : s.writer.inFlight = some w) :
    exec .successfulCompletion s = .next (finish s (completeOk w s)) := by
  show Host.Outcome.next (successfulCompletion s) = _
  rw [successfulCompletion, flight]

theorem exec_failedCompletion {s : State} {w : Write} (flight : s.writer.inFlight = some w) :
    exec .failedCompletion s = .next (finish s (completeFailed w s)) := by
  show Host.Outcome.next (failedCompletion s) = _
  rw [failedCompletion, flight]

/-- No content of other kinds is an audio block, of whatever slot. -/
theorem not_audio_or (x : Content) : (∃ i, isAudioOf i x = true) ∨ ∀ i, isAudioOf i x = false := by
  cases x with
  | audio slot => exact .inl ⟨slot, beq_self_eq_true slot⟩
  | index => exact .inr fun _ => rfl
  | notes => exact .inr fun _ => rfl
  | fault => exact .inr fun _ => rfl

/-! ### A re-issue by the blocks left (R158, R168, R174, R175) -/

/-- Of the writer a re-issue changes the held content and the write in flight alone. -/
theorem reissue_writer (content : Content) (x : State) :
    ∃ held flight, (reissue content x).writer = { x.writer with held := held, inFlight := flight } := by
  unfold reissue
  split
  · exact ⟨none, _, rfl⟩
  · split
    · exact ⟨none, x.writer.inFlight, rfl⟩
    · exact ⟨some content, x.writer.inFlight, rfl⟩

section

variable {x : State} {left : Nat} (space : x.writer.space = some (spaceOf left)) (content : Content)

include space

theorem reissue_of_room (room : 64 < left ∨ (0 < left ∧ ∀ i, isAudioOf i content = false)) :
    reissue content x = issueWrite content .retry false { x with writer := { x.writer with held := none } } := by
  refine reissue_of_allowed ((spaceAllows_iff x content).mpr ?_)
  rw [space]
  rcases Nat.lt_or_ge 64 left with above | reserve
  · exact (spaceOf_of_left above).elim (fun ample => .inl (congrArg some ample)) fun nearFull => .inr (.inl (congrArg some nearFull))
  · rcases room with above | ⟨some_left, other⟩
    · exact absurd above (Nat.not_lt.mpr reserve)
    · exact .inr (.inr ⟨congrArg some (spaceOf_of_reserve some_left reserve), other⟩)

theorem reissue_of_dropped (reserve : left ≤ 64) {i : Fin 3} (audio : isAudioOf i content = true) :
    reissue content x = { x with writer := { x.writer with held := none } } := by
  refine reissue_of_audio (Bool.eq_false_iff.mpr fun allowed => ?_) audio
  have full := (cardFull_of_space space).mpr reserve
  rcases (spaceAllows_iff x content).mp allowed with ample | nearFull | ⟨-, other⟩
  · rw [cardFull, ample] at full; cases full
  · rw [cardFull, nearFull] at full; cases full
  · cases audio.symm.trans (other i)

theorem reissue_of_spent (spent : left = 0) (other : ∀ i, isAudioOf i content = false) :
    reissue content x = { x with writer := { x.writer with held := some content } } := by
  refine reissue_of_other (Bool.eq_false_iff.mpr fun allowed => not_exhausted_of_spaceAllows allowed ?_) other
  rw [space, spent, spaceOf_zero]

end

/-! ### The end of an event with held content (R174) -/

section

variable (before : State) {t : State} (run : t.port.phase = .run) {left : Nat} (space : t.writer.space = some (spaceOf left))

include run

theorem finish_held_of_none (nothing : t.writer.held = none) : (finish before t).writer.held = none := by
  rw [finish_held before run]
  exact (dropHeldAudio_held_of_other fun x i held => by cases nothing.symm.trans held).trans nothing

include space

/-- Held content stays unless it is an audio block on a full card. -/
theorem finish_held_of_kept (keep : 64 < left ∨ ∀ x i, t.writer.held = some x → isAudioOf i x = false) :
    (finish before t).writer.held = t.writer.held := by
  rw [finish_held before run]
  rcases keep with above | other
  · refine dropHeldAudio_held_of_room (Bool.eq_false_iff.mpr fun full => ?_)
    exact absurd ((cardFull_of_space space).mp full) (Nat.not_le.mpr above)
  · exact dropHeldAudio_held_of_other other

theorem finish_held_of_dropped {x : Content} {i : Fin 3} (held : t.writer.held = some x) (audio : isAudioOf i x = true)
    (reserve : left ≤ 64) : (finish before t).writer.held = none := by
  rw [finish_held before run]
  exact dropHeldAudio_held_of_audio ((cardFull_of_space space).mpr reserve) held audio

end

/-! ### The outcome by attempt (R168, R171) -/

/-- The outcome of a re-issue at the end of its event: a retry in flight, an audio block dropped, or other content held. -/
theorem finish_reissue (before : State) {x : State} {c left : Nat} (content : Content) (run : x.port.phase = .run)
    (free : x.writer.inFlight = none) (cursor : x.writer.cursor = some c) (space : x.writer.space = some (spaceOf left)) :
    let t := finish before (reissue content x)
    (64 < left ∨ (0 < left ∧ ∀ i, isAudioOf i content = false) →
      t.writer.held = none ∧ t.store = x.store ∧
        t.writer.inFlight =
          some { addr := c, content := content, attempt := .retry, stale := false, ofRetryCommand := false }) ∧
    (left ≤ 64 → (∃ i, isAudioOf i content = true) →
      t.writer.held = none ∧ ∀ y, t.writer.inFlight = some y → y.attempt = .first ∧ y.content ≠ content) ∧
    (left = 0 → (∀ i, isAudioOf i content = false) → t.writer.held = some content ∧ t.writer.inFlight = none) := by
  have run' : (reissue content x).port.phase = .run := by simp only [reissue_frame]; exact run
  have space' : (reissue content x).writer.space = some (spaceOf left) := by
    obtain ⟨held, flight, writer⟩ := reissue_writer content x
    rw [writer]
    exact space
  refine ⟨fun room => ?_, fun reserve ⟨i, audio⟩ => ?_, fun spent other => ?_⟩
  · have issued := reissue_of_room space content room
    have flight : (reissue content x).writer.inFlight =
        some { addr := c, content := content, attempt := .retry, stale := false, ofRetryCommand := false } := by
      rw [issued, issueWrite, cursor]
      rfl
    refine ⟨finish_held_of_none before run' (by rw [issued]; rfl), ?_, finish_inFlight_of_busy before run' flight⟩
    rw [finish_store_of_busy before flight, issued]
    rfl
  · have dropped := reissue_of_dropped space content reserve audio
    refine ⟨finish_held_of_none before run' (by rw [dropped]), fun y flight => ?_⟩
    obtain ⟨first, other⟩ := finish_inFlight_of_full before run' (by rw [dropped]; exact free)
      ((cardFull_of_space space').mpr reserve) y flight
    exact ⟨first, fun same => by cases (same ▸ other i).symm.trans audio⟩
  · have kept := reissue_of_spent space content spent other
    have held : (reissue content x).writer.held = some content := by rw [kept]
    refine ⟨?_, ?_⟩
    · rw [finish_held_of_kept before run' space' (.inr fun y i found => ?_), held]
      cases held.symm.trans found
      exact other i
    · refine finish_inFlight_of_idle before run' (by rw [kept]; exact free) (.inr ?_)
      rw [space', spent, spaceOf_zero]

end Sys2Proof.Proofs
end

section
/-! PROOFS. FAILED_COMPLETION (O44; R168, R169, R171). -/

namespace Sys2Proof.Proofs

open Sys2Proof Sys2Proof.Machine Sys2Proof.Safety

/-! ### The takes at the end of a completion of no content -/

theorem slot_of_no_content {s x t : State} {a b c : Nat} (landed : Landed s x a b c) (ends : AfterAdvance none (advanceCursor x) t)
    {i : Fin 3} {u : Take} (holds : s.takes.slots[i] = some u) :
    ∃ v, (finish s t).takes.slots[i] = some v ∧ v.w = u.w ∧ v.blocks = u.blocks ∧ v.tracks = u.tracks := by
  obtain ⟨y, advanced, stopped⟩ :=
    advanceCursor_slot landed.range landed.cursor (show x.takes.slots[i] = some u by rw [landed.takes]; exact holds)
  obtain ⟨v, at_i, accounts⟩ := (holdsAccounted_of_eq (ends.untouched i y advanced fun _ done => by cases done)).finish s
  obtain ⟨_, _, _, _, _, rfl⟩ := accounts
  refine ⟨_, at_i, ?_⟩
  rcases stopped with rfl | ⟨-, _, _, _, _, _, rfl⟩
  · exact ⟨rfl, rfl, rfl⟩
  · exact ⟨rfl, rfl, rfl⟩

/-! ### The writer as a failed completion leaves it -/

/-- Of the writer the outcome of a failed write changes the capture state, the held content and the write in flight alone. -/
theorem failedOutcome_writer (w : Write) (x : State) :
    ∃ capture held flight,
      (failedOutcome w x).writer = { x.writer with capture := capture, held := held, inFlight := flight } := by
  unfold failedOutcome
  split
  · exact ⟨.halted, x.writer.held, x.writer.inFlight, rfl⟩
  · split
    · obtain ⟨held, flight, writer⟩ := reissue_writer w.content x
      exact ⟨x.writer.capture, held, flight, writer⟩
    · exact ⟨.mediaFault, some w.content, x.writer.inFlight, rfl⟩

section

variable {s : State} {w : Write} {a b c : Nat} (range : s.writer.range = some (a, b)) (cursor : s.writer.cursor = some c)

include range cursor

/-- The writer once the failure is listed and the cursor has advanced. -/
theorem failureAdvanced_writer :
    ∃ skipped unlisted,
      (advanceCursor (failureListed w s)).writer =
        { s.writer with
          inFlight := none, skipped := skipped, unlisted := unlisted, failed := min 65535 (s.writer.failed + 1)
          cursor := some (c + 1), space := some (spaceOf (b - c)) } ∧
      (s.writer.skipped.length < 16 → skipped = s.writer.skipped ++ [w.addr] ∧ unlisted = s.writer.unlisted) ∧
      (16 ≤ s.writer.skipped.length → skipped = s.writer.skipped ∧ unlisted = min 65535 (s.writer.unlisted + 1)) := by
  obtain ⟨skipped, unlisted, listed, room, full⟩ := failureListed_writer w s
  have landed := landed_failureListed w range cursor
  exact ⟨skipped, unlisted, by rw [advanceCursor_writer landed.range landed.cursor, listed], room, full⟩

theorem finish_completeFailed_writer (run : s.port.phase = .run) :
    ∃ skipped unlisted capture held flight,
      (finish s (completeFailed w s)).writer =
        { s.writer with
          skipped := skipped, unlisted := unlisted, failed := min 65535 (s.writer.failed + 1)
          cursor := some (c + 1), space := some (spaceOf (b - c)), capture := capture, held := held, inFlight := flight } ∧
      (s.writer.skipped.length < 16 → skipped = s.writer.skipped ++ [w.addr] ∧ unlisted = s.writer.unlisted) ∧
      (16 ≤ s.writer.skipped.length → skipped = s.writer.skipped ∧ unlisted = min 65535 (s.writer.unlisted + 1)) := by
  obtain ⟨skipped, unlisted, advanced, room, full⟩ := failureAdvanced_writer (w := w) range cursor
  obtain ⟨held, flight, ended⟩ := finish_writer_fields s (after := completeFailed w s)
    (by simp only [completeFailed_frame]; exact run)
  have failed : ∃ capture held flight, (completeFailed w s).writer =
      { (advanceCursor (failureListed w s)).writer with capture := capture, held := held, inFlight := flight } := by
    rw [completeFailed_eq]
    split
    · exact ⟨_, _, _, rfl⟩
    · exact failedOutcome_writer w _
  obtain ⟨capture, _, _, failed⟩ := failed
  exact ⟨skipped, unlisted, capture, held, flight, by rw [ended, failed, advanced], room, full⟩

theorem failed_of_stale (stale : w.stale = true) :
    let t := finish s (completeFailed w s)
    t.writer.capture = s.writer.capture ∧ isPending .mediaFault t = isPending .mediaFault s ∧
      isPending .mediaHalted t = isPending .mediaHalted s := by
  have landed := landed_failureListed w range cursor
  obtain ⟨skipped, unlisted, advanced, -⟩ := failureAdvanced_writer (w := w) range cursor
  have failed : completeFailed w s = advanceCursor (failureListed w s) := by rw [completeFailed_eq, if_pos stale]
  obtain ⟨-, -, capture⟩ := finish_writer s (completeFailed w s)
  have calm (k : Notice) (notNearFull : k ≠ .nearFull) (notFull : k ≠ .full) :
      isPending k (finish s (completeFailed w s)) = isPending k s := by
    rw [isPending_of_notices (finish_notices _ _), failed, isPending_advanceCursor landed.range landed.cursor notNearFull notFull,
      isPending_of_notices landed.notices]
  refine ⟨capture.trans (by rw [failed, advanced]), calm _ (by decide) (by decide), calm _ (by decide) (by decide)⟩

end

/-! ### The outcomes by attempt -/

section

variable {s : State} {w : Write} {a b c : Nat} (run : s.port.phase = .run) (range : s.writer.range = some (a, b))
  (cursor : s.writer.cursor = some c)

include run range cursor

theorem failed_of_first (live : w.stale = false) (notRetryCommand : w.ofRetryCommand = false) (first : w.attempt = .first) :
    let t := finish s (completeFailed w s)
    t.writer.capture = s.writer.capture ∧
    (64 < b - c ∨ (0 < b - c ∧ ∀ i, isAudioOf i w.content = false) →
      t.writer.held = none ∧ t.store = s.store ∧ t.writer.inFlight = some { w with addr := c + 1, attempt := .retry }) ∧
    (b - c ≤ 64 → (∃ i, isAudioOf i w.content = true) →
      t.writer.held = none ∧ ∀ y, t.writer.inFlight = some y → y.attempt = .first ∧ y.content ≠ w.content) ∧
    (b - c = 0 → (∀ i, isAudioOf i w.content = false) → t.writer.held = some w.content ∧ t.writer.inFlight = none) := by
  obtain ⟨skipped, unlisted, advanced, -⟩ := failureAdvanced_writer (w := w) range cursor
  have failed : completeFailed w s = reissue w.content (advanceCursor (failureListed w s)) := by
    rw [completeFailed_eq, live, if_neg Bool.false_ne_true, failedOutcome, notRetryCommand, if_neg Bool.false_ne_true, first]
  have store : (advanceCursor (failureListed w s)).store = s.store := by
    simp only [advanceCursor_frame, failureListed, listFailure_frame, clearFlight_store]
  obtain ⟨issued, dropped, kept⟩ := finish_reissue s (x := advanceCursor (failureListed w s)) (c := c + 1) (left := b - c)
    w.content
    (by simp only [advanceCursor_frame, failureListed, listFailure_frame, clearFlight_port]; exact run)
    (by rw [advanced]) (by rw [advanced]) (by rw [advanced])
  have again : { w with addr := c + 1, attempt := .retry } =
      { addr := c + 1, content := w.content, attempt := .retry, stale := false, ofRetryCommand := false } := by
    rw [live, notRetryCommand]
  rw [← failed] at issued dropped kept
  refine ⟨?_, fun room => ?_, dropped, kept⟩
  · obtain ⟨held, flight, writer⟩ := reissue_writer w.content (advanceCursor (failureListed w s))
    obtain ⟨-, -, capture⟩ := finish_writer s (completeFailed w s)
    exact capture.trans (by rw [failed, writer, advanced])
  · obtain ⟨held, same, flight⟩ := issued room
    exact ⟨held, same.trans store, flight.trans (congrArg some again.symm)⟩

theorem failed_of_retry (live : w.stale = false) (notRetryCommand : w.ofRetryCommand = false) (retry : w.attempt = .retry) :
    let t := finish s (completeFailed w s)
    t.writer.capture = .mediaFault ∧ isPending .mediaFault t = true ∧ t.writer.inFlight = none ∧
      (64 < b - c ∨ (∀ i, isAudioOf i w.content = false) → t.writer.held = some w.content) ∧
      (b - c ≤ 64 → (∃ i, isAudioOf i w.content = true) → t.writer.held = none) := by
  obtain ⟨skipped, unlisted, advanced, -⟩ := failureAdvanced_writer (w := w) range cursor
  have run' : (completeFailed w s).port.phase = .run := by simp only [completeFailed_frame]; exact run
  have failed : completeFailed w s =
      raise .mediaFault { advanceCursor (failureListed w s) with
        writer := { (advanceCursor (failureListed w s)).writer with capture := .mediaFault, held := some w.content } } := by
    rw [completeFailed_eq, live, if_neg Bool.false_ne_true, failedOutcome, notRetryCommand, if_neg Bool.false_ne_true, retry]
  have held : (completeFailed w s).writer.held = some w.content := by rw [failed]; rfl
  have capture : (completeFailed w s).writer.capture = .mediaFault := by rw [failed]; rfl
  have space : (completeFailed w s).writer.space = some (spaceOf (b - c)) := by rw [failed, raise_writer, advanced]
  have free : (completeFailed w s).writer.inFlight = none := by rw [failed, raise_writer, advanced]
  obtain ⟨-, -, same⟩ := finish_writer s (completeFailed w s)
  refine ⟨same.trans capture, ?_, finish_inFlight_of_idle s run' free (.inl (by rw [capture]; decide)), fun keep => ?_,
    fun reserve ⟨i, audio⟩ => finish_held_of_dropped s run' space held audio reserve⟩
  · rw [isPending_of_notices (finish_notices _ _), failed]
    exact isPending_raise_self _ _
  · refine (finish_held_of_kept s run' space (keep.imp_right fun other x i found => ?_)).trans held
    cases held.symm.trans found
    exact other i

theorem failed_of_retryCommand (live : w.stale = false) (ofRetryCommand : w.ofRetryCommand = true) :
    let t := finish s (completeFailed w s)
    t.writer.capture = .halted ∧ isPending .mediaHalted t = true ∧ t.writer.inFlight = none ∧
      (64 < b - c ∨ (∀ x i, s.writer.held = some x → isAudioOf i x = false) → t.writer.held = s.writer.held) ∧
      (∀ x, s.writer.held = some x → (∃ i, isAudioOf i x = true) → b - c ≤ 64 → t.writer.held = none) := by
  obtain ⟨skipped, unlisted, advanced, -⟩ := failureAdvanced_writer (w := w) range cursor
  have run' : (completeFailed w s).port.phase = .run := by simp only [completeFailed_frame]; exact run
  have failed : completeFailed w s =
      raise .mediaHalted { advanceCursor (failureListed w s) with
        writer := { (advanceCursor (failureListed w s)).writer with capture := .halted } } := by
    rw [completeFailed_eq, live, if_neg Bool.false_ne_true, failedOutcome, ofRetryCommand, if_pos rfl]
  have held : (completeFailed w s).writer.held = s.writer.held := by rw [failed, raise_writer, advanced]
  have capture : (completeFailed w s).writer.capture = .halted := by rw [failed]; rfl
  have space : (completeFailed w s).writer.space = some (spaceOf (b - c)) := by rw [failed, raise_writer, advanced]
  have free : (completeFailed w s).writer.inFlight = none := by rw [failed, raise_writer, advanced]
  obtain ⟨-, -, same⟩ := finish_writer s (completeFailed w s)
  refine ⟨same.trans capture, ?_, finish_inFlight_of_idle s run' free (.inl (by rw [capture]; decide)), fun keep => ?_,
    fun x found ⟨i, audio⟩ reserve => finish_held_of_dropped s run' space (held.trans found) audio reserve⟩
  · rw [isPending_of_notices (finish_notices _ _), failed]
    exact isPending_raise_self _ _
  · exact (finish_held_of_kept s run' space (keep.imp_right fun other x i found => other x i (held.symm.trans found))).trans held

end

/-- Settles O44: the failure is listed and the cursor advances, and the outcome follows the attempt. -/
theorem failedCompletionByAttempt : Obligations.FailedCompletionByAttempt := by
  intro s
  refine ⟨exec_failedCompletion_of_free, fun w c a b run flight cursor range => ⟨_, exec_failedCompletion flight, ?_⟩⟩
  have landed := landed_failureListed w range cursor
  have ends := afterAdvance_completeFailed (w := w) range cursor
  obtain ⟨skipped, unlisted, capture, held, flight', writer, room, full⟩ := finish_completeFailed_writer (w := w) range cursor run
  obtain ⟨-, notes⟩ := finish_store s (completeFailed w s)
  refine ⟨by rw [writer], by rw [writer]; exact range, by rw [writer], by rw [writer], by rw [writer]; exact room,
    by rw [writer]; exact full, ?_, ?_, ?_, ?_, ?_, notes.trans ?_, fun i u => slot_of_no_content landed ends,
    spaceTakesEffect_finish run landed ends, failed_of_stale range cursor, failed_of_first run range cursor,
    failed_of_retry run range cursor, failed_of_retryCommand run range cursor⟩
  all_goals simp only [finish_frame, completeFailed_frame]

end Sys2Proof.Proofs
end

section
/-! PROOFS. The content of a successful completion: the tallies and the report of an audio block, the notes of a note block, a
closed take's slot, and a fault record's list (R21, R60, R76, R163, R167). -/

namespace Sys2Proof.Proofs

open Sys2Proof Sys2Proof.Machine Sys2Proof.Safety

/-! ### The tallies of a written block (R21) -/

/-- What the frames of a block make of one track's tally: counts raised up to their limits, and the first clip's position. -/
structure TalliedBy (clipped absent : RingFrame → Bool) (frames : List RingFrame) (x y : TrackTally) : Prop where
  name : y.name = x.name
  dropouts : y.dropouts = min 4294967295 (x.dropouts + frames.countP absent)
  clips : y.clips = min 4294967295 (x.clips + frames.countP clipped)
  firstClip : y.firstClip = x.firstClip.or ((frames.find? clipped).map RingFrame.pos)

/-- One track's tally raised by a frame at this position. -/
def raisedBy (clipped absent : Bool) (pos : Nat) (x : TrackTally) : TrackTally :=
  { x with
    clips := if clipped then satAdd 4294967295 x.clips 1 else x.clips
    firstClip := if clipped then some (x.firstClip.getD pos) else x.firstClip
    dropouts := if absent then satAdd 4294967295 x.dropouts 1 else x.dropouts }

theorem tallyFrame_eq (number : Nat) (word : Option FieldWord) (f : RingFrame) (x : TrackTally) :
    tallyFrame number word f x = raisedBy (f.clips.contains number) (word.any wordIsAbsent) f.pos x := by
  unfold tallyFrame raisedBy
  cases word with
  | none => split <;> rfl
  | some w =>
    rw [Option.any_some]
    dsimp only
    split_ifs <;> rfl

theorem min_raised (limit count n : Nat) (raised : Bool) :
    min limit ((if raised = true then satAdd limit count 1 else count) + n) =
      min limit (count + (n + if raised = true then 1 else 0)) := by
  unfold satAdd
  split <;> omega

theorem raised_le {limit count : Nat} (raised : Bool) (bound : count ≤ limit) :
    (if raised = true then satAdd limit count 1 else count) ≤ limit := by
  split
  · exact Nat.min_le_left _ _
  · exact bound

theorem TalliedBy.cons {clipped absent : RingFrame → Bool} {f : RingFrame} {rest : List RingFrame} {x y : TrackTally}
    (tallied : TalliedBy clipped absent rest (raisedBy (clipped f) (absent f) f.pos x) y) :
    TalliedBy clipped absent (f :: rest) x y where
  name := tallied.name
  dropouts := by rw [tallied.dropouts, List.countP_cons]; exact min_raised _ _ _ _
  clips := by rw [tallied.clips, List.countP_cons]; exact min_raised _ _ _ _
  firstClip := by
    rw [tallied.firstClip, List.find?_cons, raisedBy]
    cases clipped f with
    | false => rfl
    | true => cases x.firstClip <;> rfl

theorem talliedBy_foldl (number place : Nat) (frames : List RingFrame) {x : TrackTally} (clips : x.clips ≤ 4294967295)
    (dropouts : x.dropouts ≤ 4294967295) :
    TalliedBy (fun f => f.clips.contains number) (fun f => (f.words[place]?).any wordIsAbsent) frames x
      (frames.foldl (fun acc f => tallyFrame number (f.words[place]?) f acc) x) := by
  induction frames generalizing x with
  | nil => exact ⟨rfl, (Nat.min_eq_right dropouts).symm, (Nat.min_eq_right clips).symm, Option.or_none.symm⟩
  | cons f rest ih =>
    rw [List.foldl_cons, tallyFrame_eq]
    exact (ih (raised_le _ clips) (raised_le _ dropouts)).cons

theorem tallyBlock_some {frames : List RingFrame} {tracks : Vector (Option TrackTally) 16} {n : Fin 16} {x : TrackTally}
    (track : tracks[n] = some x) :
    (tallyBlock frames tracks)[n] =
      some (frames.foldl (fun acc f => tallyFrame (n.val + 1) (f.words[wordPlace tracks n]?) f acc) x) := by
  unfold tallyBlock
  rw [Fin.getElem_fin, Vector.getElem_ofFn, Fin.eta, track]
  rfl

/-! ### Notes that no decision touches (R130, R162) -/

theorem markWriting_getElem? {n k : Nat} {l : List StoredNote} {x : StoredNote} (stored : l[k]? = some x)
    (notPending : x.state ≠ .pending) : (markWriting n l)[k]? = some x := by
  induction l generalizing n k with
  | nil => cases stored
  | cons y rest ih =>
    cases n with
    | zero => exact stored
    | succ n =>
      rw [markWriting]
      cases k with
      | zero =>
        cases stored
        rw [if_neg notPending]
        rfl
      | succ k =>
        split
        · exact ih stored
        · exact ih stored

theorem makeDecision_notes (s : State) :
    (makeDecision s).store.notes = s.store.notes ∨
      (makeDecision s).store.notes = markWriting Config.notesPerBlock s.store.notes := by
  rcases makeDecision_cases s with same | ⟨r, -, -, issued⟩
  · exact .inl (by rw [same])
  · rw [issued]
    cases r with
    | notes => exact .inr rfl
    | fault => exact .inl rfl
    | audio i =>
      unfold issueRequest
      dsimp only
      split
      · exact .inl rfl
      · split
        · exact .inl rfl
        · exact .inl rfl
    | index i =>
      unfold issueRequest
      dsimp only
      split
      · exact .inl rfl
      · exact .inl rfl

theorem finish_note {k : Nat} {x : StoredNote} (before : State) {after : State} (stored : after.store.notes[k]? = some x)
    (notPending : x.state ≠ .pending) : (finish before after).store.notes[k]? = some x := by
  have settled : (announceChange before (settle after)).store.notes = after.store.notes := by
    simp only [announceChange_frame, settle_frame]
  rcases makeDecision_notes (announceChange before (settle after)) with same | marked
  · rw [finish, same, settled]
    exact stored
  · rw [finish, marked, settled]
    exact markWriting_getElem? stored notPending

theorem markWritten_getElem? {ids : List NoteId} {l : List StoredNote} {k : Nat} {x : StoredNote} (stored : l[k]? = some x)
    (writing : x.state = .writing) :
    (markWritten ids l)[k]? = some (if x.note.id ∈ ids then { x with state := .written } else x) := by
  rw [markWritten, List.getElem?_map, stored]
  simp only [Option.map_some, writing, true_and, List.contains_iff_mem]

/-! ### The end of a completion with content -/

theorem completeOk_eq (w : Write) (s : State) :
    completeOk w s =
      if w.stale = true then advanceCursor (clearFlight s)
      else if w.ofRetryCommand = true then retrySucceeded (contentWritten w.addr w.content (advanceCursor (clearFlight s)))
      else contentWritten w.addr w.content (advanceCursor (clearFlight s)) := rfl

/-- The effect of MEDIA RETRY's success leaves what the content did to takes, notices and store. -/
theorem completeOk_of_live {w : Write} {s : State} (live : w.stale = false) :
    (completeOk w s).takes = (contentWritten w.addr w.content (advanceCursor (clearFlight s))).takes ∧
      (completeOk w s).notices = (contentWritten w.addr w.content (advanceCursor (clearFlight s))).notices ∧
      (completeOk w s).store = (contentWritten w.addr w.content (advanceCursor (clearFlight s))).store := by
  rw [completeOk_eq, live, if_neg Bool.false_ne_true]
  split
  · simp only [retrySucceeded_frame, and_self]
  · exact ⟨rfl, rfl, rfl⟩

theorem finish_of_written_notes {s : State} {w : Write} {l : List Note} (live : w.stale = false) (content : w.content = .notes l)
    {k : Nat} {x : StoredNote} (stored : s.store.notes[k]? = some x) (writing : x.state = .writing) :
    (finish s (completeOk w s)).store.notes[k]? =
      some (if x.note.id ∈ l.map Note.id then { x with state := .written } else x) := by
  obtain ⟨-, -, store⟩ := completeOk_of_live (s := s) live
  have marked : (completeOk w s).store.notes = markWritten (l.map Note.id) s.store.notes := by
    rw [store, content, contentWritten]
    simp only [advanceCursor_frame, clearFlight_store]
  refine finish_note s (by rw [marked]; exact markWritten_getElem? stored writing) ?_
  split
  · exact fun pending => by cases pending
  · exact fun pending => by cases writing.symm.trans pending

section

variable {s : State} {w : Write} {i : Fin 3} {words : Nat} {r : Take} (live : w.stale = false) (content : w.content = .index i words r)

include live content

/-- The index record's completion empties the slot and promotes the pending start, if one is due. -/
theorem takes_of_written_index :
    (completeOk w s).takes = (promote .afterFrame (raise .takeClosed (setSlot i none (advanceCursor (clearFlight s))))).takes := by
  rw [(completeOk_of_live (s := s) live).1, content]
  rfl

theorem isPending_takeClosed_of_written_index : isPending .takeClosed (finish s (completeOk w s)) = true := by
  have raised := isPending_raise_self .takeClosed (setSlot i none (advanceCursor (clearFlight s)))
  have grown := noticesGrow_promote (s := raise .takeClosed (setSlot i none (advanceCursor (clearFlight s)))) (.refl _) .afterFrame
  obtain ⟨-, notices, -⟩ := completeOk_of_live (s := s) live
  rw [isPending_of_notices (finish_notices _ _), isPending_of_notices notices, content]
  exact grown .takeClosed raised

theorem slot_of_written_index (noStart : (advanceCursor (clearFlight s)).takes.pendingStart = none) :
    (finish s (completeOk w s)).takes.slots[i] = none := by
  refine (revises_finish s (completeOk w s)).empty ?_
  rw [takes_of_written_index live content,
    promote_of_no_pendingStart (s := raise .takeClosed (setSlot i none (advanceCursor (clearFlight s)))) _ noStart]
  exact (setSlot_slots i i none _).trans (if_pos rfl)

end

section

variable {s : State} {w : Write} {a b c : Nat} (range : s.writer.range = some (a, b)) (cursor : s.writer.cursor = some c)
  (live : w.stale = false)

include range cursor live

theorem finish_of_written_audio {i : Fin 3} {words serial first seq : Nat} {frames : List RingFrame} {u : Take}
    (content : w.content = .audio i words serial first seq frames) (holds : s.takes.slots[i] = some u) :
    ∃ v, (finish s (completeOk w s)).takes.slots[i] = some v ∧ v.w = u.w + frames.length ∧ v.blocks = u.blocks + 1 ∧
      v.firstBlock = some (u.firstBlock.getD w.addr) ∧ v.sr = u.sr ∧ v.label = u.label ∧
      v.tracks = tallyBlock frames u.tracks := by
  obtain ⟨takes, -, -⟩ := completeOk_of_live (s := s) live
  obtain ⟨y, advanced, stopped⟩ := advanceCursor_slot (s := clearFlight s) range cursor holds
  have written : (completeOk w s).takes.slots[i] =
      some (writtenReport (advanceCursor (clearFlight s)).day w.addr frames y) := by
    rw [takes, content, contentWritten, modifySlot_slots, if_pos rfl, advanced]
    rfl
  obtain ⟨v, at_i, accounts⟩ := (holdsAccounted_of_eq written).finish s
  obtain ⟨_, _, _, _, _, rfl⟩ := accounts
  refine ⟨_, at_i, ?_⟩
  rcases stopped with rfl | ⟨-, _, _, _, _, _, rfl⟩
  · exact ⟨rfl, rfl, rfl, rfl, rfl, rfl⟩
  · exact ⟨rfl, rfl, rfl, rfl, rfl, rfl⟩

section

variable {i : Fin 3} {words : Nat} {r : Take} (content : w.content = .index i words r)

include content

/-- Above the reserve the emptied slot lets a pending start begin. -/
theorem start_of_written_index (above : 64 < b - c) {q : PendingStart} (start : s.takes.pendingStart = some q)
    (reached : q.reached = true) :
    (finish s (completeOk w s)).takes.pendingStart = none ∧
      (finish s (completeOk w s)).takes.serial = nextSerial s.takes.serial ∧
      ∃ (j : Fin 3) (v : Take), (finish s (completeOk w s)).takes.slots[j] = some v ∧ v.phase = .rolling ∧ v.label = q.label ∧
        v.origin = q.origin ∧ v.sr = q.start ∧ v.serial = nextSerial s.takes.serial := by
  have advanced : (advanceCursor (clearFlight s)).takes = s.takes :=
    advanceCursor_takes_of_left (s := clearFlight s) range cursor above
  have takes := takes_of_written_index (s := s) live content
  generalize emptied : raise .takeClosed (setSlot i none (advanceCursor (clearFlight s))) = x at takes
  have start' : x.takes.pendingStart = some q := by rw [← emptied, ← start, ← advanced]; rfl
  have serial : x.takes.serial = s.takes.serial := by rw [← emptied, ← advanced]; rfl
  have empty_i : x.takes.slots[i] = none := by
    rw [← emptied]
    exact (setSlot_slots i i none _).trans (if_pos rfl)
  obtain ⟨j, empty⟩ : ∃ j, emptySlot x = some j := by
    rcases findSlot_spec Option.isNone x with ⟨j, found, -⟩ | ⟨-, none_empty⟩
    · exact ⟨j, found⟩
    · cases (none_empty i).symm.trans (Option.isNone_iff_eq_none.mpr empty_i)
  obtain ⟨noStart, raised⟩ := promote_engine start' reached empty .afterFrame
  have slot := promote_slot start' reached empty .afterFrame
  rw [← takes] at noStart raised slot
  have alone := slotsAlone_finish s (completeOk w s)
  obtain ⟨v, at_j, accounts⟩ := (holdsAccounted_of_eq slot).finish s
  obtain ⟨_, _, _, _, _, rfl⟩ := accounts
  rw [serial] at raised
  exact ⟨alone.pendingStart.trans noStart, alone.serial.trans raised, j, _, at_j, rfl, rfl, rfl, rfl, congrArg nextSerial serial⟩

end

end

end Sys2Proof.Proofs
end

section
/-! PROOFS. SUCCESSFUL_COMPLETION (O43; R157, R158, R163, R167, R169, R171). -/

namespace Sys2Proof.Proofs

open Sys2Proof Sys2Proof.Machine Sys2Proof.Safety

/-! ### The writer as a successful completion leaves it -/

/-- Of the writer a written content changes the skipped list and the unlisted count alone, and a fault record alone does. -/
theorem contentWritten_writer (addr : Nat) (content : Content) (x : State) :
    ∃ skipped unlisted, (contentWritten addr content x).writer = { x.writer with skipped := skipped, unlisted := unlisted } := by
  cases content with
  | fault addrs n => exact ⟨_, _, rfl⟩
  | notes => exact ⟨x.writer.skipped, x.writer.unlisted, rfl⟩
  | audio => exact ⟨x.writer.skipped, x.writer.unlisted, by simp only [contentWritten, modifySlot_frame]⟩
  | index =>
    exact ⟨x.writer.skipped, x.writer.unlisted, by simp only [contentWritten, promote_frame, raise_writer, setSlot_writer]⟩

/-- The station back in NORMAL with its held content taken, as the fault record of MEDIA RETRY leaves it (R171). -/
def backToNormal (x : State) : State := { x with writer := { x.writer with capture := .normal, held := none } }

theorem retrySucceeded_of_content {x : State} {content : Content} (held : x.writer.held = some content)
    (notFault : ∀ addrs n, content ≠ .fault addrs n) : retrySucceeded x = reissue content (backToNormal x) := by
  unfold retrySucceeded
  rw [held]
  cases content with
  | fault addrs n => exact absurd rfl (notFault addrs n)
  | audio => rfl
  | index => rfl
  | notes => rfl

theorem retrySucceeded_of_nothing {x : State}
    (nothing : ∀ content, x.writer.held = some content → ∃ addrs n, content = .fault addrs n) :
    retrySucceeded x = backToNormal x := by
  unfold retrySucceeded
  cases held : x.writer.held with
  | none => rfl
  | some content =>
    obtain ⟨addrs, n, fault⟩ := nothing content held
    rw [fault]
    rfl

theorem fault_or_not (content : Content) : (∃ addrs n, content = .fault addrs n) ∨ ∀ addrs n, content ≠ .fault addrs n := by
  cases content with
  | fault addrs n => exact .inl ⟨addrs, n, rfl⟩
  | audio => exact .inr fun _ _ same => by cases same
  | index => exact .inr fun _ _ same => by cases same
  | notes => exact .inr fun _ _ same => by cases same

/-- MEDIA RETRY's success returns the writer to NORMAL, and changes besides the held content and the write in flight alone. -/
theorem retrySucceeded_writer (x : State) :
    ∃ held flight, (retrySucceeded x).writer = { x.writer with capture := .normal, held := held, inFlight := flight } := by
  by_cases content : ∃ y, x.writer.held = some y ∧ ∀ addrs n, y ≠ .fault addrs n
  · obtain ⟨y, held, notFault⟩ := content
    obtain ⟨held', flight, writer⟩ := reissue_writer y (backToNormal x)
    exact ⟨held', flight, by rw [retrySucceeded_of_content held notFault, writer]; rfl⟩
  · rw [retrySucceeded_of_nothing fun y held => (fault_or_not y).resolve_right fun notFault => content ⟨y, held, notFault⟩]
    exact ⟨none, x.writer.inFlight, rfl⟩

/-- MEDIA RETRY's success leaves the lists as the content left them. -/
theorem completeOk_listed {s : State} {w : Write} (live : w.stale = false) :
    (completeOk w s).writer.skipped = (contentWritten w.addr w.content (advanceCursor (clearFlight s))).writer.skipped ∧
      (completeOk w s).writer.unlisted = (contentWritten w.addr w.content (advanceCursor (clearFlight s))).writer.unlisted := by
  rw [completeOk_eq, live, if_neg Bool.false_ne_true]
  split
  · obtain ⟨held, flight, normal⟩ := retrySucceeded_writer (contentWritten w.addr w.content (advanceCursor (clearFlight s)))
    rw [normal]
    exact ⟨rfl, rfl⟩
  · exact ⟨rfl, rfl⟩

section

variable {s : State} {w : Write} (live : w.stale = false) (ofRetryCommand : w.ofRetryCommand = true)

include live ofRetryCommand

theorem completeOk_of_retryCommand :
    completeOk w s = retrySucceeded (contentWritten w.addr w.content (advanceCursor (clearFlight s))) := by
  rw [completeOk_eq, live, ofRetryCommand, if_neg Bool.false_ne_true, if_pos rfl]

theorem capture_of_retryCommand : (finish s (completeOk w s)).writer.capture = .normal := by
  obtain ⟨held, flight, normal⟩ := retrySucceeded_writer (contentWritten w.addr w.content (advanceCursor (clearFlight s)))
  obtain ⟨-, -, capture⟩ := finish_writer s (completeOk w s)
  rw [capture, completeOk_of_retryCommand live ofRetryCommand, normal]

end

section

variable {s : State} {w : Write} {a b c : Nat} (range : s.writer.range = some (a, b)) (cursor : s.writer.cursor = some c)

include range cursor

theorem written_writer :
    ∃ skipped unlisted,
      (contentWritten w.addr w.content (advanceCursor (clearFlight s))).writer =
        { s.writer with
          inFlight := none, skipped := skipped, unlisted := unlisted, cursor := some (c + 1)
          space := some (spaceOf (b - c)) } := by
  obtain ⟨skipped, unlisted, written⟩ := contentWritten_writer w.addr w.content (advanceCursor (clearFlight s))
  exact ⟨skipped, unlisted, by rw [written, advanceCursor_writer (s := clearFlight s) range cursor]; rfl⟩

/-- Once its cursor has advanced, a completion that is stale leaves the writer, and one that is not sets what its content and MEDIA
RETRY set. -/
theorem completeOk_writer :
    ∃ skipped unlisted capture held flight,
      (completeOk w s).writer =
        { s.writer with
          skipped := skipped, unlisted := unlisted, cursor := some (c + 1), space := some (spaceOf (b - c))
          capture := capture, held := held, inFlight := flight } := by
  obtain ⟨skipped, unlisted, written⟩ := written_writer (w := w) range cursor
  rw [completeOk_eq]
  split_ifs
  · exact ⟨_, _, _, _, _, advanceCursor_writer (s := clearFlight s) range cursor⟩
  · obtain ⟨held, flight, normal⟩ := retrySucceeded_writer (contentWritten w.addr w.content (advanceCursor (clearFlight s)))
    exact ⟨skipped, unlisted, .normal, held, flight, by rw [normal, written]⟩
  · exact ⟨_, _, _, _, _, written⟩

theorem completeOk_of_stale_writer (stale : w.stale = true) :
    (completeOk w s).writer =
      { s.writer with inFlight := none, cursor := some (c + 1), space := some (spaceOf (b - c)) } := by
  rw [completeOk_eq, if_pos stale]
  exact advanceCursor_writer (s := clearFlight s) range cursor

theorem completeOk_of_first_writer (live : w.stale = false) (notRetryCommand : w.ofRetryCommand = false) :
    (completeOk w s).writer.held = s.writer.held := by
  obtain ⟨skipped, unlisted, written⟩ := written_writer (w := w) range cursor
  rw [completeOk_eq, live, notRetryCommand, if_neg Bool.false_ne_true, if_neg Bool.false_ne_true, written]

end

section

variable {s : State} {w : Write} {a b c : Nat} (run : s.port.phase = .run) (range : s.writer.range = some (a, b))
  (cursor : s.writer.cursor = some c)

include run

theorem completeOk_run : (completeOk w s).port.phase = .run := by
  simp only [completeOk_frame]
  exact run

include range cursor

theorem finish_of_written_fault {addrs : List Nat} {n : Nat} (live : w.stale = false) (content : w.content = .fault addrs n) :
    (finish s (completeOk w s)).writer.skipped = (s.writer.skipped.filter fun x => !addrs.contains x) ∧
      (finish s (completeOk w s)).writer.unlisted = s.writer.unlisted - n := by
  obtain ⟨held, flight, ended⟩ := finish_writer_fields s (completeOk_run (w := w) run)
  obtain ⟨skipped, unlisted⟩ := completeOk_listed (s := s) live
  have advanced := advanceCursor_writer (s := clearFlight s) range cursor
  rw [ended]
  refine ⟨skipped.trans ?_, unlisted.trans ?_⟩
  · rw [content, contentWritten, clearListed, advanced]
    rfl
  · rw [content, contentWritten, clearListed, advanced]
    rfl

/-! ### The fault record of MEDIA RETRY (R171) -/

section

variable (live : w.stale = false) (ofRetryCommand : w.ofRetryCommand = true)

include live ofRetryCommand

theorem reissue_of_retryCommand {x : Content} (held : s.writer.held = some x) (notFault : ∀ addrs n, x ≠ .fault addrs n) :
    let t := finish s (completeOk w s)
    (64 < b - c ∨ (0 < b - c ∧ ∀ i, isAudioOf i x = false) →
      t.writer.held = none ∧
        t.writer.inFlight =
          some { addr := c + 1, content := x, attempt := .retry, stale := false, ofRetryCommand := false }) ∧
    (b - c ≤ 64 → (∃ i, isAudioOf i x = true) →
      t.writer.held = none ∧ ∀ y, t.writer.inFlight = some y → y.attempt = .first ∧ y.content ≠ x) ∧
    (b - c = 0 → (∀ i, isAudioOf i x = false) → t.writer.held = some x ∧ t.writer.inFlight = none) := by
  obtain ⟨skipped, unlisted, written⟩ := written_writer (w := w) range cursor
  have again : completeOk w s =
      reissue x (backToNormal (contentWritten w.addr w.content (advanceCursor (clearFlight s)))) := by
    rw [completeOk_of_retryCommand live ofRetryCommand]
    exact retrySucceeded_of_content (by rw [written]; exact held) notFault
  have normal : (backToNormal (contentWritten w.addr w.content (advanceCursor (clearFlight s)))).writer =
      { s.writer with
        inFlight := none, skipped := skipped, unlisted := unlisted, cursor := some (c + 1), space := some (spaceOf (b - c))
        capture := .normal, held := none } := by
    rw [backToNormal, written]
  have inRun : (backToNormal (contentWritten w.addr w.content (advanceCursor (clearFlight s)))).port.phase = .run := by
    simp only [backToNormal, contentWritten_frame, advanceCursor_frame, clearFlight_port]
    exact run
  obtain ⟨issued, dropped, kept⟩ := finish_reissue s x inRun (by rw [normal]) (by rw [normal]) (by rw [normal])
  rw [again]
  refine ⟨fun room => ?_, dropped, kept⟩
  obtain ⟨nothing, -, flight⟩ := issued room
  exact ⟨nothing, flight⟩

theorem held_of_retryCommand_of_fault {addrs : List Nat} {n : Nat} (held : s.writer.held = some (.fault addrs n)) :
    (finish s (completeOk w s)).writer.held = none := by
  obtain ⟨skipped, unlisted, written⟩ := written_writer (w := w) range cursor
  refine finish_held_of_none s (completeOk_run run) ?_
  rw [completeOk_of_retryCommand live ofRetryCommand, retrySucceeded_of_nothing fun x found => ?_]
  · rfl
  · rw [written] at found
    cases held.symm.trans found
    exact ⟨addrs, n, rfl⟩

end

/-! ### What no content decides -/

/-- On a full card held audio is dropped by every successful completion. -/
theorem heldAudio_dropped {x : Content} (held : s.writer.held = some x) (audio : ∃ i, isAudioOf i x = true)
    (reserve : b - c ≤ 64) :
    (finish s (completeOk w s)).writer.held = none := by
  have run' := completeOk_run (w := w) run
  obtain ⟨skipped, unlisted, capture, _, _, writer⟩ := completeOk_writer (w := w) range cursor
  have space : (completeOk w s).writer.space = some (spaceOf (b - c)) := by rw [writer]
  obtain ⟨i, audio_i⟩ := audio
  cases stale : w.stale with
  | true =>
    have same : (completeOk w s).writer.held = s.writer.held := by rw [completeOk_of_stale_writer range cursor stale]
    exact finish_held_of_dropped s run' space (same.trans held) audio_i reserve
  | false =>
    cases ofRetryCommand : w.ofRetryCommand with
    | false =>
      have same := completeOk_of_first_writer range cursor stale ofRetryCommand
      exact finish_held_of_dropped s run' space (same.trans held) audio_i reserve
    | true =>
      have notFault : ∀ addrs n, x ≠ .fault addrs n := fun addrs n same => by rw [same] at audio_i; cases audio_i
      obtain ⟨-, dropped, -⟩ := reissue_of_retryCommand run range cursor stale ofRetryCommand held notFault
      exact (dropped reserve ⟨i, audio_i⟩).1

/-- A stale completion changes neither capture state nor lists, and no take's written frames. -/
theorem completeOk_of_stale (stale : w.stale = true) :
    let t := finish s (completeOk w s)
    t.writer.capture = s.writer.capture ∧ t.writer.skipped = s.writer.skipped ∧ t.writer.unlisted = s.writer.unlisted ∧
      isPending .takeClosed t = isPending .takeClosed s ∧
      ∀ (i : Fin 3) (u : Take), s.takes.slots[i] = some u →
        ∃ v, t.takes.slots[i] = some v ∧ v.w = u.w ∧ v.blocks = u.blocks ∧ v.tracks = u.tracks := by
  have writer := completeOk_of_stale_writer range cursor stale
  obtain ⟨held, flight, ended⟩ := finish_writer_fields s (completeOk_run (w := w) run)
  have ends := afterAdvance_completeOk (w := w) range cursor
  rw [if_pos stale] at ends
  refine ⟨by rw [ended, writer], by rw [ended, writer], by rw [ended, writer], ?_,
    fun i u => slot_of_no_content (landed_clearFlight range cursor) ends⟩
  rw [isPending_of_notices (finish_notices _ _), completeOk_eq, if_pos stale,
    isPending_advanceCursor (s := clearFlight s) range cursor (by decide) (by decide)]
  rfl

theorem finish_completeOk_writer :
    (finish s (completeOk w s)).writer.cursor = some (c + 1) ∧ (finish s (completeOk w s)).writer.range = some (a, b) ∧
      (finish s (completeOk w s)).writer.space = some (spaceOf (b - c)) ∧
      (finish s (completeOk w s)).writer.failed = s.writer.failed := by
  obtain ⟨held, flight, ended⟩ := finish_writer_fields s (completeOk_run (w := w) run)
  obtain ⟨skipped, unlisted, capture, _, _, writer⟩ := completeOk_writer (w := w) range cursor
  rw [ended, writer]
  exact ⟨rfl, range, rfl, rfl⟩

end

/-- Settles O43: the cursor advances with the space state, a live content has its effect, and MEDIA RETRY's re-issues. -/
theorem successfulCompletionByContent : Obligations.SuccessfulCompletionByContent := by
  intro s
  refine ⟨exec_successfulCompletion_of_free, fun w c a b run flight cursor range => ⟨_, exec_successfulCompletion flight, ?_⟩⟩
  obtain ⟨cursor', range', space', failed⟩ := finish_completeOk_writer (w := w) run range cursor
  obtain ⟨-, notes⟩ := finish_store s (completeOk w s)
  refine ⟨cursor', range', space', failed, ?_, ?_, ?_, ?_, ?_, notes.trans (sameNotes_completeOk w s).notes,
    spaceTakesEffect_finish run (landed_clearFlight range cursor) (afterAdvance_completeOk range cursor),
    fun x => heldAudio_dropped run range cursor, completeOk_of_stale run range cursor, fun live => ⟨?_, ?_, ?_, ?_, ?_⟩⟩
  case refine_6 =>
    intro i words serial first seq frames u content holds
    obtain ⟨v, at_i, written, blocks, firstBlock, sr, label, tracks⟩ := finish_of_written_audio range cursor live content holds
    refine ⟨v, at_i, written, blocks, firstBlock, sr, label, fun n x track clips dropouts => ?_⟩
    have tallied := talliedBy_foldl (n.val + 1) (wordPlace u.tracks n) frames clips dropouts
    exact ⟨_, by rw [tracks]; exact tallyBlock_some track, tallied.name, tallied.dropouts, tallied.clips, tallied.firstClip⟩
  case refine_7 => exact fun l content k x => finish_of_written_notes live content
  case refine_8 =>
    intro i words r content
    refine ⟨isPending_takeClosed_of_written_index live content, fun noStart => slot_of_written_index live content ?_,
      fun former some_left reserve => slot_of_written_index live content ?_,
      fun q above => start_of_written_index range cursor live content above⟩
    · exact (revises_advanceCursor (clearFlight s)).pendingStart noStart
    · rw [advanceCursor_to_full (s := clearFlight s) range cursor former some_left reserve]
      exact forcedStop_pendingStart _
  case refine_9 => exact fun addrs n => finish_of_written_fault run range cursor live
  case refine_10 =>
    intro ofRetryCommand
    refine ⟨capture_of_retryCommand live ofRetryCommand, fun x held notFault => ?_,
      fun addrs n => held_of_retryCommand_of_fault run range cursor live ofRetryCommand⟩
    obtain ⟨issued, dropped, kept⟩ := reissue_of_retryCommand run range cursor live ofRetryCommand held notFault
    exact ⟨issued, fun reserve audio => (dropped reserve audio).2, kept⟩
  all_goals simp only [finish_frame, completeOk_frame]

end Sys2Proof.Proofs
end

section
/-! PROOFS. The notices: every event raises kinds one by one, and ACK NOTICES, SET NOTICE MASK, power-on and the RESET line alone do
anything else to them; so the attention line stays driven and a kind stays pending (R184 to R187). -/

namespace Sys2Proof.Proofs

open Sys2Proof Sys2Proof.Machine Sys2Proof.Safety

/-! ### Notices that come of others by raises (R185) -/

/-- The notice unit b comes of a by raises alone, each with the attention line driven again (R185, R187). -/
inductive Raises (a : NoticeUnit) : NoticeUnit → Prop
  | none : Raises a a
  | raise {b : NoticeUnit} (before : Raises a b) (k : Notice) :
      Raises a (noticeUnit (b.pending ||| BitVec.twoPow 20 k.bit) b.mask)

theorem Raises.mask {a b : NoticeUnit} (raises : Raises a b) : b.mask = a.mask := by
  induction raises with
  | none => rfl
  | raise _ k ih => exact ih

/-- A raise takes no kind away (R185). -/
theorem Raises.pending {a b : NoticeUnit} (raises : Raises a b) (k : Notice) (pending : a.pending.getLsbD k.bit = true) :
    b.pending.getLsbD k.bit = true := by
  induction raises with
  | none => exact pending
  | raise _ j ih => simp only [noticeUnit, BitVec.getLsbD_or, ih, Bool.true_or]

/-- The attention line is driven from the pending kinds that are not masked (R187). -/
def LineDriven (u : NoticeUnit) : Prop := u.attention = true ↔ ∃ k : Fin 20, u.pending[k] = true ∧ u.mask[k] = false

theorem lineDriven_noticeUnit (pending mask : BitVec 20) : LineDriven (noticeUnit pending mask) :=
  attentionOf_iff pending mask

theorem Raises.lineDriven {a b : NoticeUnit} (raises : Raises a b) (driven : LineDriven a) : LineDriven b := by
  cases raises with
  | none => exact driven
  | raise _ k => exact lineDriven_noticeUnit _ _

theorem raises_of_eq {a : NoticeUnit} {s t : State} (h : Raises a s.notices) (same : t.notices = s.notices) :
    Raises a t.notices := by
  rw [same]
  exact h

theorem raises_endRequest {a : NoticeUnit} (s : State) {r : ResponseCode × State} (h : Raises a r.2.notices) :
    Raises a (endRequest s r).notices := by
  simpa only [endRequest_frame] using h

/-! ### The operations that raise -/

section

variable {a : NoticeUnit} {s : State} (h : Raises a s.notices)

include h

theorem raises_raise (k : Notice) : Raises a (raise k s).notices := h.raise k

theorem raises_raiseIf (c : Bool) (k : Notice) : Raises a (raiseIf c k s).notices := by
  unfold raiseIf
  split
  · exact h.raise k
  · exact h

theorem raises_markOriginLost (i : Fin 3) : Raises a (markOriginLost i s).notices := by
  refine raises_raise ?_ _
  simpa only [modifySlot_frame] using h

/-! ### Clips, starts and stops (R22, R39, R59 to R70) -/

theorem raises_offerClip (src : ClipSource) (serial : Option Nat) (p : Nat) : Raises a (offerClip src serial p s).notices := by
  unfold offerClip
  split
  · exact h
  · exact h.raise .clip

theorem raises_convertFrame (conv : Vector Converted 16) : Raises a (convertFrame conv s).notices := by
  unfold convertFrame
  dsimp only
  split
  · exact h
  · refine raises_offerClip ?_ _ _ _
    exact h

theorem raises_mixFrame (conv : Vector Converted 16) : Raises a (mixFrame conv s).1.notices := by
  unfold mixFrame
  split
  · simp only [sendMix_notices, countBlockFrame_frame, raisePeaks_notices]
    split
    · refine raises_offerClip ?_ _ _ _
      exact h
    · exact h
  · exact h

theorem raises_startSlot (v : RingView) (label : Label) (origin p : Nat) (flags : TakeFlags) :
    Raises a (startSlot v label origin p flags s).notices := by
  unfold startSlot
  split
  · exact h
  · dsimp only
    split
    · exact raises_markOriginLost (h.raise .takeStarted) _
    · exact h.raise .takeStarted

theorem raises_promote (v : RingView) : Raises a (promote v s).notices := by
  unfold promote
  split
  · split
    · refine raises_startSlot ?_ _ _ _ _ _
      exact h
    · exact h
  · exact h

theorem raises_promoteAtStamp : Raises a (promoteAtStamp s).notices := by
  unfold promoteAtStamp
  split
  · split
    · exact h
    · refine raises_promote ?_ _
      exact h
  · exact h

theorem raises_takeArrival : Raises a (takeArrival s).notices := by
  have arrived : Raises a (arriveSlot 2 (arriveSlot 1 (arriveSlot 0 s))).notices := by
    simpa only [arriveSlot_frame] using h
  unfold takeArrival arrivePending
  split
  · exact arrived
  · split <;> exact arrived

theorem raises_startLocal (v : RingView) (src : Source) : Raises a (startLocal v src s).notices := by
  unfold startLocal
  dsimp only
  split
  · exact raises_startSlot h _ _ _ _ _
  · exact h

theorem raises_localStart (v : RingView) (src : Source) : Raises a (localStart v src s).2.notices := by
  have cut (i : Fin 3) (c : Nat) : Raises a (cutPostRoll i c s).notices := by simpa only [cutPostRoll_frame] using h
  unfold localStart
  split
  · split
    · exact h.raise _
    · exact raises_startLocal h _ _
  · split
    · exact h.raise _
    · split
      · exact raises_startLocal (cut _ _) _ _
      · exact raises_startLocal h _ _
  · exact h
  · exact h

theorem raises_localStop : Raises a (localStop s).2.notices := by simpa only [localStop_frame] using h

/-! ### The arrival of a frame (R25, R32, R39, R45) -/

theorem raises_stampFrame : Raises a (stampFrame s).notices := by
  refine raises_raiseIf ?_ _ _
  exact h

theorem raises_fireCue : Raises a (fireCue s).notices := by
  unfold fireCue
  split
  · split
    · unfold cueRequest
      split
      · refine raises_localStart ?_ _ _
        exact h
      · refine raises_localStop ?_
        exact h
    · exact h
  · exact h

theorem raises_offerFrame (f : RingFrame) : Raises a (offerFrame f s).notices := by
  unfold offerFrame
  split
  · exact h
  · exact h
  · simp only [overrun, reportDiscard_frame]
    exact h.raise .overrun

theorem raises_finish (before : State) : Raises a (finish before s).notices := by simpa only [finish_frame] using h

theorem raises_runFrame (f : FrameIn) : Raises a (runFrame f s).notices := by
  have met := raises_fireCue (raises_promoteAtStamp (raises_takeArrival h))
  unfold runFrame
  dsimp only
  refine raises_promote (raises_offerFrame (raises_mixFrame (raises_convertFrame ?_ _) _) _) _
  exact met

theorem raises_arriveFrame (f : FrameIn) : Raises a (arriveFrame f s).notices := by
  have stamped := raises_stampFrame h
  unfold arriveFrame
  split
  · exact raises_finish (raises_runFrame stamped f) s
  · exact stamped

/-! ### Following and merging (R107 to R120) -/

theorem raises_pendAnnounced (x : Identity) (reached : Bool) : Raises a (pendAnnounced x reached s).notices := by
  refine raises_promote ?_ _
  exact h

theorem raises_followRolling (x : Identity) : Raises a (followRolling x s).notices := by
  unfold followRolling
  split_ifs
  · exact h.raise _
  · exact raises_pendAnnounced h x false
  · exact raises_startSlot h _ _ _ _ _
  · exact raises_pendAnnounced h x true

theorem raises_lateJoin (x : Identity) (e : Nat) : Raises a (lateJoin x e s).notices := by
  unfold lateJoin
  split_ifs
  · exact h.raise _
  · exact raises_pendAnnounced h x false
  · split
    · simp only [applyStop_frame]
      exact raises_startSlot h _ _ _ _ _
    · exact raises_pendAnnounced h x true

theorem raises_followIdle (p : Fin 8) (x : Announced) : Raises a (followIdle p x s).notices := by
  unfold followIdle
  split
  · split
    · exact raises_lateJoin h _ _
    · exact raises_followRolling h _
  · exact raises_followRolling h _

theorem raises_sameTake (p : Fin 8) (x : Announced) (i : Fin 3) : Raises a (sameTake p x i s).notices := by
  simpa only [sameTake_frame] using h

theorem raises_mergeInto (x : Identity) (i : Fin 3) (u : Take) : Raises a (mergeInto x i u s).notices := by
  unfold mergeInto
  dsimp only
  split
  · exact raises_markOriginLost (h.raise .merged) i
  · exact h.raise .merged

theorem raises_newTake (p : Fin 8) (x : Announced) (i : Fin 3) : Raises a (newTake p x i s).notices := by
  refine raises_followIdle ?_ p x
  simpa only [cutPostRoll_frame] using h

theorem raises_meetPending (x : Announced) (q : PendingStart) : Raises a (meetPending x q s).notices := by
  unfold meetPending
  split_ifs
  · exact h
  · exact raises_promote (h.raise .merged) _
  · exact h

theorem raises_meetAnnouncement (p : Fin 8) (x : Announced) : Raises a (meetAnnouncement p x s).notices := by
  unfold meetAnnouncement
  split
  · split
    · exact h
    · split_ifs
      · exact raises_sameTake h p x _
      · exact raises_newTake h p x _
      · exact raises_sameTake (raises_mergeInto h _ _ _) p x _
      · exact h
  · split
    · exact raises_meetPending h x _
    · exact raises_followIdle h p x

theorem raises_depart (i : Fin 3) : Raises a (depart i s).notices := by simpa only [depart, applyStop_frame] using h

theorem raises_takeAnnouncement (p : Fin 8) (f : StatusFields) : Raises a (takeAnnouncement p f s).notices := by
  unfold takeAnnouncement
  split
  · split
    · exact raises_depart h _
    · exact h
  · split_ifs
    · exact h
    · exact h
    · split
      · split
        · unfold afterDeparture
          split
          · exact raises_newTake (raises_depart h _) p _ _
          · exact raises_depart h _
        · exact raises_meetAnnouncement h p _
      · exact raises_meetAnnouncement h p _

/-! ### A received frame (R97 to R103, R136 to R141) -/

theorem raises_setHeard (p : Fin 8) (u : Nat) : Raises a (setHeard p u s).notices := by
  simpa only [setHeard_frame] using h

theorem raises_takeStatus (p : Fin 8) (payload : List Byte) (arrival : Nat) :
    Raises a (takeStatus p payload arrival s).notices := by
  have applied : Raises a (applyStatus p (readStatusPayload payload) arrival s).notices := by
    rw [applyStatus_eq]
    refine raises_raiseIf ?_ _ _
    exact h
  unfold takeStatus
  simp only [testCatchUp_frame]
  split
  · exact raises_takeAnnouncement applied p _
  · exact applied

theorem raises_rejectNote (p : Fin 8) (seq : Nat) : Raises a (rejectNote p seq s).notices := by
  unfold rejectNote
  dsimp only
  split
  · exact raises_setHeard (h.raise .notesLost) p _
  · exact h

theorem raises_acceptNote (p : Fin 8) (n : Note) : Raises a (acceptNote p n s).notices := by
  unfold acceptNote
  dsimp only
  split_ifs
  · exact h
  · refine raises_setHeard (raises_raise ?_ .noteArrived) p _
    simpa only [tryAttach_frame, storeNote_notices] using h
  · exact h

theorem raises_takeNote (p : Fin 8) (payload : List Byte) : Raises a (takeNote p payload s).notices := by
  have entered : Raises a (applyRun p (field payload 0 2) s).notices := by simpa only [applyRun_frame] using h
  unfold takeNote takePeerNote
  dsimp only
  split
  · exact entered
  · split
    · exact raises_rejectNote entered p _
    · split
      · exact raises_acceptNote entered p _
      · exact raises_rejectNote entered p _

theorem raises_takeGone (p : Fin 8) (payload : List Byte) : Raises a (takeGone p payload s).notices := by
  unfold takeGone
  dsimp only
  split
  · exact h
  · refine raises_setHeard (raises_raiseIf ?_ _ .notesLost) p _
    exact h

theorem raises_peerHeard (p : Fin 8) : Raises a (peerHeard p s).notices := by
  refine raises_raiseIf ?_ _ .peerChange
  exact h

theorem raises_handOn (kind : Byte) (p : Fin 8) (payload : List Byte) (arrival : Nat) :
    Raises a (handOn kind p payload arrival s).notices := by
  unfold handOn
  split
  · exact raises_takeStatus h p payload arrival
  · exact raises_takeNote h p payload
  · simpa only [takeRequest_frame] using h
  · exact raises_takeGone h p payload

theorem raises_processFrame (kind : Byte) (f : HeardFrame) (arrival : Nat) :
    Raises a (processFrame kind f arrival s).notices := by
  unfold processFrame
  split_ifs
  · exact h
  · exact h.raise .stationClash
  · exact raises_handOn (raises_peerHeard h _) kind _ f.payload arrival

theorem raises_endReception : Raises a (endReception s).notices := by
  unfold endReception
  dsimp only
  split
  · split
    · refine raises_processFrame ?_ _ _ _
      exact h
    · exact h
  · exact h
  · exact h

theorem raises_lineIdle : Raises a (lineIdle s).notices := by
  unfold lineIdle
  split
  · refine raises_finish (raises_endReception ?_) s
    simpa only [becomeIdle_frame] using h
  · exact h

theorem raises_receiveFrame (kind : Byte) (f : HeardFrame) : Raises a (receiveFrame kind f s).notices := by
  unfold receiveFrame
  split
  · refine raises_lineIdle ?_
    simpa only [hearFrame_frame] using h
  · exact h

theorem raises_peerAbsent (p : Fin 8) : Raises a (peerAbsent p s).notices := by
  have lost {u : State} (h : Raises a u.notices) : Raises a (loseOrigin p u).notices := by
    unfold loseOrigin
    split
    · split
      · exact raises_markOriginLost h _
      · exact h
    · exact h
  unfold peerAbsent
  split
  · exact lost (h.raise .peerChange)
  · exact h

/-! ### The card (R79, R158, R167 to R171) -/

theorem raises_setSpace : Raises a (setSpace s).notices := by
  unfold setSpace
  split
  · exact h
  · dsimp only
    split_ifs
    · exact h
    · split
      · exact h.raise .nearFull
      · simp only [forcedStop_frame]
        exact h.raise .full
      · exact h

theorem raises_advanceCursor : Raises a (advanceCursor s).notices := by
  refine raises_setSpace ?_
  exact h

theorem raises_contentWritten (addr : Nat) (content : Content) : Raises a (contentWritten addr content s).notices := by
  unfold contentWritten
  split
  · simpa only [modifySlot_frame] using h
  · exact h
  · exact raises_promote (h.raise .takeClosed) _
  · exact h

theorem raises_completeOk (w : Write) : Raises a (completeOk w s).notices := by
  have advanced : Raises a (advanceCursor (clearFlight s)).notices := by
    refine raises_advanceCursor ?_
    exact h
  have written := raises_contentWritten advanced w.addr w.content
  unfold completeOk
  dsimp only
  split_ifs
  · exact advanced
  · simpa only [retrySucceeded_frame] using written
  · exact written

theorem raises_failedOutcome (w : Write) : Raises a (failedOutcome w s).notices := by
  unfold failedOutcome
  split
  · exact h.raise .mediaHalted
  · split
    · simpa only [reissue_frame] using h
    · exact h.raise .mediaFault

theorem raises_completeFailed (w : Write) : Raises a (completeFailed w s).notices := by
  have advanced : Raises a (advanceCursor (listFailure w.addr (clearFlight s))).notices := by
    refine raises_advanceCursor ?_
    simpa only [listFailure_frame, clearFlight_notices] using h
  unfold completeFailed
  dsimp only
  split
  · exact advanced
  · exact raises_failedOutcome advanced w

theorem raises_successfulCompletion : Raises a (successfulCompletion s).notices := by
  unfold successfulCompletion
  split
  · exact h
  · exact raises_finish (raises_completeOk h _) s

theorem raises_failedCompletion : Raises a (failedCompletion s).notices := by
  unfold failedCompletion
  split
  · exact h
  · exact raises_finish (raises_completeFailed h _) s

/-! ### The clock, the key and the host's commands (R31, R34, R61, R180, R183) -/

theorem raises_clockLost :
    Raises a
      (if s.counter.clock = .running then
        raise .clockLost
          { advanceTime (s.counter.lossTimer.getD s.time + Config.lossTime) s with
            counter := { s.counter with clock := .lost, lossTimer := none } }
      else s).notices := by
  split
  · exact h.raise .clockLost
  · exact h

theorem raises_referencePulse : Raises a (referencePulse s).notices := by
  unfold referencePulse
  dsimp only
  split_ifs
  · exact h.raise .refDrift
  · exact h
  · exact h

theorem raises_recordKey : Raises a (recordKey s).notices := by
  have started := raises_endRequest s (r := localStart .afterFrame .key s) (raises_localStart h _ _)
  have stopped := raises_endRequest s (r := localStop s) (raises_localStop h)
  unfold recordKey
  split
  · split
    · exact started
    · exact started
    · exact stopped
    · exact stopped
  · exact h

theorem raises_commit (u : Unit) : Raises a (commit u s).notices := by
  unfold commit
  split
  · simp only [respond_notices, enterRun, requestStatus_frame]
    refine raises_setSpace ?_
    exact h
  · exact h

theorem raises_restartAll : Raises a (restartAll s).notices := by
  simp only [restartAll, restartNotes_notices, restartWriter_notices, restartMix_notices, emptyRing_notices]
  refine raises_raiseIf ?_ _ .takeAbandoned
  exact h

theorem raises_captureRestart (u : Unit) : Raises a (captureRestart u s).notices :=
  raises_finish (raises_restartAll h) s

theorem raises_hostCommand {α : Type} {p : TakenIn} {operands : Option α} {act : α → State → State}
    (taken : ∀ x, Raises a (act x s).notices) : Raises a (hostCommand p operands act s).notices := by
  unfold hostCommand
  split
  · split
    · exact taken _
    · exact h
  · exact h

end

/-! ### Every command (R185, R186) -/

/-- What a command does to the notices. -/
inductive NoticeEvent (i : Instr) (s t : State) : Prop
  | raised (raises : Raises s.notices t.notices)
  | masked {args : List Byte} (row : i = .setNoticeMask args) (set : BitVec 20)
      (notices : t.notices = noticeUnit s.notices.pending set)
  | acknowledged {args : List Byte} {v : Nat} (row : i = .ackNotices args) (read : readNumber 4 args = some v)
      (kinds : v < 2 ^ 20)
      (notices : t.notices = noticeUnit (s.notices.pending &&& ~~~BitVec.ofNat 20 v) s.notices.mask)
  | restarted (strap : Fin 8) (row : i = .powerOn strap ∨ i = .reset strap) (reset : t = restart strap s)

theorem noticeEvent_setNoticeMask (args : List Byte) (s : State) :
    NoticeEvent (.setNoticeMask args) s (hostCommand .both (readNumber 4 args) setNoticeMask s) := by
  unfold hostCommand
  split
  · split
    case h_1 v _ =>
      unfold setNoticeMask
      split
      case h_1 set _ => exact .masked rfl set rfl
      case h_2 => exact .raised .none
    case h_2 => exact .raised .none
  · exact .raised .none

theorem noticeEvent_ackNotices (args : List Byte) (s : State) :
    NoticeEvent (.ackNotices args) s (hostCommand .both (readNumber 4 args) ackNotices s) := by
  unfold hostCommand
  split
  · split
    case h_1 v read =>
      unfold ackNotices noticeSetOf
      split
      case h_1 set named =>
        split at named
        case isTrue kinds =>
          cases named
          exact .acknowledged rfl read kinds rfl
        case isFalse => cases named
      case h_2 => exact .raised .none
    case h_2 => exact .raised .none
  · exact .raised .none

theorem exec_noticeEvent {i : Instr} {s t : State} (executed : exec i s = .next t) : NoticeEvent i s t := by
  have next {u : State} (event : NoticeEvent i s u)
      (answered : Host.Outcome.next u = (.next t : Host.Outcome State Fault Refusal)) : NoticeEvent i s t :=
    Host.Outcome.next.inj answered ▸ event
  have raised {u : State} (raises : Raises s.notices u.notices)
      (answered : Host.Outcome.next u = (.next t : Host.Outcome State Fault Refusal)) : NoticeEvent i s t :=
    next (.raised raises) answered
  have either {c : Prop} [Decidable c] {u : State} (raises : Raises s.notices u.notices)
      (answered : Host.Outcome.next (if c then u else s) = (.next t : Host.Outcome State Fault Refusal)) :
      NoticeEvent i s t := by
    refine raised ?_ answered
    split
    · exact raises
    · exact .none
  have same {u : State} (notices : u.notices = s.notices)
      (answered : Host.Outcome.next u = (.next t : Host.Outcome State Fault Refusal)) : NoticeEvent i s t :=
    raised (raises_of_eq .none notices) answered
  have host {α : Type} {p : TakenIn} {operands : Option α} {act : α → State → State}
      (taken : ∀ x, Raises s.notices (act x s).notices)
      (answered : Host.Outcome.next (hostCommand p operands act s) = (.next t : Host.Outcome State Fault Refusal)) :
      NoticeEvent i s t :=
    raised (raises_hostCommand .none taken) answered
  have hostSame {α : Type} {p : TakenIn} {operands : Option α} {act : α → State → State}
      (same : ∀ x, (act x s).notices = s.notices)
      (answered : Host.Outcome.next (hostCommand p operands act s) = (.next t : Host.Outcome State Fault Refusal)) :
      NoticeEvent i s t :=
    host (fun x => raises_of_eq .none (same x)) answered
  cases i with
  | powerOn strap => exact next (.restarted strap (.inl rfl) rfl) executed
  | reset strap => exact next (.restarted strap (.inr rfl) rfl) executed
  | frameArrival f => exact raised (raises_arriveFrame .none f) executed
  | returnToHigh track f => exact either (raises_arriveFrame .none f) executed
  | cueFire f => exact either (raises_arriveFrame .none f) executed
  | awaitedStop f => exact either (raises_arriveFrame .none f) executed
  | postRollComplete f => exact either (raises_arriveFrame .none f) executed
  | halfDayStop f => exact either (raises_arriveFrame .none f) executed
  | blockEnd f => exact either (raises_arriveFrame .none f) executed
  | pendingStartPromotion => exact either (raises_finish (raises_promote .none .afterFrame) s) executed
  | clockLost => exact raised (raises_clockLost .none) executed
  | referencePulse => exact raised (raises_referencePulse .none) executed
  | recordKey => exact raised (raises_recordKey .none) executed
  | successfulCompletion => exact raised (raises_successfulCompletion .none) executed
  | failedCompletion => exact raised (raises_failedCompletion .none) executed
  | writeIssue => exact same (by simp only [makeDecision_frame]) executed
  | lineIdle => exact raised (raises_lineIdle .none) executed
  | deferralExpiry => exact same (by simp only [deferralExpiry_frame]) executed
  | successfulSend => exact same (by simp only [successfulSend_frame]) executed
  | collision => exact same (by simp only [collision_frame]) executed
  | announceTimerExpiry => exact same (by simp only [announceTimerExpiry_frame]) executed
  | peerAbsent p => exact raised (raises_peerAbsent .none p) executed
  | statusFrame f => exact raised (raises_receiveFrame .none _ f) executed
  | noteFrame f => exact raised (raises_receiveFrame .none _ f) executed
  | noteRequestFrame f => exact raised (raises_receiveFrame .none _ f) executed
  | noteGoneFrame f => exact raised (raises_receiveFrame .none _ f) executed
  | configureClock args => exact hostSame (fun _ => by simp only [configureClock_frame]) executed
  | configureTrack args => exact hostSame (fun _ => by simp only [configureTrack_frame]) executed
  | configureCapture args => exact hostSame (fun _ => by simp only [configureCapture_frame]) executed
  | configureMedia args => exact hostSame (fun _ => by simp only [configureMedia_frame]) executed
  | setRunNumber args => exact hostSame (fun _ => by simp only [setRunNumber_frame]) executed
  | commit args => exact host (raises_commit .none) executed
  | setTrim args => exact hostSame (fun _ => by simp only [setTrim_frame]) executed
  | setGate args => exact hostSame (fun _ => by simp only [setGate_frame]) executed
  | setScene args => exact hostSame (fun _ => by simp only [setScene_frame]) executed
  | setNextTake args => exact hostSame (fun _ => by simp only [setNextTake_frame]) executed
  | jamTimecode args => exact hostSame (fun _ => by simp only [jamTimecode_frame]) executed
  | start args =>
    exact host (fun _ => raises_endRequest s (r := localStart .afterFrame .command s) (raises_localStart .none _ _)) executed
  | stop args => exact host (fun _ => raises_endRequest s (r := localStop s) (raises_localStop .none)) executed
  | addNote args => exact hostSame (fun _ => by simp only [addNote_frame]) executed
  | setCue args => exact hostSame (fun _ => by simp only [setCue_frame]) executed
  | cancelCue args => exact hostSame (fun _ => by simp only [cancelCue_frame]) executed
  | clearClip args => exact hostSame (fun _ => by simp only [clearClip_frame]) executed
  | mediaRetry args => exact hostSame (fun _ => by simp only [mediaRetry_frame]) executed
  | captureRestart args => exact host (raises_captureRestart .none) executed
  | readStatus args => exact hostSame (fun _ => by simp only [answerRead_frame]) executed
  | readSlot args => exact hostSame (fun _ => by simp only [answerRead_frame]) executed
  | readPeer args => exact hostSame (fun _ => by simp only [answerRead_frame]) executed
  | readNote args => exact hostSame (fun _ => by simp only [answerRead_frame]) executed
  | readClip args => exact hostSame (fun _ => by simp only [answerRead_frame]) executed
  | readNotices args => exact hostSame (fun _ => by simp only [answerRead_frame]) executed
  | setNoticeMask args => exact next (noticeEvent_setNoticeMask args s) executed
  | ackNotices args => exact next (noticeEvent_ackNotices args s) executed
  | unknownCommand code args => exact either (u := respond .unknown [] s) .none executed
  | responseRead =>
    exact same (u := { s with port := { s.port with output := responseBytes s.port.response } }) rfl executed
  | lineBusy b => exact same (by simp only [lineBusy_frame]) executed
  | selectionReleased received => exact same rfl executed

/-! ### The attention line and the pending set (R185, R187) -/

theorem lineDriven_restart (strap : Fin 8) (s : State) : LineDriven (restart strap s).notices :=
  lineDriven_noticeUnit 0 0

theorem NoticeEvent.lineDriven {i : Instr} {s t : State} (event : NoticeEvent i s t) (driven : LineDriven s.notices) :
    LineDriven t.notices := by
  cases event with
  | raised raises => exact raises.lineDriven driven
  | masked _ set notices => rw [notices]; exact lineDriven_noticeUnit _ _
  | acknowledged _ _ _ notices => rw [notices]; exact lineDriven_noticeUnit _ _
  | restarted strap _ reset => rw [reset]; exact lineDriven_restart strap s

theorem attentionDriven_kept : KeptByEveryStep AttentionDriven := by
  intro s t driven stepped
  unfold Machine.step at stepped
  split at stepped
  · cases stepped
    exact driven
  · exact (exec_noticeEvent stepped).lineDriven driven

theorem bit_lt (k : Notice) : k.bit < 20 := by cases k <;> decide

/-- An event that takes a kind away is ACK NOTICES naming it, power-on or the RESET line (R185, R186). -/
theorem NoticeEvent.removes {i : Instr} {s t : State} (event : NoticeEvent i s t) {k : Notice}
    (before : isPending k s = true) (after : isPending k t = false) :
    (∃ args v, i = .ackNotices args ∧ readNumber 4 args = some v ∧ v.testBit k.bit = true) ∨
      (∃ strap, i = .powerOn strap ∨ i = .reset strap) := by
  cases event with
  | raised raises => exact absurd (raises.pending k before) (by rw [← isPending, after]; decide)
  | masked _ set notices =>
    rw [isPending, notices] at after
    exact absurd (before.symm.trans after) (by decide)
  | @acknowledged args v row read _ notices =>
    refine .inl ⟨args, v, row, read, ?_⟩
    rw [isPending, notices] at after
    rw [isPending] at before
    simpa only [noticeUnit, BitVec.getLsbD_and, BitVec.getLsbD_not, BitVec.getLsbD_ofNat, before, decide_eq_true (bit_lt k),
      Bool.true_and, Bool.not_eq_false'] using after
  | restarted strap row _ => exact .inr ⟨strap, row⟩

/-- Settles O54: raises drive the line again and take no kind away, and every event but four kinds only raises. -/
theorem attentionIsAlwaysDriven : Obligations.AttentionIsAlwaysDriven := by
  unfold Obligations.AttentionIsAlwaysDriven
  exact ⟨attentionDriven_kept, fun _ _ _ _ executed before after => (exec_noticeEvent executed).removes before after⟩

end Sys2Proof.Proofs
end

section
/-! PROOFS. SETUP stays quiet: in SETUP every command but COMMIT leaves takes, store, queue, peers and card, JAM TIMECODE empties ring
and cue, and RUN is left by power-on and the RESET line alone (R36, R37, R38, R52, R55, R84, R100, R176, R188). -/

namespace Sys2Proof.Proofs

open Sys2Proof Sys2Proof.Machine Sys2Proof.Safety

/-! ### RUN is left by a restart alone (R176, R188) -/

theorem WriterEvent.run_or_restarted {i : Instr} {s t : State} (event : WriterEvent i s t) (run : s.port.phase = .run) :
    t.port.phase = .run ∨ ∃ strap, t = restart strap s := by
  have in_run {c : PortPhase} (same : c = s.port.phase) : c = .run := same.trans run
  cases event with
  | aside phase _ _ => exact .inl (in_run phase)
  | ended phase _ same => exact .inl (in_run (same.phase.trans (by simpa only [finish_frame] using phase)))
  | restarted strap _ reset => exact .inr ⟨strap, reset⟩
  | completed _ _ done => exact .inl (in_run (by simp only [done, finish_frame, completeOk_frame]))
  | failed _ _ done => exact .inl (in_run (by simp only [done, finish_frame, completeFailed_frame]))
  | decided done => exact .inl (in_run (by simp only [done, makeDecision_frame]))
  | retried _ _ same => exact .inl (in_run same.phase)
  | abandoned same => exact .inl (in_run (same.phase.trans (by simp only [finish_frame, restartAll_frame])))
  | configured setup _ _ => cases setup.symm.trans run
  | committed setup _ _ => cases setup.symm.trans run

/-! ### Quiet states (R52, R55, R84, R100, R132) -/

/-- What the promise of a quiet SETUP reads, the phase aside. -/
structure Rest where
  frames : List RingFrame
  slots : Vector (Option Take) 3
  pendingStart : Option PendingStart
  cue : Option Cue
  notes : List StoredNote
  queue : List TxEntry
  tx : TxState
  owed : Bool
  peers : Vector Peer 8
  inFlight : Option Write
  cursor : Option Nat

def restOf (s : State) : Rest :=
  { frames := s.ring.frames, slots := s.takes.slots, pendingStart := s.takes.pendingStart, cue := s.counter.cue
    notes := s.store.notes, queue := s.link.queue, tx := s.link.tx, owed := s.link.owed, peers := s.link.peers
    inFlight := s.writer.inFlight, cursor := s.writer.cursor }

/-- Nothing but settings is kept: what SETUP promises of every block. -/
structure Quiet (s : State) : Prop where
  ring : s.ring.frames = []
  slots : ∀ i : Fin 3, s.takes.slots[i] = none
  pendingStart : s.takes.pendingStart = none
  cue : s.counter.cue = none
  notes : s.store.notes = []
  queue : s.link.queue = [] ∧ s.link.tx = .standby ∧ s.link.owed = false
  peers : ∀ p : Fin 8, s.link.peers[p] = Peer.reset
  card : s.writer.inFlight = none ∧ s.writer.cursor = none

theorem setupQuiet_iff (s : State) : SetupQuiet s ↔ (s.port.phase = .setup → Quiet s) := by
  constructor
  · rintro ⟨ring, slots, pendingStart, cue, notes, queue, peers, card⟩ setup
    exact ⟨ring setup, slots setup, pendingStart setup, cue setup, notes setup, queue setup, peers setup, card setup⟩
  · intro quiet
    exact ⟨fun setup => (quiet setup).ring, fun setup => (quiet setup).slots, fun setup => (quiet setup).pendingStart,
      fun setup => (quiet setup).cue, fun setup => (quiet setup).notes, fun setup => (quiet setup).queue,
      fun setup => (quiet setup).peers, fun setup => (quiet setup).card⟩

theorem quiet_congr {s t : State} (quiet : Quiet s) (same : restOf t = restOf s) : Quiet t where
  ring := (congrArg Rest.frames same).trans quiet.ring
  slots i := (congrArg (fun r : Rest => r.slots[i]) same).trans (quiet.slots i)
  pendingStart := (congrArg Rest.pendingStart same).trans quiet.pendingStart
  cue := (congrArg Rest.cue same).trans quiet.cue
  notes := (congrArg Rest.notes same).trans quiet.notes
  queue := by
    obtain ⟨queue, tx, owed⟩ := quiet.queue
    exact ⟨(congrArg Rest.queue same).trans queue, (congrArg Rest.tx same).trans tx, (congrArg Rest.owed same).trans owed⟩
  peers p := (congrArg (fun r : Rest => r.peers[p]) same).trans (quiet.peers p)
  card := ⟨(congrArg Rest.inFlight same).trans quiet.card.1, (congrArg Rest.cursor same).trans quiet.card.2⟩

theorem quiet_restart (strap : Fin 8) (s : State) : Quiet (restart strap s) where
  ring := rfl
  slots i := Vector.getElem_replicate i.isLt
  pendingStart := rfl
  cue := rfl
  notes := rfl
  queue := ⟨rfl, rfl, rfl⟩
  peers p := Vector.getElem_replicate p.isLt
  card := ⟨rfl, rfl⟩

/-! ### The commands in SETUP (R178) -/

/-- Of a quiet state in SETUP comes a quiet state, or RUN. -/
def StaysQuiet (s t : State) : Prop := Quiet s → Quiet t ∨ t.port.phase = .run

theorem staysQuiet_of_rest {s t : State} (same : restOf t = restOf s) : StaysQuiet s t :=
  fun quiet => .inl (quiet_congr quiet same)

theorem StaysQuiet.refl (s : State) : StaysQuiet s s := staysQuiet_of_rest rfl

theorem staysQuiet_of_eq {s t : State} (same : t = s) : StaysQuiet s t := same ▸ .refl s

theorem staysQuiet_hostCommand {α : Type} {p : TakenIn} {operands : Option α} {act : α → State → State} {s : State}
    (taken : ∀ a, StaysQuiet s (act a s)) : StaysQuiet s (hostCommand p operands act s) := by
  unfold hostCommand
  split
  · split
    · exact taken _
    · exact staysQuiet_of_rest rfl
  · exact staysQuiet_of_rest rfl

section

variable {s : State} (setup : s.port.phase = .setup)

include setup

theorem staysQuiet_arriveFrame (f : FrameIn) : StaysQuiet s (arriveFrame f s) := by
  rw [arriveFrame_of_not_inRun f (inRun_of_setup setup), stampFrame_eq]
  exact staysQuiet_of_rest rfl

theorem staysQuiet_lineBusy (b : Byte) : StaysQuiet s (lineBusy b s) := by
  rw [lineBusy_of_setup setup]
  exact staysQuiet_of_rest rfl

theorem deferralExpiry_of_setup : deferralExpiry s = s := by
  rw [deferralExpiry, inRun_of_setup setup]
  exact if_neg fun both => Bool.false_ne_true both.1

theorem makeDecision_of_setup : makeDecision s = s := by
  rw [makeDecision, mayIssue, inRun_of_setup setup]
  rfl

theorem receiveFrame_of_setup (kind : Byte) (f : HeardFrame) : receiveFrame kind f s = s := by
  rw [receiveFrame, canHear, inRun_of_setup setup]
  rfl

/-- A change of what is announced requests no STATUS in SETUP (R95). -/
theorem staysQuiet_announceChange (before : State) {t : State} (phase : t.port.phase = s.port.phase)
    (same : restOf t = restOf s) : StaysQuiet s (announceChange before t) := by
  rw [announceChange_of_setup before (phase.trans setup)]
  exact staysQuiet_of_rest same

theorem staysQuiet_setScene (name : Text) : StaysQuiet s (setScene name s) :=
  staysQuiet_announceChange setup s rfl rfl

theorem staysQuiet_setNextTake (n : Nat) : StaysQuiet s (setNextTake n s) :=
  staysQuiet_announceChange setup s rfl rfl

/-- A command taken in RUN alone is refused (R178). -/
theorem staysQuiet_runOnly {α : Type} (operands : Option α) (act : α → State → State) :
    StaysQuiet s (hostCommand .runOnly operands act s) := by
  rw [hostCommand_wrongPhase operands act (by rw [setup]; rfl)]
  exact staysQuiet_of_rest rfl

end

section

variable (s : State)

theorem staysQuiet_clockLost :
    StaysQuiet s
      (if s.counter.clock = .running then
        raise .clockLost
          { advanceTime (s.counter.lossTimer.getD s.time + Config.lossTime) s with
            counter := { s.counter with clock := .lost, lossTimer := none } }
      else s) := by
  split
  · exact staysQuiet_of_rest rfl
  · exact .refl s

theorem staysQuiet_referencePulse : StaysQuiet s (referencePulse s) := by
  unfold referencePulse
  dsimp only
  split_ifs <;> exact staysQuiet_of_rest rfl

theorem staysQuiet_successfulCompletion : StaysQuiet s (successfulCompletion s) := by
  intro quiet
  rw [successfulCompletion, quiet.card.1]
  exact .inl quiet

theorem staysQuiet_failedCompletion : StaysQuiet s (failedCompletion s) := by
  intro quiet
  rw [failedCompletion, quiet.card.1]
  exact .inl quiet

theorem staysQuiet_peerAbsent (p : Fin 8) : StaysQuiet s (peerAbsent p s) := by
  intro quiet
  rw [peerAbsent_of_absent (.inr (by rw [quiet.peers p]; rfl))]
  exact .inl quiet

theorem staysQuiet_configureClock (a : ClockArgs) : StaysQuiet s (configureClock a s) := by
  unfold configureClock
  split
  · split
    · refine staysQuiet_of_rest ?_
      simp only [restOf, respond_ring, respond_takes, respond_counter, respond_store, respond_link, respond_writer]
      split <;> rfl
    · exact staysQuiet_of_rest rfl
  · exact staysQuiet_of_rest rfl

theorem staysQuiet_configureTrack (a : TrackArgs) : StaysQuiet s (configureTrack a s) := by
  unfold configureTrack
  split
  · split <;> exact staysQuiet_of_rest rfl
  · exact staysQuiet_of_rest rfl

theorem staysQuiet_configureCapture (a : CaptureArgs) : StaysQuiet s (configureCapture a s) := by
  unfold configureCapture
  split
  · split <;> exact staysQuiet_of_rest rfl
  · exact staysQuiet_of_rest rfl

theorem staysQuiet_configureMedia (a : Nat × Nat) : StaysQuiet s (configureMedia a s) := by
  unfold configureMedia
  split <;> exact staysQuiet_of_rest rfl

theorem staysQuiet_setRunNumber (n : Nat) : StaysQuiet s (setRunNumber n s) := by
  unfold setRunNumber
  split <;> exact staysQuiet_of_rest rfl

/-- COMMIT answers INCOMPLETE, or enters RUN (R180). -/
theorem staysQuiet_commit (u : Unit) : StaysQuiet s (commit u s) := by
  unfold commit
  split
  · refine fun _ => .inr ?_
    simp only [respond, enterRun, requestStatus_frame, setSpace_frame]
  · exact staysQuiet_of_rest rfl

theorem staysQuiet_setTrim (a : Nat × Nat) : StaysQuiet s (setTrim a s) := by
  unfold setTrim
  split <;> exact staysQuiet_of_rest rfl

theorem staysQuiet_setGate (a : Nat × GateSettings) : StaysQuiet s (setGate a s) := by
  unfold setGate
  split <;> exact staysQuiet_of_rest rfl

/-- A jam empties ring and cue, which are empty (R37). -/
theorem staysQuiet_jamTimecode (a : Nat × Nat × Nat × Nat) : StaysQuiet s (jamTimecode a s) := by
  unfold jamTimecode
  dsimp only
  split_ifs
  · exact staysQuiet_of_rest rfl
  · exact fun quiet => .inl { quiet with ring := rfl, cue := rfl }
  · exact staysQuiet_of_rest rfl

theorem staysQuiet_answerRead (data : Option (List Byte)) : StaysQuiet s (answerRead data s) := by
  unfold answerRead
  split <;> exact staysQuiet_of_rest rfl

theorem staysQuiet_setNoticeMask (v : Nat) : StaysQuiet s (setNoticeMask v s) := by
  unfold setNoticeMask
  split <;> exact staysQuiet_of_rest rfl

theorem staysQuiet_ackNotices (v : Nat) : StaysQuiet s (ackNotices v s) := by
  unfold ackNotices
  split <;> exact staysQuiet_of_rest rfl

end

theorem exec_staysQuiet {i : Instr} {s t : State} (setup : s.port.phase = .setup) (executed : exec i s = .next t) :
    StaysQuiet s t := by
  have next {u : State} (stays : StaysQuiet s u)
      (answered : Host.Outcome.next u = (.next t : Host.Outcome State Fault Refusal)) : StaysQuiet s t :=
    Host.Outcome.next.inj answered ▸ stays
  have same {u : State} (stands : u = s)
      (answered : Host.Outcome.next u = (.next t : Host.Outcome State Fault Refusal)) : StaysQuiet s t :=
    next (staysQuiet_of_eq stands) answered
  have either {c : Prop} [Decidable c] {u : State} (stays : c → StaysQuiet s u)
      (answered : Host.Outcome.next (if c then u else s) = (.next t : Host.Outcome State Fault Refusal)) :
      StaysQuiet s t := by
    refine next ?_ answered
    split
    case isTrue holds => exact stays holds
    case isFalse => exact .refl s
  have host {α : Type} {p : TakenIn} {operands : Option α} {act : α → State → State}
      (taken : ∀ a, StaysQuiet s (act a s))
      (answered : Host.Outcome.next (hostCommand p operands act s) = (.next t : Host.Outcome State Fault Refusal)) :
      StaysQuiet s t :=
    next (staysQuiet_hostCommand taken) answered
  have refused {α : Type} {operands : Option α} {act : α → State → State}
      (answered : Host.Outcome.next (hostCommand .runOnly operands act s) = (.next t : Host.Outcome State Fault Refusal)) :
      StaysQuiet s t :=
    next (staysQuiet_runOnly setup operands act) answered
  cases i with
  | powerOn strap => exact next (fun _ => .inl (quiet_restart strap s)) executed
  | reset strap => exact next (fun _ => .inl (quiet_restart strap s)) executed
  | frameArrival f => exact next (staysQuiet_arriveFrame setup f) executed
  | returnToHigh track f => exact either (fun _ => staysQuiet_arriveFrame setup f) executed
  | cueFire f => exact either (fun _ => staysQuiet_arriveFrame setup f) executed
  | awaitedStop f => exact either (fun _ => staysQuiet_arriveFrame setup f) executed
  | postRollComplete f => exact either (fun _ => staysQuiet_arriveFrame setup f) executed
  | halfDayStop f => exact either (fun _ => staysQuiet_arriveFrame setup f) executed
  | blockEnd f => exact either (fun _ => staysQuiet_arriveFrame setup f) executed
  | pendingStartPromotion =>
    refine either (fun due => ?_) executed
    rw [inRun_of_setup setup, Bool.false_and] at due
    cases due
  | clockLost => exact next (staysQuiet_clockLost s) executed
  | referencePulse => exact next (staysQuiet_referencePulse s) executed
  | recordKey => exact same (recordKey_of_setup setup) executed
  | successfulCompletion => exact next (staysQuiet_successfulCompletion s) executed
  | failedCompletion => exact next (staysQuiet_failedCompletion s) executed
  | writeIssue => exact same (makeDecision_of_setup setup) executed
  | lineIdle => exact same (lineIdle_of_kept (.inl setup)) executed
  | deferralExpiry => exact same (deferralExpiry_of_setup setup) executed
  | successfulSend => exact same (successfulSend_of_kept (.inl setup)) executed
  | collision => exact same (collision_of_kept (.inl setup)) executed
  | announceTimerExpiry => exact same (announceTimerExpiry_of_setup setup) executed
  | peerAbsent p => exact next (staysQuiet_peerAbsent s p) executed
  | statusFrame f => exact same (receiveFrame_of_setup setup _ f) executed
  | noteFrame f => exact same (receiveFrame_of_setup setup _ f) executed
  | noteRequestFrame f => exact same (receiveFrame_of_setup setup _ f) executed
  | noteGoneFrame f => exact same (receiveFrame_of_setup setup _ f) executed
  | configureClock args => exact host (staysQuiet_configureClock s) executed
  | configureTrack args => exact host (staysQuiet_configureTrack s) executed
  | configureCapture args => exact host (staysQuiet_configureCapture s) executed
  | configureMedia args => exact host (staysQuiet_configureMedia s) executed
  | setRunNumber args => exact host (staysQuiet_setRunNumber s) executed
  | commit args => exact host (staysQuiet_commit s) executed
  | setTrim args => exact host (staysQuiet_setTrim s) executed
  | setGate args => exact host (staysQuiet_setGate s) executed
  | setScene args => exact host (staysQuiet_setScene setup) executed
  | setNextTake args => exact host (staysQuiet_setNextTake setup) executed
  | jamTimecode args => exact host (staysQuiet_jamTimecode s) executed
  | start args => exact refused executed
  | stop args => exact refused executed
  | addNote args => exact refused executed
  | setCue args => exact refused executed
  | cancelCue args => exact refused executed
  | clearClip args => exact refused executed
  | mediaRetry args => exact refused executed
  | captureRestart args => exact refused executed
  | readStatus args => exact host (fun _ => staysQuiet_answerRead s _) executed
  | readSlot args => exact host (fun _ => staysQuiet_answerRead s _) executed
  | readPeer args => exact host (fun _ => staysQuiet_answerRead s _) executed
  | readNote args => exact host (fun _ => staysQuiet_answerRead s _) executed
  | readClip args => exact host (fun _ => staysQuiet_answerRead s _) executed
  | readNotices args => exact host (fun _ => staysQuiet_answerRead s _) executed
  | setNoticeMask args => exact host (staysQuiet_setNoticeMask s) executed
  | ackNotices args => exact host (staysQuiet_ackNotices s) executed
  | unknownCommand code args => exact either (u := respond .unknown [] s) (fun _ => staysQuiet_of_rest rfl) executed
  | responseRead =>
    exact next (u := { s with port := { s.port with output := responseBytes s.port.response } }) (staysQuiet_of_rest rfl)
      executed
  | lineBusy b => exact next (staysQuiet_lineBusy setup b) executed
  | selectionReleased received => exact same rfl executed

/-! ### Every step (R176) -/

theorem exec_setupQuiet {i : Instr} {s t : State} (quiet : SetupQuiet s) (executed : exec i s = .next t) : SetupQuiet t := by
  rw [setupQuiet_iff] at quiet ⊢
  intro ended
  rcases phase_cases s with setup | run
  · rcases exec_staysQuiet setup executed (quiet setup) with quiet | run
    · exact quiet
    · cases ended.symm.trans run
  · rcases (exec_writerEvent executed).run_or_restarted run with run | ⟨strap, rfl⟩
    · cases ended.symm.trans run
    · exact quiet_restart strap s

/-- Settles O55: in SETUP only COMMIT touches more than settings, and out of RUN leads only a restart, which empties every block. -/
theorem setupStaysQuiet : Obligations.SetupStaysQuiet := by
  unfold Obligations.SetupStaysQuiet
  intro s t quiet stepped
  unfold Machine.step at stepped
  split at stepped
  case h_1 =>
    cases stepped
    rw [setupQuiet_iff] at quiet ⊢
    exact fun setup => quiet_congr (quiet setup) rfl
  case h_2 i rest _ =>
    refine exec_setupQuiet (s := { s with pending := rest }) ?_ stepped
    rw [setupQuiet_iff] at quiet ⊢
    exact fun setup => quiet_congr (quiet setup) rfl

end Sys2Proof.Proofs
end

section
/-! PROOFS. The command port: which phase and which argument length a command is answered in, its own events, and the reads (R129,
R177, R178, R181, R182, R193, R194). -/

namespace Sys2Proof.Proofs

open Sys2Proof Sys2Proof.Machine Sys2Proof.Safety

/-! ### The answer to a command message (R177, R178) -/

section

variable {α : Type} {i : Instr} {p : TakenIn} {operands : Option α} {act : α → State → State} {s : State}
  (meaning : exec i s = .next (hostCommand p operands act s))

include meaning

theorem answered_wrongPhase (out : takenNow p s.port.phase = false) : Answered i .wrongPhase s :=
  meaning.trans (congrArg _ (hostCommand_wrongPhase operands act out))

theorem answered_badLength (now : takenNow p s.port.phase = true) (unread : operands = none) : Answered i .badValue s := by
  subst unread
  exact meaning.trans (congrArg _ (hostCommand_badLength act now))

theorem exec_of_message (now : takenNow p s.port.phase = true) {a : α} (read : operands = some a) :
    exec i s = .next (act a s) := by
  subst read
  exact meaning.trans (congrArg _ (hostCommand_taken a act now))

end

theorem takenNow_setup {s : State} (setup : s.port.phase = .setup) : takenNow .setupOnly s.port.phase = true := by
  rw [setup]
  rfl

theorem takenNow_run {s : State} (run : s.port.phase = .run) : takenNow .runOnly s.port.phase = true := by
  rw [run]
  rfl

/-! ### WRONG PHASE (R178) -/

/-- The port holds an answer that is not WRONG PHASE. -/
def AnswersInPhase (t : State) : Prop := ∃ r, t.port.response = some r ∧ r.code ≠ .wrongPhase

/-- The command is answered with another code than WRONG PHASE. -/
def TakenInPhase (i : Instr) (s : State) : Prop :=
  ∃ t r, exec i s = .next t ∧ t.port.response = some r ∧ r.code ≠ .wrongPhase

theorem takenInPhase {α : Type} {i : Instr} {p : TakenIn} {operands : Option α} {act : α → State → State} {s : State}
    (meaning : exec i s = .next (hostCommand p operands act s)) (now : takenNow p s.port.phase = true)
    (answers : ∀ a, AnswersInPhase (act a s)) : TakenInPhase i s := by
  cases read : operands with
  | none => exact ⟨_, _, answered_badLength meaning now read, rfl, nofun⟩
  | some a =>
    obtain ⟨r, held, other⟩ := answers a
    exact ⟨_, r, exec_of_message meaning now read, held, other⟩

theorem answersInPhase_respond {c : ResponseCode} (other : c ≠ .wrongPhase) (data : List Byte) (s : State) :
    AnswersInPhase (respond c data s) :=
  ⟨_, rfl, other⟩

theorem answersInPhase_ok (data : List Byte) (s : State) : AnswersInPhase (respond .ok data s) :=
  answersInPhase_respond (by decide) data s

theorem answersInPhase_badValue (s : State) : AnswersInPhase (respond .badValue [] s) := answersInPhase_respond (by decide) [] s

theorem answersInPhase_announceChange (before : State) {t : State} (answers : AnswersInPhase t) :
    AnswersInPhase (announceChange before t) := by
  unfold AnswersInPhase
  simp only [announceChange_frame]
  exact answers

section

variable (s : State)

theorem answersInPhase_configureClock (a : ClockArgs) : AnswersInPhase (configureClock a s) := by
  unfold configureClock
  split
  · split
    · exact answersInPhase_ok _ _
    · exact answersInPhase_badValue s
  · exact answersInPhase_badValue s

theorem answersInPhase_configureTrack (a : TrackArgs) : AnswersInPhase (configureTrack a s) := by
  unfold configureTrack
  split
  · split
    · exact answersInPhase_ok _ _
    · exact answersInPhase_badValue s
  · exact answersInPhase_badValue s

theorem answersInPhase_configureCapture (a : CaptureArgs) : AnswersInPhase (configureCapture a s) := by
  unfold configureCapture
  split
  · split
    · exact answersInPhase_ok _ _
    · exact answersInPhase_badValue s
  · exact answersInPhase_badValue s

theorem answersInPhase_configureMedia (a : Nat × Nat) : AnswersInPhase (configureMedia a s) := by
  unfold configureMedia
  split
  · exact answersInPhase_ok _ _
  · exact answersInPhase_badValue s

theorem answersInPhase_setRunNumber (n : Nat) : AnswersInPhase (setRunNumber n s) := by
  unfold setRunNumber
  split
  · exact answersInPhase_ok _ _
  · exact answersInPhase_badValue s

theorem answersInPhase_commit (u : Unit) : AnswersInPhase (commit u s) := by
  unfold commit
  split
  · exact answersInPhase_ok _ _
  · exact answersInPhase_respond (by decide) _ _

theorem answersInPhase_setTrim (a : Nat × Nat) : AnswersInPhase (setTrim a s) := by
  unfold setTrim
  split
  · exact answersInPhase_ok _ _
  · exact answersInPhase_badValue s

theorem answersInPhase_setGate (a : Nat × GateSettings) : AnswersInPhase (setGate a s) := by
  unfold setGate
  split
  · exact answersInPhase_ok _ _
  · exact answersInPhase_badValue s

theorem answersInPhase_setScene (name : Text) : AnswersInPhase (setScene name s) :=
  answersInPhase_announceChange s (answersInPhase_ok _ _)

theorem answersInPhase_setNextTake (n : Nat) : AnswersInPhase (setNextTake n s) :=
  answersInPhase_announceChange s (answersInPhase_ok _ _)

theorem answersInPhase_jamTimecode (a : Nat × Nat × Nat × Nat) : AnswersInPhase (jamTimecode a s) := by
  unfold jamTimecode
  dsimp only
  split_ifs
  · exact answersInPhase_respond (by decide) _ _
  · exact answersInPhase_ok _ _
  · exact answersInPhase_badValue s

theorem localStart_code (v : RingView) (src : Source) : (localStart v src s).1 ≠ .wrongPhase := by
  unfold localStart
  split
  · split <;> exact nofun
  · split
    · exact nofun
    · split <;> exact nofun
  · exact nofun
  · exact nofun

theorem localStop_code : (localStop s).1 ≠ .wrongPhase := by
  unfold localStop
  split
  · split <;> exact nofun
  · exact nofun
  · exact nofun
  · exact nofun

theorem answersInPhase_addNote (a : NoteArgs) : AnswersInPhase (addNote a s) := by
  unfold addNote
  split
  case h_1 => exact answersInPhase_ok _ _
  case h_2 c refused =>
    refine answersInPhase_respond ?_ _ s
    rintro rfl
    unfold noteToAdd at refused
    split at refused
    · split_ifs at refused <;> cases refused
    · cases refused

theorem answersInPhase_setCue (a : Nat × Nat) : AnswersInPhase (setCue a s) := by
  unfold setCue
  split
  · split_ifs
    · exact answersInPhase_badValue s
    · exact answersInPhase_ok _ _
    · exact answersInPhase_respond (by decide) _ _
  · exact answersInPhase_badValue s

theorem answersInPhase_cancelCue (u : Unit) : AnswersInPhase (cancelCue u s) := by
  unfold cancelCue
  split
  · exact answersInPhase_ok _ _
  · exact answersInPhase_respond (by decide) _ _

/-- MEDIA RETRY in MEDIA FAULT (R171). -/
theorem answersInPhase_mediaRetry (fault : s.writer.capture = .mediaFault) (u : Unit) : AnswersInPhase (mediaRetry u s) := by
  rw [mediaRetry, if_pos fault]
  split_ifs
  · exact answersInPhase_respond (by decide) _ _
  · exact answersInPhase_respond (by decide) _ _
  · exact answersInPhase_ok _ _

theorem answersInPhase_answerRead (data : Option (List Byte)) : AnswersInPhase (answerRead data s) := by
  unfold answerRead
  split
  · exact answersInPhase_ok _ _
  · exact answersInPhase_badValue s

theorem answersInPhase_setNoticeMask (v : Nat) : AnswersInPhase (setNoticeMask v s) := by
  unfold setNoticeMask
  split
  · exact answersInPhase_ok _ _
  · exact answersInPhase_badValue s

theorem answersInPhase_ackNotices (v : Nat) : AnswersInPhase (ackNotices v s) := by
  unfold ackNotices
  split
  · exact answersInPhase_ok _ _
  · exact answersInPhase_badValue s

end

/-- The commands taken in SETUP alone are taken there (R178). -/
theorem setupCommands_taken {s : State} (setup : s.port.phase = .setup) (args : List Byte) :
    ∀ i ∈ [Instr.configureClock args, .configureTrack args, .configureCapture args, .configureMedia args,
      .setRunNumber args, .commit args], TakenInPhase i s := by
  have now := takenNow_setup setup
  simp only [List.forall_mem_cons, List.not_mem_nil, false_implies, implies_true, and_true]
  exact ⟨takenInPhase rfl now (answersInPhase_configureClock s), takenInPhase rfl now (answersInPhase_configureTrack s),
    takenInPhase rfl now (answersInPhase_configureCapture s), takenInPhase rfl now (answersInPhase_configureMedia s),
    takenInPhase rfl now (answersInPhase_setRunNumber s), takenInPhase rfl now (answersInPhase_commit s)⟩

/-- The commands taken in RUN alone are taken there (R178). -/
theorem runCommands_taken {s : State} (run : s.port.phase = .run) (args : List Byte) :
    ∀ i ∈ [Instr.start args, .stop args, .addNote args, .setCue args, .cancelCue args, .clearClip args,
      .captureRestart args], TakenInPhase i s := by
  have now := takenNow_run run
  simp only [List.forall_mem_cons, List.not_mem_nil, false_implies, implies_true, and_true]
  exact ⟨takenInPhase rfl now fun _ => answersInPhase_respond (localStart_code s _ _) _ _,
    takenInPhase rfl now fun _ => answersInPhase_respond (localStop_code s) _ _,
    takenInPhase rfl now (answersInPhase_addNote s), takenInPhase rfl now (answersInPhase_setCue s),
    takenInPhase rfl now (answersInPhase_cancelCue s), takenInPhase rfl now fun _ => answersInPhase_ok _ _,
    takenInPhase rfl now fun _ => answersInPhase_ok _ _⟩

/-- The commands taken in both phases are never refused for the phase (R178). -/
theorem commonCommands_taken (s : State) (args : List Byte) :
    ∀ i ∈ [Instr.setTrim args, .setGate args, .setScene args, .setNextTake args, .jamTimecode args, .readStatus args,
      .readSlot args, .readPeer args, .readNote args, .readClip args, .readNotices args, .setNoticeMask args,
      .ackNotices args], TakenInPhase i s := by
  have now := takenNow_both s.port.phase
  simp only [List.forall_mem_cons, List.not_mem_nil, false_implies, implies_true, and_true]
  exact ⟨takenInPhase rfl now (answersInPhase_setTrim s), takenInPhase rfl now (answersInPhase_setGate s),
    takenInPhase rfl now (answersInPhase_setScene s), takenInPhase rfl now (answersInPhase_setNextTake s),
    takenInPhase rfl now (answersInPhase_jamTimecode s), takenInPhase rfl now fun _ => answersInPhase_answerRead s _,
    takenInPhase rfl now fun _ => answersInPhase_answerRead s _, takenInPhase rfl now fun _ => answersInPhase_answerRead s _,
    takenInPhase rfl now fun _ => answersInPhase_answerRead s _, takenInPhase rfl now fun _ => answersInPhase_answerRead s _,
    takenInPhase rfl now fun _ => answersInPhase_answerRead s _, takenInPhase rfl now (answersInPhase_setNoticeMask s),
    takenInPhase rfl now (answersInPhase_ackNotices s)⟩

/-- Settles O5: the port looks at the phase first, and no action of its own answers WRONG PHASE but MEDIA RETRY's. -/
theorem phaseDecidesWhatIsTaken : Obligations.PhaseDecidesWhatIsTaken := by
  unfold Obligations.PhaseDecidesWhatIsTaken
  intro s args
  refine ⟨fun run => ?_, fun setup => ?_, fun setup => setupCommands_taken setup args,
    fun run => ⟨runCommands_taken run args, fun fault => takenInPhase rfl (takenNow_run run)
      (answersInPhase_mediaRetry s fault)⟩, commonCommands_taken s args⟩
  · have out : takenNow .setupOnly s.port.phase = false := by rw [run]; rfl
    exact ⟨answered_wrongPhase rfl out, answered_wrongPhase rfl out, answered_wrongPhase rfl out,
      answered_wrongPhase rfl out, answered_wrongPhase rfl out, answered_wrongPhase rfl out⟩
  · have out : takenNow .runOnly s.port.phase = false := by rw [setup]; rfl
    exact ⟨answered_wrongPhase rfl out, answered_wrongPhase rfl out, answered_wrongPhase rfl out,
      answered_wrongPhase rfl out, answered_wrongPhase rfl out, answered_wrongPhase rfl out, answered_wrongPhase rfl out,
      answered_wrongPhase rfl out⟩

/-! ### BAD VALUE for the argument length (R177, R194) -/

theorem noArgs_eq_none {args : List Byte} (some_bytes : args.length ≠ 0) : noArgs args = none := if_neg some_bytes

theorem readNumber_eq_none {width : Nat} {args : List Byte} (wrong : args.length ≠ width) : readNumber width args = none :=
  if_neg wrong

theorem readMarked_eq_none {marks : Byte} {rest : List Byte}
    (wrong : rest.length ≤ markedWidth marks ∨
      rest.length ≠ markedWidth marks + 1 + field rest (markedWidth marks) 1) : readMarked marks rest = none := by
  refine if_neg ?_
  simp only [Bool.and_eq_true, decide_eq_true_eq, beq_iff_eq, List.length_drop]
  rintro ⟨behind, text⟩
  omega

theorem readNoteArgs_eq_none_of_short {args : List Byte} (short : args.length < 4) : readNoteArgs args = none := by
  match args, short with
  | [], _ => rfl
  | [_], _ => rfl
  | [_, _], _ => rfl
  | [_, _, marks], _ =>
    rw [readNoteArgs, readMarked_eq_none (.inl (Nat.zero_le _))]
    rfl
  | _ :: _ :: _ :: _ :: rest, short =>
    simp only [List.length_cons] at short
    omega

theorem readPartArgs_eq_none {args : List Byte} (not_one : args.length ≠ 1) (not_two : args.length ≠ 2) :
    readPartArgs args = none := by
  match args, not_one, not_two with
  | [], _, _ => rfl
  | [_], not_one, _ => exact absurd rfl not_one
  | [_, _], _, not_two => exact absurd rfl not_two
  | _ :: _ :: _ :: _, _, _ => rfl

/-- A track is named for the part TRACK alone (R181). -/
theorem readPartArgs_of_two {part : Byte} (other : part ≠ 7#8) (track : Byte) : readPartArgs [part, track] = none :=
  if_neg fun same => other (BitVec.eq_of_toNat_eq same)

theorem setupLengths_checked {s : State} (setup : s.port.phase = .setup) (args : List Byte) :
    (args.length ≠ 5 → Answered (.configureClock args) .badValue s ∧ Answered (.configureTrack args) .badValue s) ∧
      (args.length ≠ 13 → Answered (.configureCapture args) .badValue s) ∧
      (args.length ≠ 10 → Answered (.configureMedia args) .badValue s) ∧
      (args.length ≠ 4 → Answered (.setRunNumber args) .badValue s) ∧
      (args.length ≠ 0 → Answered (.commit args) .badValue s) := by
  have now := takenNow_setup setup
  exact ⟨fun wrong => ⟨answered_badLength rfl now (if_neg wrong), answered_badLength rfl now (if_neg wrong)⟩,
    fun wrong => answered_badLength rfl now (if_neg wrong), fun wrong => answered_badLength rfl now (if_neg wrong),
    fun wrong => answered_badLength rfl now (readNumber_eq_none wrong),
    fun wrong => answered_badLength rfl now (noArgs_eq_none wrong)⟩

theorem runLengths_checked {s : State} (run : s.port.phase = .run) (args : List Byte) :
    (args.length ≠ 0 →
      Answered (.start args) .badValue s ∧ Answered (.stop args) .badValue s ∧ Answered (.cancelCue args) .badValue s ∧
        Answered (.clearClip args) .badValue s ∧ Answered (.mediaRetry args) .badValue s ∧
        Answered (.captureRestart args) .badValue s) ∧
      (args.length ≠ 6 → Answered (.setCue args) .badValue s) ∧
      (args.length < 4 → Answered (.addNote args) .badValue s) ∧
      (∀ (kind attach marks : Byte) (rest : List Byte), args = kind :: attach :: marks :: rest →
        rest.length ≤ markedWidth marks ∨ rest.length ≠ markedWidth marks + 1 + field rest (markedWidth marks) 1 →
        Answered (.addNote args) .badValue s) := by
  have now := takenNow_run run
  refine ⟨fun wrong => ?_, fun wrong => answered_badLength rfl now (if_neg wrong),
    fun short => answered_badLength rfl now (readNoteArgs_eq_none_of_short short), fun kind attach marks rest laid wrong => ?_⟩
  · have unread := noArgs_eq_none wrong
    exact ⟨answered_badLength rfl now unread, answered_badLength rfl now unread, answered_badLength rfl now unread,
      answered_badLength rfl now unread, answered_badLength rfl now unread, answered_badLength rfl now unread⟩
  · refine answered_badLength rfl now ?_
    rw [laid, readNoteArgs, readMarked_eq_none wrong]
    rfl

/-- Settles O6: each reader answers none for a length that is not the command's. -/
theorem argumentLengthIsChecked : Obligations.ArgumentLengthIsChecked := by
  unfold Obligations.ArgumentLengthIsChecked
  intro s args
  have now := takenNow_both s.port.phase
  refine ⟨fun setup => setupLengths_checked setup args, fun run => runLengths_checked run args,
    fun wrong => answered_badLength rfl now (if_neg wrong), fun wrong => answered_badLength rfl now (if_neg wrong),
    fun empty => answered_badLength rfl now ?_, fun n name laid wrong => answered_badLength rfl now ?_,
    fun wrong => ⟨answered_badLength rfl now (readNumber_eq_none wrong), answered_badLength rfl now (readNumber_eq_none wrong)⟩,
    fun wrong => ⟨answered_badLength rfl now (if_neg wrong), answered_badLength rfl now (readNumber_eq_none wrong),
      answered_badLength rfl now (readNumber_eq_none wrong)⟩,
    fun wrong => ⟨answered_badLength rfl now (readNumber_eq_none wrong), answered_badLength rfl now (readNumber_eq_none wrong)⟩,
    fun wrong => ⟨answered_badLength rfl now (noArgs_eq_none wrong), answered_badLength rfl now (noArgs_eq_none wrong)⟩,
    fun not_one not_two => answered_badLength rfl now (readPartArgs_eq_none not_one not_two),
    fun laid => answered_badLength rfl now ?_, fun part track laid other => answered_badLength rfl now ?_⟩
  · rw [List.eq_nil_of_length_eq_zero empty]
    rfl
  · rw [laid]
    exact if_neg wrong
  · rw [laid]
    rfl
  · rw [laid]
    exact readPartArgs_of_two other track

/-! ### The port's own events (R177, R193) -/

theorem responseBytes_some (r : Response) :
    responseBytes (some r) =
      BitVec.ofNat 8 r.code.code :: BitVec.ofNat 8 (r.data.length / 256) :: BitVec.ofNat 8 r.data.length :: r.data := by
  simp only [responseBytes, be, pow_zero, pow_one, Nat.div_one, List.cons_append, List.nil_append]

/-- Settles O7, by what the port holds. -/
theorem unknownReleaseAndResponseRead : Obligations.UnknownReleaseAndResponseRead := by
  unfold Obligations.UnknownReleaseAndResponseRead
  intro s
  have read {bytes : List Byte} (clocked : responseBytes s.port.response = bytes) :
      exec .responseRead s = .next { s with port := { s.port with output := bytes } } := by
    rw [← clocked]
    rfl
  refine ⟨fun code args none_named => ?_, fun bytes => rfl, fun none_held => read ?_, fun r held => read ?_⟩
  · change Host.Outcome.next (if namesNoCommand code then respond .unknown [] s else s) = _
    rw [if_pos none_named]
    rfl
  · rw [none_held]
    rfl
  · rw [held, responseBytes_some]

/-! ### The reads (R129, R181, R182) -/

theorem readNumber_be {width v : Nat} (fits : v < 256 ^ width) : readNumber width (be width v) = some v := by
  rw [readNumber, if_pos (be_length width v), ofBE_be fits]

theorem toNat_byte {v : Nat} (fits : v < 256) : (byte v).toNat = v := by
  rw [byte, BitVec.toNat_ofNat, Nat.mod_eq_of_lt fits]

/-- A part other than TRACK is named by itself (R181). -/
theorem readPartArgs_be {part : Nat} (fits : part < 256) (other : part ≠ 7) : readPartArgs (be 1 part) = some (part, 0) := by
  rw [be_one, readPartArgs, toNat_byte fits, if_neg other]

theorem readPartArgs_track {track : Nat} (fits : track < 256) : readPartArgs (7#8 :: be 1 track) = some (7, track) := by
  rw [be_one, readPartArgs, toNat_byte fits]
  rfl

theorem statusPart_eq_none {part : Nat} (outside : part = 0 ∨ 7 < part) (track : Nat) (s : State) :
    statusPart s part track = none := by
  unfold statusPart
  split
  case h_8 => rfl
  all_goals omega

theorem slotIndex_succ (n : Fin 3) : slotIndex (n.val + 1) = some n := dif_pos (by omega)

theorem slotIndex_eq_none {n : Nat} (outside : n = 0 ∨ 3 < n) : slotIndex n = none := dif_neg (by omega)

theorem stationIndex_val (n : Fin 8) : stationIndex n.val = some n := dif_pos n.isLt

theorem stationIndex_eq_none {n : Nat} (beyond : 7 < n) : stationIndex n = none := dif_neg (by omega)

section

variable {α : Type} {i : Instr} {operands : Option α} {data : α → State → Option (List Byte)} {s : State} {a : α}
  (meaning : exec i s = .next (hostCommand .both operands (fun x s => answerRead (data x s) s) s)) (read : operands = some a)

include meaning read

/-- A read of something that is there gives its data (R181). -/
theorem exec_read_of_some {bytes : List Byte} (there : data a s = some bytes) :
    exec i s = .next { s with port := { s.port with response := some { code := .ok, data := bytes } } } := by
  rw [exec_of_message meaning (takenNow_both _) read, there]
  rfl

/-- A read of something out of range is answered BAD VALUE (R181). -/
theorem answered_read_of_none (outside : data a s = none) : Answered i .badValue s := by
  unfold Answered
  rw [exec_of_message meaning (takenNow_both _) read, outside]
  rfl

end

/-- Settles O8: the operands read back, and what they name is there or out of range. -/
theorem readsAnswerAndChangeNothing : Obligations.ReadsAnswerAndChangeNothing := by
  unfold Obligations.ReadsAnswerAndChangeNothing
  intro s
  refine ⟨exec_read_of_some rfl rfl rfl, exec_read_of_some rfl rfl rfl, exec_read_of_some rfl rfl rfl,
    exec_read_of_some rfl rfl rfl, exec_read_of_some rfl rfl rfl, exec_read_of_some rfl rfl rfl, fun n => ?track,
    fun n outside fits => ?noTrack, fun n outside fits => ?noPart, fun n => ?slot, fun n outside fits => ?noSlot,
    fun n => ?peer, fun n beyond fits => ?noPeer, fun n x fits held => ?note, fun n fits beyond => ?noNote,
    exec_read_of_some rfl rfl rfl, exec_read_of_some rfl rfl rfl⟩
  case track =>
    refine exec_read_of_some rfl (readPartArgs_track (by omega)) ?_
    rw [statusPart, trackIndex_succ, Option.map_some]
  case noTrack =>
    refine answered_read_of_none rfl (readPartArgs_track fits) ?_
    rw [statusPart, trackIndex_eq_none outside, Option.map_none]
  case noPart => exact answered_read_of_none rfl (readPartArgs_be fits (by omega)) (statusPart_eq_none outside 0 s)
  case slot =>
    refine exec_read_of_some rfl (readNumber_be (by omega)) ?_
    rw [slotIndex_succ, Option.map_some]
  case noSlot =>
    refine answered_read_of_none rfl (readNumber_be (by omega)) ?_
    rw [slotIndex_eq_none outside, Option.map_none]
  case peer =>
    refine exec_read_of_some rfl (readNumber_be (by omega)) ?_
    rw [stationIndex_val, Option.map_some]
  case noPeer =>
    refine answered_read_of_none rfl (readNumber_be (by omega)) ?_
    rw [stationIndex_eq_none beyond, Option.map_none]
  case note =>
    refine exec_read_of_some rfl (readNumber_be (by omega)) ?_
    rw [held, Option.map_some, noteData]
  case noNote =>
    refine answered_read_of_none rfl (readNumber_be (by omega)) ?_
    rw [List.getElem?_eq_none beyond, Option.map_none]

end Sys2Proof.Proofs
end

section
/-! PROOFS. Power-on and the RESET line, the notice commands and CONFIGURE CAPTURE (R53, R68, R179, R185 to R188). -/

namespace Sys2Proof.Proofs

open Sys2Proof Sys2Proof.Machine Sys2Proof.Safety

/-! ### Power-on and the RESET line (R188) -/

/-- A message of which a byte has come is discarded (R188). -/
theorem discard_of_other {x : Selection} (other : ∀ b bytes, x ≠ .receiving (b :: bytes)) : x.discard = x := by
  cases x with
  | released => rfl
  | spent => rfl
  | receiving bytes =>
    cases bytes with
    | nil => rfl
    | cons b bytes => exact absurd rfl (other b bytes)

theorem restart_track (strap : Fin 8) (s : State) (n : Fin 16) : (restart strap s).front.tracks[n] = Track.reset :=
  Vector.getElem_replicate n.isLt

theorem restart_mixTrack (strap : Fin 8) (s : State) (n : Fin 16) : (restart strap s).mixer.tracks[n] = MixTrack.reset :=
  Vector.getElem_replicate n.isLt

theorem restart_followMask (strap : Fin 8) (s : State) (n : Fin 8) : (restart strap s).takes.followMask[n] = true := by
  change (255#8)[n] = true
  revert n
  decide

/-- Settles O3: both rows bring the state after reset, with the message being received discarded and the queue kept. -/
theorem powerOnAndResetLine : Obligations.PowerOnAndResetLine := by
  unfold Obligations.PowerOnAndResetLine
  intro strap s
  refine ⟨restart strap s, rfl, rfl, rfl, rfl, rfl, rfl, fun b bytes receiving => ?_, fun other => discard_of_other other, rfl,
    rfl, rfl, rfl, rfl, rfl, rfl, rfl, rfl, rfl, rfl, rfl, rfl, rfl, restart_track strap s, rfl, rfl, rfl,
    restart_mixTrack strap s, rfl, rfl, rfl, rfl, (quiet_restart strap s).slots, rfl, rfl, rfl, rfl, rfl, rfl, rfl,
    restart_followMask strap s, rfl, rfl, rfl, rfl, rfl, rfl, rfl, rfl, (quiet_restart strap s).peers, rfl, rfl, rfl, rfl, rfl,
    rfl, rfl, rfl, rfl, rfl, rfl, rfl, rfl, rfl, rfl, rfl⟩
  change s.port.selection.discard = .spent
  rw [receiving]
  rfl

/-! ### The promises after reset -/

theorem takesAccounted_resetAt (strap : Fin 8) : TakesAccounted (State.resetAt strap) where
  quiet _ := ⟨(quiet_restart strap (State.resetAt strap)).slots, rfl⟩
  sum i _ holds := nomatch ((quiet_restart strap (State.resetAt strap)).slots i).symm.trans holds

theorem recordsBounded_resetAt (strap : Fin 8) : RecordsBounded (State.resetAt strap) where
  takes i _ holds := nomatch ((quiet_restart strap (State.resetAt strap)).slots i).symm.trans holds
  closed := Nat.zero_le _

/-- Settles O4: every block is empty or at its reset value. -/
theorem resetMeetsEveryPromise : Obligations.ResetMeetsEveryPromise := by
  unfold Obligations.ResetMeetsEveryPromise
  intro strap
  exact ⟨lineDriven_restart strap (State.resetAt strap),
    (setupQuiet_iff _).mpr fun _ => quiet_restart strap (State.resetAt strap),
    (takesCleared_restart strap (State.resetAt strap)).oneOpenTake, takesAccounted_resetAt strap, recordsBounded_resetAt strap,
    Nat.zero_le _, mixSound_restart strap (State.resetAt strap), storeSound_of_empty rfl, queueSound_of_empty rfl rfl,
    cardSound_restart strap (State.resetAt strap)⟩

/-! ### ACK NOTICES and SET NOTICE MASK (R186) -/

theorem exec_ackNotices {v : Nat} (fits : v < 2 ^ 32) (s : State) :
    exec (.ackNotices (be 4 v)) s = .next (ackNotices v s) :=
  exec_of_message rfl (takenNow_both _) (readNumber_be (by omega))

theorem exec_setNoticeMask {v : Nat} (fits : v < 2 ^ 32) (s : State) :
    exec (.setNoticeMask (be 4 v)) s = .next (setNoticeMask v s) :=
  exec_of_message rfl (takenNow_both _) (readNumber_be (by omega))

theorem noticeSetOf_of_kinds {v : Nat} (kinds : v < 2 ^ 20) : noticeSetOf v = some (BitVec.ofNat 20 v) := if_pos kinds

theorem noticeSetOf_of_beyond {v : Nat} (beyond : 2 ^ 20 ≤ v) : noticeSetOf v = none := if_neg (Nat.not_lt.mpr beyond)

/-- Settles O9: the set reads back, a restart clears the mask, and COMMIT and CAPTURE RESTART only raise. -/
theorem ackAndMaskNotices : Obligations.AckAndMaskNotices := by
  unfold Obligations.AckAndMaskNotices
  intro s v fits
  refine ⟨fun kinds => ⟨(exec_ackNotices fits s).trans ?ack, (exec_setNoticeMask fits s).trans ?mask⟩,
    fun beyond => ⟨(exec_ackNotices fits s).trans ?noAck, (exec_setNoticeMask fits s).trans ?noMask⟩,
    fun strap => ⟨restart strap s, rfl, rfl, rfl⟩,
    fun args => ⟨_, rfl, (raises_hostCommand .none (raises_commit .none)).mask⟩,
    fun args => ⟨_, rfl, (raises_hostCommand .none (raises_captureRestart .none)).mask⟩⟩
  case ack => rw [ackNotices, noticeSetOf_of_kinds kinds]; rfl
  case mask => rw [setNoticeMask, noticeSetOf_of_kinds kinds]; rfl
  case noAck => rw [ackNotices, noticeSetOf_of_beyond beyond]; rfl
  case noMask => rw [setNoticeMask, noticeSetOf_of_beyond beyond]; rfl

/-! ### CONFIGURE CAPTURE (R179) -/

theorem readCaptureArgs_be {a : CaptureArgs} (preFits : a.preRoll < 2 ^ 32) (postFits : a.postRoll < 2 ^ 32)
    (modeFits : a.rounding < 256) (maskFits : a.mask < 65536) (tolFits : a.tolerance < 65536) :
    readCaptureArgs (be 4 a.preRoll ++ be 4 a.postRoll ++ be 1 a.rounding ++ be 2 a.mask ++ be 2 a.tolerance) = some a := by
  rw [readCaptureArgs, if_pos (by simp only [List.length_append, be_length])]
  simp (disch := omega) only [List.append_assoc, field_be_later, field_be_first, field_be, Nat.reduceSub]

theorem exec_configureCapture {s : State} (setup : s.port.phase = .setup) {p q mode mask tol : Nat} (preFits : p < 2 ^ 32)
    (postFits : q < 2 ^ 32) (modeFits : mode < 256) (maskFits : mask < 65536) (tolFits : tol < 65536) :
    exec (.configureCapture (be 4 p ++ be 4 q ++ be 1 mode ++ be 2 mask ++ be 2 tol)) s =
      .next (configureCapture ⟨p, q, mode, mask, tol⟩ s) :=
  exec_of_message rfl (takenNow_setup setup)
    (readCaptureArgs_be (a := ⟨p, q, mode, mask, tol⟩) preFits postFits modeFits maskFits tolFits)

theorem roundingOf_code (mode : Rounding) : roundingOf mode.code = some mode := by
  cases mode <;> rfl

theorem roundingOf_eq_none {code : Nat} (beyond : 1 < code) : roundingOf code = none := by
  unfold roundingOf
  split
  · omega
  · omega
  · rfl

theorem rounding_code_lt (mode : Rounding) : mode.code < 256 := by
  cases mode <;> decide

theorem configureCapture_of_values (mode : Rounding) {p q mask tol : Nat} (maskFits : mask < 256) (tolerable : tol ≤ 255)
    (s : State) :
    configureCapture ⟨p, q, mode.code, mask, tol⟩ s =
      respond .ok []
        { s with
          front := { s.front with rounding := mode }
          takes :=
            { s.takes with preRoll := min p 524288, postRoll := min q 262144, followMask := BitVec.ofNat 8 mask }
          link := { s.link with tolerance := tol } } := by
  simp only [configureCapture, roundingOf_code]
  exact if_pos ⟨maskFits, tolerable⟩

theorem configureCapture_refused {a : CaptureArgs} (s : State)
    (bad : roundingOf a.rounding = none ∨ ¬(a.mask < 256 ∧ a.tolerance ≤ 255)) :
    configureCapture a s = respond .badValue [] s := by
  unfold configureCapture
  split
  case h_1 mode isMode =>
    rw [isMode] at bad
    exact if_neg (by simpa only [reduceCtorEq, false_or] using bad)
  case h_2 => rfl

/-- Settles O11: the arguments read back, and each check refuses on its own. -/
theorem configureCaptureSetsFiveValues : Obligations.ConfigureCaptureSetsFiveValues := by
  unfold Obligations.ConfigureCaptureSetsFiveValues
  refine ⟨fun s setup => ⟨fun p q mode mask tol preFits postFits maskFits tolerable => ?taken,
    fun p q mode mask tol preFits postFits modeFits maskFits tolFits bad => ?refused⟩,
    fun strap s => ⟨restart strap s, rfl, rfl, rfl, rfl, rfl, restart_followMask strap s, rfl⟩⟩
  case taken =>
    refine (exec_configureCapture setup preFits postFits (rounding_code_lt mode) (by omega) (by omega)).trans ?_
    rw [configureCapture_of_values mode maskFits tolerable]
    rfl
  case refused =>
    refine (exec_configureCapture setup preFits postFits modeFits maskFits tolFits).trans
      (congrArg _ (configureCapture_refused s ?_))
    rcases bad with badMode | badMask | badTol
    · exact .inl (roundingOf_eq_none badMode)
    · exact .inr fun ⟨fits, _⟩ => absurd fits (Nat.not_lt.mpr badMask)
    · exact .inr fun ⟨_, fits⟩ => absurd fits (Nat.not_le.mpr badTol)

end Sys2Proof.Proofs
end

section
/-! PROOFS. COMMIT: what makes the configuration complete, and the run entered (R84, R95, R158, R180). -/

namespace Sys2Proof.Proofs

open Sys2Proof Sys2Proof.Machine Sys2Proof.Safety

/-! ### The configuration is complete (R180) -/

theorem mem_enabledTracks {s : State} {n : Fin 16} : n ∈ enabledTracks s ↔ s.front.tracks[n].kind ≠ .off := by
  simp only [enabledTracks, List.mem_filter, List.mem_finRange, true_and, bne_iff_ne]

theorem enabledTracks_eq_nil {s : State} : enabledTracks s = [] ↔ ∀ n : Fin 16, s.front.tracks[n].kind = .off := by
  simp only [List.eq_nil_iff_forall_not_mem, mem_enabledTracks, not_not]

theorem commitReady_of_no_range {s : State} (range : s.writer.range = none) : commitReady s = false := by
  rw [commitReady, range]

theorem commitReady_of_range {s : State} {first last : Nat} (range : s.writer.range = some (first, last)) :
    commitReady s = true ↔ 128 + first ≤ last + 1 ∧ ∃ n : Fin 16, s.front.tracks[n].kind ≠ .off := by
  have enabled : (!(enabledTracks s).isEmpty) = true ↔ ∃ n : Fin 16, s.front.tracks[n].kind ≠ .off := by
    rw [Bool.not_eq_true', List.isEmpty_eq_false_iff, ne_eq, enabledTracks_eq_nil, not_forall]
  rw [commitReady, range, Bool.and_eq_true, decide_eq_true_eq, enabled]
  exact and_congr_left' (show 128 ≤ last + 1 - first ↔ 128 + first ≤ last + 1 by omega)

theorem commit_of_incomplete {s : State} (incomplete : commitReady s = false) : commit () s = respond .incomplete [] s := by
  rw [commit, incomplete]
  rfl

theorem commit_of_ready {s : State} (ready : commitReady s = true) : commit () s = respond .ok [] (enterRun s) := if_pos ready

/-! ### The space state is set for the first time (R158) -/

/-- Of more than 64 blocks the space state is AMPLE, or NEAR FULL, which is a change and raises its notice. -/
theorem setSpace_of_unset {s : State} {n : Nat} (left : remaining s = some n) (unset : s.writer.space = none) (many : 64 < n) :
    setSpace s =
      { s with
        writer := { s.writer with space := some (if 2048 < n then .ample else .nearFull) }
        notices :=
          if 2048 < n then s.notices else noticeUnit (s.notices.pending ||| BitVec.twoPow 20 14) s.notices.mask } := by
  have notNone : n ≠ 0 := by omega
  have notFull : ¬n ≤ Config.fullBlocks := Nat.not_le.mpr many
  rw [setSpace, left]
  dsimp only
  rw [if_neg (by rw [unset]; exact nofun), spaceOf, if_neg notNone, if_neg notFull]
  rcases Nat.lt_or_ge 2048 n with ample | nearFull
  · rw [if_neg (show ¬n ≤ Config.nearFullBlocks from Nat.not_le.mpr ample), if_pos ample, if_pos ample]
  · rw [if_pos (show n ≤ Config.nearFullBlocks from nearFull), if_neg (Nat.not_lt.mpr nearFull),
      if_neg (Nat.not_lt.mpr nearFull)]
    rfl

/-! ### The first STATUS (R89, R94, R95) -/

/-- On a line that is not idle the first entry of an empty queue waits for the line. -/
theorem requestStatus_of_empty {s : State} (active : linkActive s = true) (empty : s.link.queue = [])
    (standby : s.link.tx = .standby) (line : s.link.line ≠ .idle) :
    requestStatus s =
      { s with link := { s.link with queue := [{ frame := .status, attempts := 0 }], tx := .waitIdle } } := by
  rw [requestStatus_of_room active (by rw [empty]; exact nofun) (by rw [empty]; exact Nat.zero_lt_succ _), appendEntry, empty]
  exact kickTransmitter_of_line_not_idle standby (List.cons_ne_nil _ _) line

/-! ### The run entered (R180) -/

/-- The run entered, before the space state is set and the first STATUS requested. -/
def runBegun (first : Nat) (s : State) : State :=
  { s with
    port := { s.port with phase := .run }
    writer := { s.writer with cursor := some first }
    link := { s.link with line := .busy, restFrom := max s.link.restFrom s.time, receiver := .waiting, announce := some s.time } }

theorem enterRun_of_range {s : State} {first last : Nat} (range : s.writer.range = some (first, last)) :
    enterRun s = requestStatus (setSpace (runBegun first s)) := by
  rw [enterRun, range]
  rfl

/-- Settles O12: neither a range nor an enabled track can be missing, and the three parts of the run entered follow each other. -/
theorem commitEntersRun : Obligations.CommitEntersRun := by
  unfold Obligations.CommitEntersRun
  intro s setup
  have taken : exec (.commit []) s = .next (commit () s) := exec_of_message rfl (takenNow_setup setup) rfl
  refine ⟨fun missing => ?incomplete, fun first last n range wide enabled empty standby talks unset => ?run⟩
  case incomplete =>
    have notReady : commitReady s = false := by
      cases range : s.writer.range with
      | none => exact commitReady_of_no_range range
      | some card =>
        rw [Bool.eq_false_iff, ne_eq, commitReady_of_range range]
        rintro ⟨wide, n, enabled⟩
        rcases missing with none | ⟨r, held, short⟩ | off
        · exact nomatch none.symm.trans range
        · cases held.symm.trans range
          omega
        · exact enabled (off n)
    unfold Answered
    rw [taken, commit_of_incomplete notReady]
    rfl
  case run =>
    have left : remaining (runBegun first s) = some (last + 1 - first) := remaining_of_card range rfl
    have port : (setSpace (runBegun first s)).port = (runBegun first s).port := by simp only [setSpace_frame]
    have link : (setSpace (runBegun first s)).link = (runBegun first s).link := by simp only [setSpace_frame]
    have begun := requestStatus_of_empty (s := setSpace (runBegun first s))
      ((linkActive_iff _).mpr ⟨by rw [port]; rfl, by rw [link]; exact talks⟩) (by rw [link]; exact empty)
      (by rw [link]; exact standby) (by rw [link]; exact nofun)
    rw [taken, commit_of_ready ((commitReady_of_range range).mpr ⟨wide, n, enabled⟩), enterRun_of_range range, begun,
      setSpace_of_unset left unset (by omega)]
    rfl

end Sys2Proof.Proofs
end

section
/-! PROOFS. CAPTURE RESTART: what each block loses, and that the end of the event, which finds no take, gives nothing back but the
writer's next write (R51, R82, R110, R132, R156, R173, R183). -/

namespace Sys2Proof.Proofs

open Sys2Proof Sys2Proof.Machine Sys2Proof.Safety

/-! ### The blocks after the restart (R183) -/

theorem restartTakes_takes (s : State) :
    (restartTakes s).takes = { s.takes with slots := Vector.replicate 3 none, pendingStart := none, closed := [] } := by
  simp only [restartTakes, raiseIf_frame]

theorem restartTakes_notices (s : State) :
    (restartTakes s).notices =
      if (∃ i : Fin 3, s.takes.slots[i] ≠ none) ∨ s.takes.pendingStart ≠ none then
        noticeUnit (s.notices.pending ||| BitVec.twoPow 20 19) s.notices.mask
      else s.notices := by
  rw [restartTakes, raiseIf]
  simp only [captureInHand_iff]
  split <;> rfl

theorem restartAll_takes (s : State) : (restartAll s).takes = (restartTakes s).takes := by
  simp only [restartAll, restartNotes_takes, restartWriter_takes, restartMix_takes, emptyRing_takes]

theorem restartAll_notices (s : State) : (restartAll s).notices = (restartTakes s).notices := by
  simp only [restartAll, restartNotes_notices, restartWriter_notices, restartMix_notices, emptyRing_notices]

theorem restartAll_ring (s : State) : (restartAll s).ring = { s.ring with frames := [] } := by
  simp only [restartAll, restartNotes_ring, restartWriter_ring, restartMix_ring, emptyRing, restartTakes_frame]

theorem restartAll_mixer (s : State) : (restartAll s).mixer = (restartMix s).mixer := by
  simp only [restartAll, restartNotes_mixer, restartWriter_mixer, restartMix, emptyRing_mixer, restartTakes_frame]

theorem restartAll_writer (s : State) : (restartAll s).writer = (restartWriter s).writer := by
  simp only [restartAll, restartNotes_writer, restartWriter, restartMix_writer, emptyRing_writer, restartTakes_frame]

theorem restartAll_store (s : State) : (restartAll s).store = (restartNotes s).store := by
  simp only [restartAll, restartNotes, restartWriter_store, restartMix_store, emptyRing_store, restartTakes_frame]

theorem restartMix_track (s : State) (n : Fin 16) :
    (restartMix s).mixer.tracks[n] =
      { s.mixer.tracks[n] with gate := .closed, hold := 0, envelope := .closed, gain := 0, peak := 0 } :=
  Vector.getElem_ofFn n.isLt

/-! ### The end of an event that finds no take -/

/-- With no take, no PENDING note and no failed block listed, the writer has nothing to write. -/
theorem choose_of_no_request {s : State} (empty : ∀ i : Fin 3, s.takes.slots[i] = none)
    (none_pending : ∀ x ∈ s.store.notes, x.state ≠ .pending) (noSkipped : s.writer.skipped = [])
    (noUnlisted : s.writer.unlisted = 0) : choose s = none := by
  have noSlot (p : Fin 3 → Take → Bool) : earliestSlot p s = none :=
    bestSlot_eq_none fun i u holds => nomatch (empty i).symm.trans holds
  have noNotes : ¬hasNoteRequest s = true := fun asks => by
    obtain ⟨x, stored, pending⟩ := (hasNoteRequest_iff s).mp asks
    exact none_pending x stored pending
  have noFault : ¬hasFaultRequest s = true := fun asks => by
    rcases (hasFaultRequest_iff s).mp asks with skipped | unlisted
    · exact skipped noSkipped
    · exact absurd unlisted (by omega)
  refine choose_nothing (urgentRequest_of_none (noSlot _) noNotes noFault) (.inl ?_)
  rw [bulkRequest, noSlot]
  rfl

/-- The end of an event after which the writer has nothing to write issues no write and marks no note. -/
theorem finish_of_no_request (before : State) {after : State} (empty : ∀ i : Fin 3, after.takes.slots[i] = none)
    (none_pending : ∀ x ∈ after.store.notes, x.state ≠ .pending) (noSkipped : after.writer.skipped = [])
    (noUnlisted : after.writer.unlisted = 0) :
    (finish before after).writer.inFlight = after.writer.inFlight ∧ (finish before after).store = after.store := by
  obtain ⟨held, settled⟩ := settle_writer after
  have stands : makeDecision (announceChange before (settle after)) = announceChange before (settle after) := by
    refine makeDecision_eq_self_iff.mpr (.inr (choose_of_no_request (fun i => ?_) ?_ ?_ ?_))
    · rw [announceChange_takes]
      exact (revises_settle after).empty (empty i)
    · simpa only [announceChange_frame, settle_frame] using none_pending
    · simpa only [announceChange_frame, settled] using noSkipped
    · simpa only [announceChange_frame, settled] using noUnlisted
  rw [finish, stands]
  simp only [announceChange_frame, settle_frame, settled, and_self]

theorem requestStatus_listenOnly (s : State) : (requestStatus s).link.listenOnly = s.link.listenOnly := by
  unfold requestStatus
  split_ifs
  case pos => rfl
  case pos => rfl
  case pos => rfl
  case pos => exact kickTransmitter_listenOnly _
  case neg => rfl

/-- The end of an event leaves whether the station talks, and the announce timer. -/
theorem finish_link_timer (before after : State) :
    (finish before after).link.listenOnly = after.link.listenOnly ∧
      (finish before after).link.announce = after.link.announce := by
  have link : (finish before after).link = (announceChange before (settle after)).link := by
    simp only [finish, makeDecision_frame]
  have settled : (settle after).link = after.link := by simp only [settle_frame]
  rw [link, announceChange]
  split
  · rw [settled]
    exact ⟨rfl, rfl⟩
  · obtain ⟨-, -, -, announce⟩ := requestStatus_link (settle after)
    rw [requestStatus_listenOnly, announce, settled]
    exact ⟨rfl, rfl⟩

/-! ### The state after the command -/

theorem finish_restartAll_takes (s : State) :
    ∃ slots, (finish s (restartAll s)).takes = { s.takes with slots := slots, pendingStart := none, closed := [] } := by
  obtain ⟨slots, takes⟩ := slotsAlone_finish s (restartAll s)
  exact ⟨slots, by rw [takes, restartAll_takes, restartTakes_takes]⟩

theorem finish_restartAll_slot (s : State) (i : Fin 3) : (finish s (restartAll s)).takes.slots[i] = none :=
  (revises_finish s (restartAll s)).empty ((takesCleared_restartAll s).slots i)

theorem finish_restartAll_writer {s : State} (run : s.port.phase = .run) :
    ∃ flight, (finish s (restartAll s)).writer =
      { s.writer with held := none, capture := .normal, skipped := [], unlisted := 0, inFlight := flight } := by
  have still : (restartAll s).port.phase = .run := by simpa only [restartAll_frame] using run
  have nothing : (finish s (restartAll s)).writer.held = none :=
    finish_held_of_none s still (by rw [restartAll_writer]; rfl)
  obtain ⟨held, flight, writer⟩ := finish_writer_fields s still
  rw [writer] at nothing
  exact ⟨flight, by rw [writer, restartAll_writer, show held = none from nothing]; rfl⟩

/-- The write in flight goes on, and its success will count for nothing (R173). -/
theorem finish_restartAll_of_busy {s : State} (run : s.port.phase = .run) {w : Write} (flight : s.writer.inFlight = some w) :
    (finish s (restartAll s)).writer.inFlight = some { w with stale := true } ∧
      (finish s (restartAll s)).store = (restartNotes s).store := by
  have still : (restartAll s).port.phase = .run := by simpa only [restartAll_frame] using run
  have busy : (restartAll s).writer.inFlight = some { w with stale := true } := by
    rw [restartAll_writer]
    exact congrArg (Option.map _) flight
  exact ⟨finish_inFlight_of_busy s still busy, (finish_store_of_busy s busy).trans (restartAll_store s)⟩

/-- A free writer of a station without notes stays free. -/
theorem finish_restartAll_of_free {s : State} (free : s.writer.inFlight = none) (noNotes : s.store.notes = []) :
    (finish s (restartAll s)).writer.inFlight = none ∧ (finish s (restartAll s)).store.notes = [] := by
  have notes : (restartAll s).store.notes = [] := by
    rw [restartAll_store]
    exact congrArg (List.map _) noNotes
  obtain ⟨sameFlight, sameStore⟩ := finish_of_no_request s (takesCleared_restartAll s).slots
    (by rw [notes]; exact fun x stored => nomatch stored) (by rw [restartAll_writer]; rfl) (by rw [restartAll_writer]; rfl)
  rw [sameFlight, sameStore, notes, restartAll_writer]
  exact ⟨congrArg (Option.map _) free, rfl⟩

/-- Settles O27: block by block, what the restart leaves and what the end of the event leaves of that. -/
theorem captureRestartAbandonsTheCapture : Obligations.CaptureRestartAbandonsTheCapture := by
  unfold Obligations.CaptureRestartAbandonsTheCapture
  intro s run
  have taken : exec (.captureRestart []) s = .next (captureRestart () s) := exec_of_message rfl (takenNow_run run) rfl
  refine ⟨respond .ok [] (finish s (restartAll s)), taken, ?_⟩
  obtain ⟨slots, takes⟩ := finish_restartAll_takes s
  obtain ⟨flight, writer⟩ := finish_restartAll_writer run
  obtain ⟨peers, runNumber, counts⟩ := finish_link s (restartAll s)
  obtain ⟨listenOnly, announce⟩ := finish_link_timer s (restartAll s)
  obtain ⟨time, port, notices, counter, front, mixer, ring, -, -⟩ := finish_frame s (restartAll s)
  obtain ⟨sameTime, samePort, sameCounter, sameFront, sameLink, -, -⟩ := restartAll_frame s
  have empty := finish_restartAll_slot s
  have idle : enginePhase (finish s (restartAll s)) = .idle := enginePhase_of_empty empty (by rw [takes])
  have notes := (finish_store s (restartAll s)).2
  have seq := finish_seq s (restartAll s)
  rw [restartAll_store] at notes seq
  refine ⟨?port, empty, ?pendingStart, ?closed, idle, ?serial, ?scene, ?nextTake, ?preRoll, ?postRoll, ?followMask, ?notices,
    ?ring, ?blockCount, ?clips, ?output, fun n => ?track, ?held, ?capture, ?skipped, ?unlisted, ?cursor, ?range, ?space, ?failed,
    fun w busy => ?busy, finish_restartAll_of_free, notes.trans (restartNotes_notes s), seq, counter.trans sameCounter,
    front.trans sameFront, time.trans sameTime, ?run, ?peers, ?counts, ?listenOnly, ?announce⟩
  case port => rw [respond_port, port, samePort]
  case notices => rw [respond_notices, notices, restartAll_notices, restartTakes_notices]
  case ring => rw [respond_ring, ring, restartAll_ring]
  case blockCount => rw [respond_mixer, mixer, restartAll_mixer]; rfl
  case clips => rw [respond_mixer, mixer, restartAll_mixer]; rfl
  case output => rw [respond_mixer, mixer, restartAll_mixer]; rfl
  case track => rw [respond_mixer, mixer, restartAll_mixer, restartMix_track]
  case busy =>
    obtain ⟨stale, store⟩ := finish_restartAll_of_busy run busy
    rw [respond_writer, respond_store, stale, store]
    exact ⟨rfl, rfl⟩
  case run => rw [respond_link, runNumber, sameLink]
  case peers => rw [respond_link, peers, sameLink]
  case counts => rw [respond_link, counts, sameLink]
  case listenOnly => rw [respond_link, listenOnly, sameLink]
  case announce => rw [respond_link, announce, sameLink]
  all_goals simp only [respond_takes, respond_writer, takes, writer]

end Sys2Proof.Proofs
end
